-- ==== Sys2Proof/Word.lean ====
section
/-! DEFINITION. The words of the block: 32-bit registers, bytes, the 32 B payload word of a packet (R51). -/
namespace Sys2Proof

/-- A register (R9) and every other 32-bit quantity. -/
abbrev Word := BitVec 32
/-- A byte of a tray, a packet or the canvas. -/
abbrev Byte := BitVec 8
/-- A payload word of 32 B (R51); byte `j` is bits `[8j+7:8j]` (little-endian, 00_scope.md). -/
abbrev DataWord := BitVec 256

end Sys2Proof
end

