-- ==== Sys2Proof/Syntax.lean ====
section
/-! DEFINITION. The commands of the block: one constructor for each row of spec/opcode_table.json, with the operands
that say which register path, position, port, packet or partner the command concerns. A position is
`32 * ROW + COL` with a physical column, as bits [25:16] of a register address (R8). -/
namespace Sys2Proof

/-- A router position: `32 * ROW + COL`, physical column (R8). -/
abbrev Pos := Nat

/-- The paths by which registers are reached; each keeps its own latches and stages (R10, R457). -/
inductive Path where
  | host (port : Nat)     -- HP0, HP1
  | tap                   -- REG_ACCESS of the TAP
  | easel (core : Nat)    -- panel easel core n; the master core follows the last panel
  | tile (pos : Nat)      -- the tile register path TRG of one position
  | peer (port : Nat)     -- a partner die through a spine port (R304): 8 * group + port
  | canvas                -- the canvas loader
deriving DecidableEq, Repr

/-- Privilege levels (R15). -/
inductive Priv where
  | tenant
  | supervisor
  | debug
deriving DecidableEq, Repr

/-- One register access: its path, privilege, the context (host path) or slot (tile path) of a Tenant, and its tag. -/
structure Access where
  path : Path
  priv : Priv
  ctx  : BitVec 12
  slot : BitVec 6
  tag  : BitVec 16
deriving DecidableEq, Repr

/-- A data packet: the routing header of R54 and its payload words. -/
structure Pkt where
  dest     : BitVec 32
  src      : BitVec 32
  ctx      : BitVec 12
  vc       : BitVec 3
  cls      : BitVec 3
  ty       : BitVec 4
  len      : BitVec 6
  lastw    : BitVec 2
  deadline : BitVec 16
  seq      : BitVec 24
  ccnt     : BitVec 6
  tag      : BitVec 16
  mask     : BitVec 32
  cnt      : Bool
  cmplReq  : Bool
  mcCol    : Bool
  relay    : Bool
  tw       : BitVec 64
  payload  : List DataWord
deriving DecidableEq, Repr

/-- A sketch flit: the header of R60 and its 32 B of payload. -/
structure SFlit where
  dest  : BitVec 32
  src   : BitVec 32
  kvc   : BitVec 2
  stype : BitVec 6
  ctx   : BitVec 12
  tag   : BitVec 16
  priv  : BitVec 2
  body  : BitVec 256
deriving DecidableEq, Repr

/-- Which queue of packets waiting at a port an injection takes from (R92). -/
inductive InjectFrom where
  | queue (slot q : Nat)  -- the next packet of an engine's command in service
  | answers               -- the answers (READ_RSP, CMPL) and relays the port has formed
deriving DecidableEq, Repr

/-- A fault as a block reports it (R396): source code, sub-unit, LVL, context, ARG0, ARG1 and the raising position. -/
structure FaultMsg where
  source : BitVec 8
  unit   : BitVec 8
  lvl    : BitVec 8
  ctx    : BitVec 12
  arg0   : BitVec 64
  arg1   : BitVec 64
  pos    : Pos
deriving DecidableEq, Repr

/-- A Phiza word of R271: its flag (true for a control word) and its 256 data bits. -/
abbrev PhizaWord := Bool × DataWord

/-- A frame as the receiver's FEC leaves it (R272): uncorrectable codewords (LOW framing: codewords with a nonzero
syndrome), symbols corrected or located on each logical lane, and the words in frame order. -/
structure PhizaFrame where
  ue    : Nat
  syms  : List Nat
  words : List PhizaWord
deriving DecidableEq, Repr

/-- One lane's READ_MON sample (R296): receive power, bias, bias maximum, wavelength lock and wavelength. -/
structure LaneMon where
  rxp     : BitVec 16
  bias    : BitVec 16
  biasMax : BitVec 16
  locked  : Bool
  wl      : BitVec 8
deriving DecidableEq, Repr

/-- What a tile client reports on its budget port over one AON cycle (R379): POWER in 10 mW units, SLOT and IDLE. -/
structure TileReport where
  pos   : Pos
  power : BitVec 16
  slot  : BitVec 6
  idle  : Bool
deriving DecidableEq, Repr

/-- The commands of the block. -/
inductive Instr where
  -- registers and the sketch network
  | regWr (acc : Access) (addr : Word) (data : Word)
  | regRsp (port : Nat) (tag : BitVec 16)
  | hostRspTimeout (port : Nat) (tag : BitVec 16)
  | arbCommit (acc : Access) (pos : Pos) (data : Word)
  | dieIdWrite (acc : Access) (data : Word)
  | dieIdApply
  | sketchFlitArrive (pos : Pos) (first : Bool) (flit : SFlit)
  | aonEdge (reports : List TileReport)
  | easelWdt (core : Nat)
  -- routing
  | routeLookup (pos : Pos) (input vc : Nat)
  | arbitrate (pos : Pos) (output : Nat)
  | flitCross (pos : Pos) (output : Nat)
  | routeEntryWrite (acc : Access) (pos : Pos) (bank index : Nat) (data : Word)
  | spraySetWrite (acc : Access) (pos : Pos) (bank n : Nat) (data : Word)
  | drainHold (acc : Access) (data : Word)
  | drainTimeout (vc : Nat)
  | routeSwap (acc : Access) (data : Word)
  | routeBankSwitch
  | routerStarve (pos : Pos) (input vc output : Nat)
  | cmapSnapshot
  | cmapRecordCopy (panel : Nat)
  -- network time and stencils
  | timeBeacon (upset : List Pos)
  | timerefEdge
  | refLost
  | beacon (group port : Nat) (body : BitVec 256)
  | beaconSend (group : Nat)
  | parentLost
  | timeExpired
  | timeCfgWrite (acc : Access) (data : Word)
  | timeSet (acc : Access) (data : Word)
  | stencilEntryAdvance (pos : Pos) (point : Nat)
  | stencilRun (acc : Access) (data : Word)
  | stencilEpochWrite (acc : Access) (high : Bool) (data : Word)
  | stencilSwitchArm (acc : Access) (data : Word)
  | stencilBankSwitch
  | stencilDataAccess (acc : Access) (write : Bool) (data : Word)
  | washOwnerWrite (acc : Access) (data : Word)
  | panelWakePlanned (panel : Nat)
  -- contexts and queues
  | ctxBind (acc : Access) (pos : Pos) (data : Word)
  | ctxUnbind (acc : Access) (pos : Pos) (data : Word)
  | queueEnable (acc : Access) (pos : Pos) (slot q : Nat) (data : Word)
  | queueSubmit (acc : Access) (pos : Pos) (slot q : Nat) (data : Word)
  | queueRestart (acc : Access) (pos : Pos) (slot q : Nat) (data : Word)
  | xlateResume (acc : Access) (pos : Pos) (slot q : Nat) (data : Word)
  | abort (acc : Access) (pos : Pos) (slot q : Nat) (data : Word)
  -- the commands that engines take from the queues
  | copy (pos : Pos) (slot q : Nat)
  | strided (pos : Pos) (slot q : Nat)
  | gather (pos : Pos) (slot q : Nat)
  | scatter (pos : Pos) (slot q : Nat)
  | mcast (pos : Pos) (slot q : Nat)
  | washWrite (pos : Pos) (slot q : Nat)
  | trigger (pos : Pos) (slot q : Nat)
  | allreduce (pos : Pos) (slot q : Nat)
  | reduceScatter (pos : Pos) (slot q : Nat)
  | allgather (pos : Pos) (slot q : Nat)
  | broadcast (pos : Pos) (slot q : Nat)
  | alltoall (pos : Pos) (slot q : Nat)
  | barrier (pos : Pos) (slot q : Nat)
  | ringPass (pos : Pos) (slot q : Nat)
  | msgSend (pos : Pos) (slot q : Nat)
  | wellAdd (pos : Pos) (slot q : Nat)
  | timedStart (pos : Pos) (slot q : Nat)
  | armTrig (pos : Pos) (flit : SFlit)
  | armAck (pos : Pos) (flit : SFlit)
  | packetInject (pos : Pos) (port : Nat) (source : InjectFrom)
  | commandEnd (pos : Pos) (slot q : Nat)
  | xlateWalkDone (pos : Pos) (slot q : Nat)
  | xlateInv (acc : Access) (pos : Pos) (data : Word)
  | xlateInvDone (pos : Pos)
  | preempt (acc : Access) (pos : Pos) (data : Word)
  | preemptSaveDone (pos : Pos)
  | preemptResume (acc : Access) (pos : Pos) (data : Word)
  | scrub (acc : Access) (pos : Pos) (data : Word)
  | scrubDone (pos : Pos)
  | laneFlit (pos : Pos) (side : Nat) (ctl : BitVec 256) (payload : List DataWord)
  -- packets delivered
  | write (pos : Pos) (pkt : Pkt)
  | readReq (pos : Pos) (pkt : Pkt)
  | readRsp (pos : Pos) (pkt : Pkt)
  | cmpl (pos : Pos) (pkt : Pkt)
  | mcWrite (pos : Pos) (pkt : Pkt)
  | ringBlock (pos : Pos) (pkt : Pkt)
  | ringCredit (pos : Pos) (side : Nat) (ctl : BitVec 256)
  | ringChunkFree (pos : Pos) (slot q : Nat)
  | msg (pos : Pos) (pkt : Pkt)
  | msgPlace (pos : Pos)
  | msgCommit (pos : Pos) (ring : Nat)
  | wellAddPacket (pos : Pos) (pkt : Pkt)
  | partialPkt (pos : Pos) (pkt : Pkt)
  -- reducers and collectives
  | reducerFlush (pos : Pos) (slot : Nat)
  | redTreeEnable (acc : Access) (data : Word)
  | redTreeDisable (acc : Access) (data : Word)
  | subrootPartial (pos : Pos) (pkt : Pkt)
  | stepTimeout (pos : Pos) (slot : Nat)
  | collArm (acc : Access) (data : Word)
  | collDisarm (acc : Access) (data : Word)
  | collArmDone
  | collAbort (acc : Access) (data : Word)
  | washBeat (pos : Pos) (beat : List DataWord)
  | barArrive (pos : Pos) (flit : SFlit)
  | barCombined (pos : Pos) (flit : SFlit)
  | barRelease (pos : Pos) (flit : SFlit)
  | barrierWave (pos : Pos) (slot : Nat)
  -- the tray processor port
  | tppRead (pos : Pos) (priv : Priv) (slot : Nat) (addr len : Nat) (id : Nat)
  | tppWrite (pos : Pos) (priv : Priv) (slot : Nat) (addr len : Nat) (id : Nat) (mask : BitVec 128) (data : List Byte)
  | tppBitSet (pos : Pos) (priv : Priv) (slot : Nat) (addr : Nat) (id : Nat) (data : BitVec 64)
  | tppBitClear (pos : Pos) (priv : Priv) (slot : Nat) (addr : Nat) (id : Nat) (data : BitVec 64)
  | tppTake (pos : Pos) (priv : Priv) (slot : Nat) (addr : Nat) (id : Nat)
  | tppRotate (pos : Pos) (priv : Priv) (slot : Nat) (addr len : Nat) (id : Nat) (write : Bool) (data : List Byte)
  | trayBankCtrlWrite (acc : Access) (pos : Pos) (data : Word)
  | bankInitDone (pos : Pos) (bank : Nat)
  | trayStarve (pos : Pos) (bank : Nat)
  | ringEnable (acc : Access) (pos : Pos) (ring : Nat) (data : Word)
  | ringFlush (acc : Access) (pos : Pos) (ring : Nat) (data : Word)
  | ringHeadWrite (acc : Access) (pos : Pos) (ring : Nat) (data : Word)
  | ringStall (pos : Pos)
  | wellEnable (acc : Access) (pos : Pos) (well : Nat) (data : Word)
  -- spine ports
  | frameReceive (group port : Nat) (frame : PhizaFrame)
  | frameSend (group port : Nat)
  | spEnable (acc : Access) (pos : Pos) (side : Nat) (data : Word)
  | spRetrain (acc : Access) (pos : Pos) (side : Nat) (data : Word)
  | safetyRelease (acc : Access) (pos : Pos) (side : Nat) (data : Word) (accepted : Bool)
  | pmaLock (group lane : Nat)
  | lockTimeout (group port : Nat)
  | trainLimit (group port : Nat)
  | ident (group port lane : Nat) (body : BitVec 256)
  | cap (group port : Nat) (body : BitVec 256)
  | agree (group port : Nat) (body : BitVec 256)
  | deskew (group port : Nat) (skewNs : Nat)
  | ready (group port : Nat) (ackSeq startSeq : Nat)
  | spareReq (group port : Nat) (lane : Nat)
  | spareAck (group port : Nat) (lane : Nat)
  | wlAssign (group port : Nat) (lane wl : Nat)
  | rxpReport (group port : Nat) (powers : List (BitVec 16))
  | serCheck (group lane : Nat)
  | sparingTimeout (group port : Nat)
  | relockTimeout (group lane : Nat)
  | oemiResponse (group : Nat) (frame : BitVec 128)
  | oemiTimeout (group : Nat)
  | wlLockChange (group lane : Nat) (locked : Bool) (wl : Nat)
  | eyeShut (group : Nat)
  | laneFault (group lane : Nat)
  | readMon (group : Nat) (readings : List (Nat × LaneMon))
  | peerAccess (acc : Access) (pos : Pos) (side : Nat) (data : Word)
  | peerAccessReceive (group port : Nat) (write : Bool) (addr data : Word) (tag : BitVec 16)
  | peerResponse (group port : Nat) (data : Word) (status : BitVec 8)
  | peerAccessTimeout (group : Nat)
  | spineIngress (group : Nat) (pkt : Pkt)
  | spineEgress (group vc : Nat)
  | circuitWindowStart (group : Nat)
  | circuitTrainAbandon (group : Nat)
  | circuitCutoff (group : Nat)
  | circuitWindowEnd (group : Nat)
  -- bring-up, the canvas and glazes
  | powerOnReset (glazeSel : BitVec 4)
  | systemReset
  | bringupReload (acc : Access) (data : Word)
  | fuseRead (words : List (BitVec 128)) (ok : Bool)
  | clockStart (locked : Bool)
  | calibrate (failed : List (Nat × Nat))
  | trayTest (failed : List (Nat × Nat × Nat))
  | canvasRead (image : List Byte) (readOk : Bool)
  | glazeDesc (body : List Byte)
  | claims (body : List Byte)
  | colmap (body : List Byte)
  | firmware (body : List Byte)
  | regWriteRec (body : List Byte)
  | routeRec (body : List Byte)
  | sprayRec (body : List Byte)
  | stencilRec (body : List Byte)
  | collectiveRec (body : List Byte)
  | endRec (body : List Byte)
  | bringupContinue (acc : Access) (data : Word)
  | firmwareStart (reports : List Nat)
  | spinePhase (timedOut : Bool)
  | timePhase (timedOut : Bool)
  | enterReady
  | glazeSwitch (acc : Access) (data : Word) (readOk : Bool)
  | glazeSwitchDrain
  | glazeSwitchCommit
  -- clocks, sleep and power
  | panelSleep (panel : Nat)
  | panelEntryDone (panel : Nat)
  | panelWake (panel : Nat)
  | panelWakeDone (panel : Nat)
  | droop (panel : Nat)
  | droopHoldEnd (panel : Nat) (persists : Bool)
  | tempSample (panel : Nat) (temp : BitVec 8)
  | powerBudget (pos : Pos) (flit : SFlit)
  | budgetViol (pos : Pos)
  | railLimit (rail : Nat)
  | capDivide
  | powerSlack (flit : SFlit)
  | dieShift (flit : SFlit)
  | slackRoundTimeout
  | jobEnergyVisit (pos : Pos) (slot : Nat)
  | jobEClr (acc : Access) (data : Word)
  | coolantStop
  -- faults and health
  | fault (msg : FaultMsg)
  | pinSummary (pos : Pos) (level : Nat)
  | tileClientErr (pos : Pos) (level : Nat)
  | chipReset
  | errPinRelease (acc : Access) (data : Word)
  | errPinMinEnd
  | faultQuiet
  | faultLogDrain
  | odlReplay (kind : Nat) (pos : Pos) (output : Nat) (corrected rejected : Nat)
  | odlRetrainDone (kind : Nat) (pos : Pos) (output : Nat) (ok : Bool)
  | fence (acc : Access) (pos : Pos) (data : Word)
  | wearUpdate
  | wearHistory
  | operHour
  | soakGo (acc : Access) (data : Word)
  | soakStop (acc : Access) (data : Word)
  | soakEnd
  | errEntrySelWrite (acc : Access) (data : Word)
  -- observability
  | tpSnap (acc : Access) (pos : Pos) (data : Word)
  | swatchArm (acc : Access) (pos : Pos) (u : Nat) (data : Word)
  | swatchStop (acc : Access) (pos : Pos) (u : Nat) (data : Word)
  | swatchScan (acc : Access) (pos : Pos) (u : Nat) (data : Word)
  | swatchScanDone (pos : Pos) (u : Nat)
  | traceArm (acc : Access) (data : Word)
  | traceTrig (acc : Access) (data : Word)
  | traceMode (acc : Access) (data : Word)
  | traceMark (acc : Access) (data : Word)
  | traceTrigger (k : Nat)
  | traceSync
  | traceRdData (acc : Access)
  -- the TAP
  | idcode
  | ijtag
  | bypass
  | testLogicReset
  | regAccess (write force : Bool) (addr data : Word)
  | freeze
  | unfreeze
  | tapTraceRead (unit : Nat)
  | easelHalt (core : Nat)
  | easelResume (core : Nat)
  | easelStep (core : Nat)
  | easelRegWrite (core reg : Nat) (value : Word)
  | easelMemWrite (core : Nat) (addr value : Word)
  | easelBreakpoint (core : Nat)
  -- host and memory ports
  | hostInject (port : Nat) (priv : Priv) (ctx : BitVec 12) (pkt : Pkt)
  | vc5Held (port : Nat)
  | memResponse (pos : Pos) (side : Nat) (id : Nat) (data : List DataWord) (status : BitVec 2)
  | memTimeout (pos : Pos) (side : Nat) (id : Nat)
  | laneLost (group lane : Nat)
  | laneCodewordLock (group lane : Nat)
deriving DecidableEq, Repr

end Sys2Proof
end

