-- ==== Sys2Proof/Decode.lean ====
section
/-! DEFINITION. Reading a command from the bits of spec/opcode_table.json. No row of the table gives bits: the
commands are events, register accesses and packets, and none is spelled by a word. -/
namespace Sys2Proof

/-- The command that a word spells by the table's bits: the table gives no row bits, so no word spells one. -/
def decodeTableWord (_nbits _w : Nat) : Option Instr := none

end Sys2Proof
end

