-- ==== Sys2Proof/Machine/Bits.lean ====
section
/-! DEFINITION. Bit fields, bytes and the small arithmetic that the register tables and the packet layouts use. -/
namespace Sys2Proof.Machine

/-- Bits `[hi:lo]` of a number. -/
def bitsOf (n hi lo : Nat) : Nat := (n >>> lo) % 2 ^ (hi + 1 - lo)

/-- Field `[hi:lo]` of a 32-bit word. -/
def fld (w : Word) (hi lo : Nat) : Nat := bitsOf w.toNat hi lo

/-- Bit `i` of a 32-bit word. -/
def bit (w : Word) (i : Nat) : Bool := w.toNat.testBit i

/-- The word with field `[hi:lo]` replaced by the low bits of `v`. -/
def setFld (w : Word) (hi lo v : Nat) : Word :=
  let width := hi + 1 - lo
  BitVec.ofNat 32 (w.toNat - bitsOf w.toNat hi lo * 2 ^ lo + (v % 2 ^ width) * 2 ^ lo)

/-- The word with bit `i` set to `b`. -/
def setBit (w : Word) (i : Nat) (b : Bool) : Word := setFld w i i (if b then 1 else 0)

/-- 1 for true, 0 for false: a flag bit. -/
def b2n (b : Bool) : Nat := if b then 1 else 0

/-- A two's-complement reading of the low `w` bits of `n`. -/
def signed (w n : Nat) : Int :=
  let m := n % 2 ^ w
  if 2 ^ (w - 1) ≤ m then (m : Int) - (2 ^ w : Nat) else m

/-- The `w`-bit two's-complement encoding of an integer. -/
def encodeInt (w : Nat) (i : Int) : Nat := (i % (2 ^ w : Nat)).toNat

/-- A 32-bit counter that saturates (R106, R108). -/
def satAdd (w : Word) (n : Nat) : Word := BitVec.ofNat 32 (min (w.toNat + n) 0xFFFFFFFF)

/-- A 32-bit counter that wraps (R63). -/
def wrapAdd (w : Word) (n : Nat) : Word := BitVec.ofNat 32 (w.toNat + n)

/-- The low 32 bits of a number. -/
def lo32 (n : Nat) : Word := BitVec.ofNat 32 n
/-- Bits [63:32] of a number. -/
def hi32 (n : Nat) : Word := BitVec.ofNat 32 (n >>> 32)
/-- A 64-bit quantity from its two halves (R10). -/
def join64 (lo hi : Word) : Nat := lo.toNat + hi.toNat * 2 ^ 32

/-- The little-endian bytes of a number. -/
def bytesOf (count n : Nat) : List Byte := (List.range count).map fun j => BitVec.ofNat 8 (n >>> (8 * j))

/-- The number that little-endian bytes spell. -/
def ofBytes : List Byte → Nat
  | [] => 0
  | b :: bs => b.toNat + 256 * ofBytes bs

/-- Byte `j` of a payload word. -/
def dataWordByte (w : DataWord) (j : Nat) : Byte := BitVec.ofNat 8 (w.toNat >>> (8 * j))

/-- The 32 bytes of a payload word. -/
def wordBytes (w : DataWord) : List Byte := bytesOf 32 w.toNat

/-- The payload word that bytes spell. -/
def bytesWord (bs : List Byte) : DataWord := BitVec.ofNat 256 (ofBytes bs)

/-- Splits bytes into payload words of 32 B; the last may be short and is filled with zeros. -/
def bytesWords (count : Nat) (bs : List Byte) : List DataWord :=
  (List.range count).map fun k => bytesWord ((bs.drop (32 * k)).take 32)

/-- The number of set bits below bit `n`. -/
def popCount (n m : Nat) : Nat := ((List.range n).filter fun i => m.testBit i).length

/-- The indices of the set bits below bit `n`, lowest first. -/
def setBits (n m : Nat) : List Nat := (List.range n).filter fun i => m.testBit i

/-- The index of an element that satisfies a test, or the length where none does. -/
def findIdxOr {α : Type} (p : α → Bool) (l : List α) : Nat := l.findIdx p

/-- The list with its element at an index replaced (unchanged past the end). -/
def listSet {α : Type} (l : List α) (i : Nat) (x : α) : List α := l.set i x

/-- The first element that satisfies a test, and the list without it. -/
def takeFirst {α : Type} (p : α → Bool) : List α → Option (α × List α)
  | [] => none
  | x :: xs =>
    if p x then some (x, xs)
    else match takeFirst p xs with
      | none => none
      | some (y, ys) => some (y, x :: ys)

/-- Ceiling of a quotient (0 for a zero divisor). -/
def ceilDiv (a b : Nat) : Nat := (a + b - 1) / b

end Sys2Proof.Machine
end

