-- ==== Sys2Proof/Machine/Operands.lean ====
section
/-! DEFINITION. The fields of packets and sketch flits, bit by bit (R51 to R60), packet types (R55), virtual channels
(R52) and status codes (R174). -/
namespace Sys2Proof.Machine

/-- Packet types (R55). -/
abbrev tyWRITE : Nat := 0
abbrev tyREAD_REQ : Nat := 1
abbrev tyREAD_RSP : Nat := 2
abbrev tyCMPL : Nat := 3
abbrev tyMC_WRITE : Nat := 4
abbrev tyPARTIAL : Nat := 5
abbrev tyMSG : Nat := 6
abbrev tyWELL_ADD : Nat := 7
abbrev tyRING_BLOCK : Nat := 8

/-- Status codes of completions and commands (R174). -/
abbrev stDONE : Nat := 0x00
abbrev stPAUSED : Nat := 0x01
abbrev stXLATE_FAULT : Nat := 0x02
abbrev stFENCED : Nat := 0x03
abbrev stSIG_MISMATCH : Nat := 0x04
abbrev stTIMEOUT : Nat := 0x05
abbrev stDATA_LOSS : Nat := 0x06
abbrev stABORTED : Nat := 0x07
abbrev stQUOTA : Nat := 0x08
abbrev stPRIV : Nat := 0x09
abbrev stBAD_CMD : Nat := 0x0A
abbrev stRING_STALL : Nat := 0x0B

/-- Whether a VC may carry a packet type (R52). -/
def vcCarries (vc ty : Nat) : Bool :=
  match vc with
  | 0 | 1 => ty == tyWRITE || ty == tyREAD_REQ || ty == tyRING_BLOCK
  | 2 => ty == tyPARTIAL
  | 3 => ty == tyMC_WRITE
  | 4 => ty == tyMSG || ty == tyWELL_ADD
  | 5 => ty == tyREAD_RSP || ty == tyCMPL
  | _ => false

/-- The most flits a packet type may have (R55); none for an unused type. -/
def maxFlits (ty : Nat) : Option Nat :=
  match ty with
  | 0 | 2 | 4 | 7 | 8 => some 64
  | 1 | 3 | 5 => some 1
  | 6 => some 32
  | _ => none

/-- LEN and LASTW of a payload of `n` words (n at least 1). -/
def lenOf (n : Nat) : BitVec 6 × BitVec 2 := (BitVec.ofNat 6 ((n - 1) / 4), BitVec.ofNat 2 ((n - 1) % 4))

end Sys2Proof.Machine

namespace Sys2Proof
open Sys2Proof.Machine

/-- Flits of a packet: LEN + 1. -/
def Pkt.flits (p : Pkt) : Nat := p.len.toNat + 1
/-- Payload words of a packet (R51, R54). -/
def Pkt.words (p : Pkt) : Nat := 4 * p.len.toNat + p.lastw.toNat + 1

/-- The first router's check of a packet (R56): `true` where it fails. -/
def Pkt.malformed (p : Pkt) : Bool :=
  let ty := p.ty.toNat
  match maxFlits ty with
  | none => true
  | some m =>
    decide (5 < p.vc.toNat) || !vcCarries p.vc.toNat ty || decide (m < p.flits) ||
      (m == 1 && (if ty = tyPARTIAL then p.lastw.toNat != 3 else p.lastw.toNat != 0))

/-- The packet with a payload, its LEN and LASTW to match. -/
def Pkt.withPayload (p : Pkt) (ws : List DataWord) : Pkt :=
  { p with payload := ws, len := (lenOf ws.length).1, lastw := (lenOf ws.length).2 }

/-- A packet with every field zero. -/
def Pkt.zero : Pkt :=
  ⟨0, 0, 0, 0, 0, 0, 0, 0, 0, 0, 0, 0, 0, false, false, false, false, 0, []⟩

/-- A field of TYPE_WORD (R57). -/
def Pkt.tword (p : Pkt) (hi lo : Nat) : Nat := bitsOf p.tw.toNat hi lo
/-- RSP_CTX (R57). -/
def Pkt.rspCtx (p : Pkt) : Nat := p.tword 59 48
/-- ADDR (R57). -/
def Pkt.addr (p : Pkt) : Nat := p.tword 47 0

/-- The head control block of R54: bit n of the result is header bit n. -/
def Pkt.header (p : Pkt) : BitVec 256 :=
  p.tw ++ BitVec.ofBool p.relay ++ BitVec.ofBool p.mcCol ++ BitVec.ofBool p.cmplReq ++ BitVec.ofBool p.cnt ++ p.mask ++
  p.tag ++ p.ccnt ++ p.seq ++ p.deadline ++ p.lastw ++ p.len ++ p.ty ++ p.cls ++ p.vc ++ p.ctx ++ p.src ++ p.dest

/-- The packet that a head control block and a payload spell (R54). -/
def Pkt.ofHeader (h : BitVec 256) (payload : List DataWord) : Pkt :=
  { dest := h.extractLsb' 0 32, src := h.extractLsb' 32 32, ctx := h.extractLsb' 64 12, vc := h.extractLsb' 76 3
    cls := h.extractLsb' 79 3, ty := h.extractLsb' 82 4, len := h.extractLsb' 86 6, lastw := h.extractLsb' 92 2
    deadline := h.extractLsb' 94 16, seq := h.extractLsb' 110 24, ccnt := h.extractLsb' 134 6
    tag := h.extractLsb' 140 16, mask := h.extractLsb' 156 32, cnt := h.getLsbD 188, cmplReq := h.getLsbD 189
    mcCol := h.getLsbD 190, relay := h.getLsbD 191, tw := h.extractLsb' 192 64, payload := payload }

/-- The body control block of flit `i` of a packet (R59). -/
def Pkt.bodyBlock (p : Pkt) (i : Nat) : BitVec 256 :=
  let last := decide (i = p.len.toNat)
  let words : BitVec 2 := if last then p.lastw else 3
  (0 : BitVec 188) ++ p.ty ++ p.seq ++ p.deadline ++ words ++ BitVec.ofNat 6 i ++ BitVec.ofBool last ++ p.vc ++ p.ctx

/-- The sketch header of R60. -/
def SFlit.header (f : SFlit) : BitVec 128 :=
  (0 : BitVec 26) ++ f.priv ++ f.tag ++ f.ctx ++ f.stype ++ f.kvc ++ f.src ++ f.dest

/-- The sketch flit that a header and a payload spell (R60); reserved bits are ignored. -/
def SFlit.ofHeader (h : BitVec 128) (body : BitVec 256) : SFlit :=
  { dest := h.extractLsb' 0 32, src := h.extractLsb' 32 32, kvc := h.extractLsb' 64 2, stype := h.extractLsb' 66 6
    ctx := h.extractLsb' 72 12, tag := h.extractLsb' 84 16, priv := h.extractLsb' 100 2, body := body }

/-- Byte range [lo, lo + n) of a sketch payload, as a number. -/
def SFlit.field (f : SFlit) (lo n : Nat) : Nat := (f.body.toNat >>> (8 * lo)) % 2 ^ (8 * n)

/-- Whether a packet is answered with a CMPL when it is delivered or discarded (R64). -/
def Pkt.answered (p : Pkt) : Bool :=
  let ty := p.ty.toNat
  if ty = tyREAD_REQ then true
  else if ty = tyCMPL ∨ ty = tyREAD_RSP ∨ ty = tyPARTIAL then false
  else p.cmplReq

end Sys2Proof
end

