-- ==== Sys2Proof/Machine/RegTable.lean ====
section
/-! DEFINITION. The register tables of the spec: offset, repetition, reset value and access masks of every register
(R8 to R12, R457 to R464). A bit in no mask is RO or RSVD: a write leaves it as it is. -/
namespace Sys2Proof.Machine

/-- Who may reach a register (R15): Supervisor only, the Tenant of its slot, or every privilege. -/
inductive Reach where
  | supervisor
  | tenant
  | all
deriving DecidableEq, Repr

/-- The kind of edge port whose side carries a register (R463). -/
inductive EdgeKind where
  | any
  | memory
  | host
  | spine
  | policed   -- spine port groups and host ports
deriving DecidableEq, Repr

/-- One register of the map: `n1` copies `s1` bytes apart, `n2` groups of them `s2` bytes apart. -/
structure RegSpec where
  base  : Nat
  n1    : Nat
  s1    : Nat
  n2    : Nat
  s2    : Nat
  reset : Nat
  rw    : Nat
  w1c   : Nat
  w1s   : Nat
  reach : Reach
  kind  : EdgeKind
deriving DecidableEq, Repr

/-- Whether an offset names a copy of the register. -/
def RegSpec.covers (r : RegSpec) (off : Nat) : Bool :=
  if off < r.base then false else
  let d := off - r.base
  let inner := d % r.s2
  d / r.s2 < r.n2 && inner % r.s1 == 0 && inner / r.s1 < r.n1

namespace Reg

/-- R4 00_scope.md. -/
abbrev SCAISK_ID : Nat := 0x0000
/-- R46 02_addresses_packets.md. -/
abbrev DIE_ID : Nat := 0x0010
/-- R48 02_addresses_packets.md. -/
abbrev COLMAP_SPARE (i : Nat) : Nat := 0x0100 + 4 * i
/-- R107 03_routing_arbitration.md. -/
abbrev ROUTE_FLAG_STAT : Nat := 0x0000
/-- R107 03_routing_arbitration.md. -/
abbrev ROUTE_FLAG_INFO : Nat := 0x0004
/-- R90 03_routing_arbitration.md. -/
abbrev ONOFF_CFG : Nat := 0x0010
/-- R102 03_routing_arbitration.md. -/
abbrev ARB_PRIO : Nat := 0x0100
/-- R102 03_routing_arbitration.md. -/
abbrev ARB_MARGIN : Nat := 0x0104
/-- R102 03_routing_arbitration.md. -/
abbrev ARB_DLOFF_LO (i : Nat) : Nat := 0x0110 + 8 * i
/-- R102 03_routing_arbitration.md. -/
abbrev ARB_DLOFF_HI (i : Nat) : Nat := 0x0114 + 8 * i
/-- R102 03_routing_arbitration.md. -/
abbrev ARB_COMMIT : Nat := 0x0140
/-- R103 03_routing_arbitration.md. -/
abbrev STARVE_LIMIT : Nat := 0x0144
/-- R103 03_routing_arbitration.md. -/
abbrev STARVE_STAT : Nat := 0x0148
/-- R103 03_routing_arbitration.md. -/
abbrev STARVE_FIRST : Nat := 0x014C
/-- R106 03_routing_arbitration.md. -/
abbrev DISC_BAD_CNT : Nat := 0x0200
/-- R106 03_routing_arbitration.md. -/
abbrev DISC_TURN_CNT : Nat := 0x0204
/-- R106 03_routing_arbitration.md. -/
abbrev DISC_FENCE_CNT : Nat := 0x0208
/-- R106 03_routing_arbitration.md. -/
abbrev DISC_LOSS_CNT : Nat := 0x020C
/-- R108 03_routing_arbitration.md. -/
abbrev UTIL_CNT (i : Nat) : Nat := 0x1F00 + 4 * i
/-- R108 03_routing_arbitration.md. -/
abbrev CMAP_WINDOW_ID : Nat := 0x1F40
/-- R108 03_routing_arbitration.md. -/
abbrev HISTOGRAM (i : Nat) : Nat := 0x2000 + 4 * i
/-- R73 03_routing_arbitration.md. -/
abbrev ROUTE_ENTRY_A (i : Nat) : Nat := 0x4000 + 4 * i
/-- R73 03_routing_arbitration.md. -/
abbrev ROUTE_ENTRY_B (i : Nat) : Nat := 0x6000 + 4 * i
/-- R81 03_routing_arbitration.md. -/
abbrev SPRAY_A (i : Nat) : Nat := 0x7400 + 4 * i
/-- R81 03_routing_arbitration.md. -/
abbrev SPRAY_B (i : Nat) : Nat := 0x7500 + 4 * i
/-- R85 03_routing_arbitration.md. -/
abbrev RELAY_MASK (i : Nat) : Nat := 0x7600 + 4 * i
/-- R93 03_routing_arbitration.md. -/
abbrev DRAIN_CTRL : Nat := 0x0400
/-- R93 03_routing_arbitration.md. -/
abbrev DRAIN_STAT : Nat := 0x0404
/-- R93 03_routing_arbitration.md. -/
abbrev DRAIN_LIMIT : Nat := 0x0408
/-- R93 03_routing_arbitration.md. -/
abbrev ROUTE_SWAP : Nat := 0x040C
/-- R93 03_routing_arbitration.md. -/
abbrev ROUTE_BANK : Nat := 0x0410
/-- R108 03_routing_arbitration.md. -/
abbrev CMAP_CTRL : Nat := 0x0420
/-- R472 15_ports_registers.md. -/
abbrev MP_CFG : Nat := 0x0200
/-- R472 15_ports_registers.md. -/
abbrev MP_STAT : Nat := 0x0204
/-- R472 15_ports_registers.md. -/
abbrev MP_TO_CNT : Nat := 0x0208
/-- R472 15_ports_registers.md. -/
abbrev MP_UE_CNT : Nat := 0x020C
/-- R472 15_ports_registers.md. -/
abbrev MP_LATE_CNT : Nat := 0x0210
/-- R474 15_ports_registers.md. -/
abbrev HP_CFG : Nat := 0x0300
/-- R474 15_ports_registers.md. -/
abbrev HP_STAT : Nat := 0x0304
/-- R474 15_ports_registers.md. -/
abbrev HP_TO_CNT : Nat := 0x0308
/-- R474 15_ports_registers.md. -/
abbrev HP_LATE_CNT : Nat := 0x030C
/-- R142 04_time_stencils.md. -/
abbrev NT_LO : Nat := 0x0800
/-- R142 04_time_stencils.md. -/
abbrev NT_HI : Nat := 0x0804
/-- R142 04_time_stencils.md. -/
abbrev TIME_STAT : Nat := 0x0808
/-- R142 04_time_stencils.md. -/
abbrev TIME_CFG : Nat := 0x080C
/-- R142 04_time_stencils.md. -/
abbrev TIME_INCR_LO : Nat := 0x0810
/-- R142 04_time_stencils.md. -/
abbrev TIME_INCR_HI : Nat := 0x0814
/-- R142 04_time_stencils.md. -/
abbrev TIME_SET_LO : Nat := 0x0818
/-- R142 04_time_stencils.md. -/
abbrev TIME_SET_HI : Nat := 0x081C
/-- R142 04_time_stencils.md. -/
abbrev TIME_PHASE_ERR : Nat := 0x0820
/-- R142 04_time_stencils.md. -/
abbrev TIME_LINK_DELAY : Nat := 0x0824
/-- R142 04_time_stencils.md. -/
abbrev TIME_TRAIN_TEMP : Nat := 0x0828
/-- R142 04_time_stencils.md. -/
abbrev STENCIL_CTRL : Nat := 0x0900
/-- R142 04_time_stencils.md. -/
abbrev STENCIL_BANK : Nat := 0x0904
/-- R142 04_time_stencils.md. -/
abbrev STENCIL_EPOCH_LO : Nat := 0x0908
/-- R142 04_time_stencils.md. -/
abbrev STENCIL_EPOCH_HI : Nat := 0x090C
/-- R142 04_time_stencils.md. -/
abbrev STENCIL_SWITCH_LO : Nat := 0x0910
/-- R142 04_time_stencils.md. -/
abbrev STENCIL_SWITCH_HI : Nat := 0x0914
/-- R142 04_time_stencils.md. -/
abbrev STENCIL_SWITCH_ARM : Nat := 0x0918
/-- R142 04_time_stencils.md. -/
abbrev STENCIL_SEL : Nat := 0x0920
/-- R142 04_time_stencils.md. -/
abbrev STENCIL_DATA_LO : Nat := 0x0924
/-- R142 04_time_stencils.md. -/
abbrev STENCIL_DATA_HI : Nat := 0x0928
/-- R134 04_time_stencils.md. -/
abbrev WASH_OWNER : Nat := 0x0930
/-- R142 04_time_stencils.md. -/
abbrev SCHED_MON_STAT : Nat := 0x0940
/-- R142 04_time_stencils.md. -/
abbrev SCHED_MON_FIRST : Nat := 0x0944
/-- R142 04_time_stencils.md. -/
abbrev SCHED_MON_NT_LO : Nat := 0x0948
/-- R142 04_time_stencils.md. -/
abbrev SCHED_MON_NT_HI : Nat := 0x094C
/-- R142 04_time_stencils.md. -/
abbrev SCHED_CLOSED_CNT : Nat := 0x0950
/-- R142 04_time_stencils.md. -/
abbrev SCHED_OVERRUN_CNT : Nat := 0x0954
/-- R142 04_time_stencils.md. -/
abbrev SCHED_CONTEND_CNT : Nat := 0x0958
/-- R142 04_time_stencils.md. -/
abbrev WAKE_LEAD_A (i : Nat) : Nat := 0x0980 + 8 * i
/-- R142 04_time_stencils.md. -/
abbrev WAKE_LEAD_B (i : Nat) : Nat := 0x0984 + 8 * i
/-- R138 04_time_stencils.md. -/
abbrev DL_BUDGET_LO : Nat := 0x0040
/-- R138 04_time_stencils.md. -/
abbrev DL_BUDGET_HI : Nat := 0x0044
/-- R138 04_time_stencils.md. -/
abbrev E_DL_BUDGET_LO : Nat := 0x0040
/-- R138 04_time_stencils.md. -/
abbrev E_DL_BUDGET_HI : Nat := 0x0044
/-- R146 04_time_stencils.md. -/
abbrev POLICE_SEL : Nat := 0x0100
/-- R146 04_time_stencils.md. -/
abbrev POLICE_CFG : Nat := 0x0104
/-- R146 04_time_stencils.md. -/
abbrev POLICE_LEVEL : Nat := 0x0108
/-- R146 04_time_stencils.md. -/
abbrev POLICE_DROP_CNT : Nat := 0x010C
/-- R428 13_faults_health.md. -/
abbrev FAULT_CTRL : Nat := 0x2000
/-- R428 13_faults_health.md. -/
abbrev FAULT_STAT : Nat := 0x2004
/-- R428 13_faults_health.md. -/
abbrev RECOVERY_CNT : Nat := 0x2008
/-- R428 13_faults_health.md. -/
abbrev ERR_PIN : Nat := 0x200C
/-- R428 13_faults_health.md. -/
abbrev FAULT_IRQ_STAT : Nat := 0x2010
/-- R428 13_faults_health.md. -/
abbrev FAULT_FIRST (i : Nat) : Nat := 0x2020 + 4 * i
/-- R428 13_faults_health.md. -/
abbrev FAULT_LOG_SEL : Nat := 0x2060
/-- R428 13_faults_health.md. -/
abbrev FAULT_LOG_HEAD : Nat := 0x2064
/-- R428 13_faults_health.md. -/
abbrev FAULT_LOG_DATA (i : Nat) : Nat := 0x2080 + 4 * i
/-- R428 13_faults_health.md. -/
abbrev JOB_FAIL (i : Nat) : Nat := 0x20C0 + 4 * i
/-- R415 13_faults_health.md. -/
abbrev RETIRE_CFG (i : Nat) : Nat := 0x2100 + 4 * i
/-- R401 13_faults_health.md. -/
abbrev FAULT_SRC_CFG (i : Nat) : Nat := 0x2400 + 4 * i
/-- R428 13_faults_health.md. -/
abbrev FAULT_SRC_STAT (i : Nat) : Nat := 0x2800 + 4 * i
/-- R428 13_faults_health.md. -/
abbrev FAULT_SRC_CNT (i : Nat) : Nat := 0x2C00 + 4 * i
/-- R428 13_faults_health.md. -/
abbrev WEAR_SEL : Nat := 0x3000
/-- R428 13_faults_health.md. -/
abbrev WEAR_SCORE : Nat := 0x3004
/-- R428 13_faults_health.md. -/
abbrev WEAR_EOL : Nat := 0x3008
/-- R428 13_faults_health.md. -/
abbrev WEAR_EOL_LO : Nat := 0x300C
/-- R428 13_faults_health.md. -/
abbrev WEAR_EOL_HI : Nat := 0x3010
/-- R428 13_faults_health.md. -/
abbrev OPER_HOURS : Nat := 0x3014
/-- R428 13_faults_health.md. -/
abbrev WEAR_CFG : Nat := 0x3018
/-- R428 13_faults_health.md. -/
abbrev WEAR_IND_SEL : Nat := 0x3020
/-- R421 13_faults_health.md. -/
abbrev WEAR_IND_CFG : Nat := 0x3024
/-- R428 13_faults_health.md. -/
abbrev WEAR_HIST_SEL : Nat := 0x3030
/-- R428 13_faults_health.md. -/
abbrev WEAR_HIST_DATA : Nat := 0x3034
/-- R428 13_faults_health.md. -/
abbrev ERR_TEMP_CFG : Nat := 0x3100
/-- R428 13_faults_health.md. -/
abbrev ERR_TAG_SEL : Nat := 0x3104
/-- R428 13_faults_health.md. -/
abbrev ERR_TAG_CNT : Nat := 0x3108
/-- R428 13_faults_health.md. -/
abbrev ERR_ENTRY_SEL : Nat := 0x3110
/-- R428 13_faults_health.md. -/
abbrev ERR_ENTRY_CNT : Nat := 0x3114
/-- R428 13_faults_health.md. -/
abbrev SOAK_CTRL : Nat := 0x3200
/-- R428 13_faults_health.md. -/
abbrev SOAK_TIME : Nat := 0x3204
/-- R428 13_faults_health.md. -/
abbrev SOAK_STAT : Nat := 0x3208
/-- R428 13_faults_health.md. -/
abbrev SOAK_ERR_CNT : Nat := 0x320C
/-- R428 13_faults_health.md. -/
abbrev TP_FENCE : Nat := 0x0320
/-- R152 05_contexts_engines.md. -/
abbrev TP_FLAG_STAT : Nat := 0x0008
/-- R169 05_contexts_engines.md. -/
abbrev NBR (i : Nat) : Nat := 0x0010 + 4 * i
/-- R151 05_contexts_engines.md. -/
abbrev CTX_SEL : Nat := 0x0080
/-- R151 05_contexts_engines.md. -/
abbrev CTX_W0 : Nat := 0x00C0
/-- R151 05_contexts_engines.md. -/
abbrev CTX_W1 : Nat := 0x00C4
/-- R151 05_contexts_engines.md. -/
abbrev CTX_W2 : Nat := 0x00C8
/-- R151 05_contexts_engines.md. -/
abbrev CTX_W3 : Nat := 0x00CC
/-- R151 05_contexts_engines.md. -/
abbrev CTX_W4 : Nat := 0x00D0
/-- R151 05_contexts_engines.md. -/
abbrev CTX_W5 : Nat := 0x00D4
/-- R151 05_contexts_engines.md. -/
abbrev CTX_W6 : Nat := 0x00D8
/-- R151 05_contexts_engines.md. -/
abbrev CTX_W7 : Nat := 0x00DC
/-- R151 05_contexts_engines.md. -/
abbrev CTX_W8 : Nat := 0x00E0
/-- R151 05_contexts_engines.md. -/
abbrev CTX_W9 : Nat := 0x00E4
/-- R151 05_contexts_engines.md. -/
abbrev CTX_W10 : Nat := 0x00E8
/-- R151 05_contexts_engines.md. -/
abbrev CTX_W11 : Nat := 0x00EC
/-- R151 05_contexts_engines.md. -/
abbrev CTX_W12 : Nat := 0x00F0
/-- R151 05_contexts_engines.md. -/
abbrev CTX_W13 : Nat := 0x00F4
/-- R151 05_contexts_engines.md. -/
abbrev CTX_W14 : Nat := 0x00F8
/-- R151 05_contexts_engines.md. -/
abbrev CTX_W15 : Nat := 0x00FC
/-- R183 05_contexts_engines.md. -/
abbrev PREEMPT_CTRL : Nat := 0x0100
/-- R183 05_contexts_engines.md. -/
abbrev PREEMPT_STAT : Nat := 0x0104
/-- R181 05_contexts_engines.md. -/
abbrev XLATE_INV : Nat := 0x0110
/-- R181 05_contexts_engines.md. -/
abbrev XLATE_INV_VA_LO : Nat := 0x0114
/-- R181 05_contexts_engines.md. -/
abbrev XLATE_INV_VA_HI : Nat := 0x0118
/-- R181 05_contexts_engines.md. -/
abbrev XLATE_INV_STAT : Nat := 0x011C
/-- R187 05_contexts_engines.md. -/
abbrev SCRUB_CTRL : Nat := 0x0120
/-- R187 05_contexts_engines.md. -/
abbrev SCRUB_STAT : Nat := 0x0124
/-- R171 05_contexts_engines.md. -/
abbrev LATE_START_CNT : Nat := 0x0140
/-- R172 05_contexts_engines.md. -/
abbrev TRIG_MISS_CNT : Nat := 0x0144
/-- R156 05_contexts_engines.md. -/
abbrev SQ_CFG (i j : Nat) : Nat := 0x0800 + 64 * i + 16 * j
/-- R156 05_contexts_engines.md. -/
abbrev SQ_TAIL (i j : Nat) : Nat := 0x0804 + 64 * i + 16 * j
/-- R156 05_contexts_engines.md. -/
abbrev SQ_HEAD (i j : Nat) : Nat := 0x0808 + 64 * i + 16 * j
/-- R156 05_contexts_engines.md. -/
abbrev SQ_CTRL (i j : Nat) : Nat := 0x080C + 64 * i + 16 * j
/-- R177 05_contexts_engines.md. -/
abbrev CTR (i j : Nat) : Nat := 0x2000 + 256 * i + 4 * j
/-- R177 05_contexts_engines.md. -/
abbrev CTR_ERR_LO (i : Nat) : Nat := 0x6000 + 8 * i
/-- R177 05_contexts_engines.md. -/
abbrev CTR_ERR_HI (i : Nat) : Nat := 0x6004 + 8 * i
/-- R153 05_contexts_engines.md. -/
abbrev CTX_JOB (i : Nat) : Nat := 0x4000 + 4 * i
/-- R201 06_trays_messages.md. -/
abbrev TRAY_APERTURE : Nat := 0x0200
/-- R201 06_trays_messages.md. -/
abbrev TRAY_BANK_CTRL : Nat := 0x0204
/-- R201 06_trays_messages.md. -/
abbrev TRAY_BANK_STAT : Nat := 0x0208
/-- R201 06_trays_messages.md. -/
abbrev TRAY_STARVE_LIMIT : Nat := 0x020C
/-- R201 06_trays_messages.md. -/
abbrev TRAY_STARVE_STAT : Nat := 0x0210
/-- R201 06_trays_messages.md. -/
abbrev TRAY_CE_CNT : Nat := 0x0214
/-- R201 06_trays_messages.md. -/
abbrev TRAY_UE_CNT : Nat := 0x0218
/-- R201 06_trays_messages.md. -/
abbrev TRAY_UE_INFO : Nat := 0x021C
/-- R201 06_trays_messages.md. -/
abbrev TRAY_REPAIR (i j : Nat) : Nat := 0x0220 + 8 * i + 4 * j
/-- R201 06_trays_messages.md. -/
abbrev RING_STALL_LIMIT : Nat := 0x02A0
/-- R202 06_trays_messages.md. -/
abbrev RING_CFG (i : Nat) : Nat := 0x1800 + 32 * i
/-- R202 06_trays_messages.md. -/
abbrev RING_STAT_OFF (i : Nat) : Nat := 0x1804 + 32 * i
/-- R202 06_trays_messages.md. -/
abbrev RING_WPOS (i : Nat) : Nat := 0x1808 + 32 * i
/-- R202 06_trays_messages.md. -/
abbrev RING_CPOS (i : Nat) : Nat := 0x180C + 32 * i
/-- R202 06_trays_messages.md. -/
abbrev RING_HEAD (i : Nat) : Nat := 0x1810 + 32 * i
/-- R202 06_trays_messages.md. -/
abbrev RING_RSVD (i j : Nat) : Nat := 0x1814 + 32 * i + 4 * j
/-- R209 06_trays_messages.md. -/
abbrev WELL_CFG (i : Nat) : Nat := 0x6400 + 16 * i
/-- R209 06_trays_messages.md. -/
abbrev WELL_BASE (i : Nat) : Nat := 0x6404 + 16 * i
/-- R209 06_trays_messages.md. -/
abbrev WELL_RSVD (i j : Nat) : Nat := 0x6408 + 16 * i + 4 * j
/-- R227 07_reduction_arithmetic.md. -/
abbrev AGENT_SAT_CNT : Nat := 0x0300
/-- R227 07_reduction_arithmetic.md. -/
abbrev AGENT_NAN_CNT : Nat := 0x0304
/-- R241 07_reduction_arithmetic.md. -/
abbrev RED_SEL : Nat := 0x0C00
/-- R241 07_reduction_arithmetic.md. -/
abbrev RED_TREE : Nat := 0x0C04
/-- R241 07_reduction_arithmetic.md. -/
abbrev RED_TREE_SIG : Nat := 0x0C08
/-- R243 08_collectives.md. -/
abbrev COLL_SEL : Nat := 0x1000
/-- R243 08_collectives.md. -/
abbrev COLL_ARM_ID : Nat := 0x1004
/-- R243 08_collectives.md. -/
abbrev COLL_ARM_TREE : Nat := 0x1008
/-- R243 08_collectives.md. -/
abbrev COLL_ARM_CTX : Nat := 0x100C
/-- R243 08_collectives.md. -/
abbrev COLL_ARM_CTRL : Nat := 0x1010
/-- R243 08_collectives.md. -/
abbrev COLL_ARM_STAT : Nat := 0x1014
/-- R255 08_collectives.md. -/
abbrev COLL_ABORT_ID : Nat := 0x1020
/-- R255 08_collectives.md. -/
abbrev COLL_ABORT_CTRL : Nat := 0x1024
/-- R262 08_collectives.md. -/
abbrev BAR_WAVE : Nat := 0x1040
/-- R262 08_collectives.md. -/
abbrev BAR_TIMING : Nat := 0x1044
/-- R261 08_collectives.md. -/
abbrev BAR_SEL : Nat := 0x1050
/-- R261 08_collectives.md. -/
abbrev BAR_ENT_LO : Nat := 0x1054
/-- R261 08_collectives.md. -/
abbrev BAR_ENT_HI : Nat := 0x1058
/-- R261 08_collectives.md. -/
abbrev BAR_COUNT : Nat := 0x105C
/-- R261 08_collectives.md. -/
abbrev BAR_LATE_CNT : Nat := 0x1060
/-- R258 08_collectives.md. -/
abbrev WASH_SEL : Nat := 0x1080
/-- R258 08_collectives.md. -/
abbrev WASH_LAND : Nat := 0x1084
/-- R258 08_collectives.md. -/
abbrev WASH_LOSS_CNT : Nat := 0x1088
/-- R320 10_spine_role.md. -/
abbrev BYP_SEL : Nat := 0x1100
/-- R320 10_spine_role.md. -/
abbrev BYP_MAP : Nat := 0x1104
/-- R301 09_spine_ports.md. -/
abbrev SP_CTRL : Nat := 0x0400
/-- R301 09_spine_ports.md. -/
abbrev SP_PMA_LAT : Nat := 0x0404
/-- R301 09_spine_ports.md. -/
abbrev SP_LINK_CFG : Nat := 0x0408
/-- R301 09_spine_ports.md. -/
abbrev SP_LANE_CFG : Nat := 0x040C
/-- R301 09_spine_ports.md. -/
abbrev SP_FLAG_STAT : Nat := 0x0410
/-- R301 09_spine_ports.md. -/
abbrev SP_DISC_CNT : Nat := 0x0414
/-- R301 09_spine_ports.md. -/
abbrev ING_CLASS (i : Nat) : Nat := 0x0420 + 4 * i
/-- R302 09_spine_ports.md. -/
abbrev SP_PORT_STAT (i : Nat) : Nat := 0x0440 + 32 * i
/-- R302 09_spine_ports.md. -/
abbrev SP_PARTNER (i : Nat) : Nat := 0x0444 + 32 * i
/-- R302 09_spine_ports.md. -/
abbrev SP_PARTNER_EXP (i : Nat) : Nat := 0x0448 + 32 * i
/-- R302 09_spine_ports.md. -/
abbrev SP_LOOP (i : Nat) : Nat := 0x044C + 32 * i
/-- R302 09_spine_ports.md. -/
abbrev SP_CW_CE_CNT (i : Nat) : Nat := 0x0450 + 32 * i
/-- R302 09_spine_ports.md. -/
abbrev SP_CW_UE_CNT (i : Nat) : Nat := 0x0454 + 32 * i
/-- R302 09_spine_ports.md. -/
abbrev SP_REPLAY_CNT (i : Nat) : Nat := 0x0458 + 32 * i
/-- R302 09_spine_ports.md. -/
abbrev SP_RETRAIN_CNT (i : Nat) : Nat := 0x045C + 32 * i
/-- R304 09_spine_ports.md. -/
abbrev SP_PEER_CTRL : Nat := 0x0580
/-- R304 09_spine_ports.md. -/
abbrev SP_PEER_ADDR : Nat := 0x0584
/-- R304 09_spine_ports.md. -/
abbrev SP_PEER_DATA : Nat := 0x0588
/-- R304 09_spine_ports.md. -/
abbrev SP_PEER_STAT : Nat := 0x058C
/-- R303 09_spine_ports.md. -/
abbrev LANE_STAT (i : Nat) : Nat := 0x0600 + 16 * i
/-- R303 09_spine_ports.md. -/
abbrev LANE_SYM_CNT (i : Nat) : Nat := 0x0604 + 16 * i
/-- R303 09_spine_ports.md. -/
abbrev LANE_RXP (i : Nat) : Nat := 0x0608 + 16 * i
/-- R303 09_spine_ports.md. -/
abbrev LANE_BIAS (i : Nat) : Nat := 0x060C + 16 * i
/-- R303 09_spine_ports.md. -/
abbrev OE_STAT : Nat := 0x0700
/-- R303 09_spine_ports.md. -/
abbrev OE_CFG : Nat := 0x0704
/-- R303 09_spine_ports.md. -/
abbrev OE_CFG2 : Nat := 0x0708
/-- R325 10_spine_role.md. -/
abbrev SP_CIRC_CFG : Nat := 0x0800
/-- R325 10_spine_role.md. -/
abbrev SP_CIRC_CFG2 : Nat := 0x0804
/-- R325 10_spine_role.md. -/
abbrev SP_CIRC_STAT : Nat := 0x0808
/-- R325 10_spine_role.md. -/
abbrev SP_CIRC_MISS_CNT : Nat := 0x080C
/-- R325 10_spine_role.md. -/
abbrev SP_CIRC_CUT_CNT : Nat := 0x0810
/-- R314 10_spine_role.md. -/
abbrev SP_STALE_CFG : Nat := 0x0814
/-- R314 10_spine_role.md. -/
abbrev SP_STALE_CNT : Nat := 0x0818
/-- R325 10_spine_role.md. -/
abbrev SP_CIRC_EXP (i : Nat) : Nat := 0x0840 + 16 * i
/-- R325 10_spine_role.md. -/
abbrev SP_CIRC_AGR (i : Nat) : Nat := 0x0844 + 16 * i
/-- R325 10_spine_role.md. -/
abbrev SP_CIRC_D (i : Nat) : Nat := 0x0848 + 16 * i
/-- R312 10_spine_role.md. -/
abbrev EGRESS_PORT_A (i : Nat) : Nat := 0x1000 + 4 * i
/-- R312 10_spine_role.md. -/
abbrev EGRESS_PORT_B (i : Nat) : Nat := 0x1400 + 4 * i
/-- R327 10_spine_role.md. -/
abbrev POLICE_PDROP_CNT : Nat := 0x0110
/-- R327 10_spine_role.md. -/
abbrev POLICE_MAP_SEL : Nat := 0x0114
/-- R327 10_spine_role.md. -/
abbrev POLICE_MAP : Nat := 0x0118
/-- R364 11_bringup_canvas.md. -/
abbrev BRINGUP_STAT : Nat := 0x1400
/-- R364 11_bringup_canvas.md. -/
abbrev BRINGUP_PROG : Nat := 0x1404
/-- R364 11_bringup_canvas.md. -/
abbrev LOAD_ERR_A : Nat := 0x1408
/-- R364 11_bringup_canvas.md. -/
abbrev LOAD_ERR_B : Nat := 0x140C
/-- R364 11_bringup_canvas.md. -/
abbrev BRINGUP_CTRL : Nat := 0x1410
/-- R364 11_bringup_canvas.md. -/
abbrev CANVAS_ID : Nat := 0x1414
/-- R364 11_bringup_canvas.md. -/
abbrev XSPI_STAT : Nat := 0x1418
/-- R364 11_bringup_canvas.md. -/
abbrev GLAZE_SWITCH_MASK : Nat := 0x1420
/-- R364 11_bringup_canvas.md. -/
abbrev GLAZE_SWITCH_CTRL : Nat := 0x1424
/-- R364 11_bringup_canvas.md. -/
abbrev GLAZE_SWITCH_STAT : Nat := 0x1428
/-- R364 11_bringup_canvas.md. -/
abbrev BRINGUP_NT_LO (i : Nat) : Nat := 0x1480 + 8 * i
/-- R364 11_bringup_canvas.md. -/
abbrev BRINGUP_NT_HI (i : Nat) : Nat := 0x1484 + 8 * i
/-- R393 12_power_clocks.md. -/
abbrev CLK_STAT : Nat := 0x1800
/-- R393 12_power_clocks.md. -/
abbrev POWER_CAP : Nat := 0x1810
/-- R393 12_power_clocks.md. -/
abbrev POWER_CTRL : Nat := 0x1814
/-- R393 12_power_clocks.md. -/
abbrev POWER_STAT : Nat := 0x1818
/-- R393 12_power_clocks.md. -/
abbrev DOM_LIMIT (i : Nat) : Nat := 0x1820 + 8 * i
/-- R393 12_power_clocks.md. -/
abbrev DOM_STAT (i : Nat) : Nat := 0x1824 + 8 * i
/-- R393 12_power_clocks.md. -/
abbrev RAIL_CFG (i : Nat) : Nat := 0x1840 + 8 * i
/-- R393 12_power_clocks.md. -/
abbrev RAIL_STAT (i : Nat) : Nat := 0x1844 + 8 * i
/-- R393 12_power_clocks.md. -/
abbrev RAIL_MAP (i : Nat) : Nat := 0x1880 + 4 * i
/-- R393 12_power_clocks.md. -/
abbrev RAIL_EDGE : Nat := 0x18A0
/-- R393 12_power_clocks.md. -/
abbrev RAIL_LEAK : Nat := 0x18A4
/-- R393 12_power_clocks.md. -/
abbrev THERM_CFG : Nat := 0x18B0
/-- R393 12_power_clocks.md. -/
abbrev DROOP_CFG : Nat := 0x18B4
/-- R393 12_power_clocks.md. -/
abbrev PWR_COORD : Nat := 0x18C0
/-- R393 12_power_clocks.md. -/
abbrev PWR_GROUP_CFG : Nat := 0x18C4
/-- R393 12_power_clocks.md. -/
abbrev PWR_SHIFT_CFG : Nat := 0x18C8
/-- R393 12_power_clocks.md. -/
abbrev PWR_SLACK_CFG : Nat := 0x18CC
/-- R393 12_power_clocks.md. -/
abbrev PWR_BAR_MASK (i : Nat) : Nat := 0x18D0 + 4 * i
/-- R393 12_power_clocks.md. -/
abbrev PWR_SHIFT : Nat := 0x18D8
/-- R393 12_power_clocks.md. -/
abbrev PWR_GROUP_RESET_CNT : Nat := 0x18DC
/-- R393 12_power_clocks.md. -/
abbrev JOB_E_SEL : Nat := 0x1900
/-- R393 12_power_clocks.md. -/
abbrev JOB_E_LO : Nat := 0x1904
/-- R393 12_power_clocks.md. -/
abbrev JOB_E_HI : Nat := 0x1908
/-- R393 12_power_clocks.md. -/
abbrev JOB_E_CTRL : Nat := 0x190C
/-- R393 12_power_clocks.md. -/
abbrev DIE_E_UNATTR_LO : Nat := 0x1910
/-- R393 12_power_clocks.md. -/
abbrev DIE_E_UNATTR_HI : Nat := 0x1914
/-- R393 12_power_clocks.md. -/
abbrev ENERGY_MODEL : Nat := 0x1920
/-- R393 12_power_clocks.md. -/
abbrev ENERGY_MODEL2 : Nat := 0x1924
/-- R393 12_power_clocks.md. -/
abbrev COOLANT_STAT : Nat := 0x1930
/-- R393 12_power_clocks.md. -/
abbrev COOLANT_NT_LO : Nat := 0x1934
/-- R393 12_power_clocks.md. -/
abbrev COOLANT_NT_HI : Nat := 0x1938
/-- R393 12_power_clocks.md. -/
abbrev PANEL_CFG (i : Nat) : Nat := 0x1A00 + 16 * i
/-- R393 12_power_clocks.md. -/
abbrev PANEL_STAT (i : Nat) : Nat := 0x1A04 + 16 * i
/-- R393 12_power_clocks.md. -/
abbrev PANEL_WAKE_CNT (i : Nat) : Nat := 0x1A08 + 16 * i
/-- R393 12_power_clocks.md. -/
abbrev PANEL_STRETCH_CNT (i : Nat) : Nat := 0x1A0C + 16 * i
/-- R394 12_power_clocks.md. -/
abbrev TILE_BUDGET : Nat := 0x0310
/-- R394 12_power_clocks.md. -/
abbrev TILE_POWER : Nat := 0x0314
/-- R391 12_power_clocks.md. -/
abbrev ENERGY_LO (i : Nat) : Nat := 0x6200 + 8 * i
/-- R391 12_power_clocks.md. -/
abbrev ENERGY_HI (i : Nat) : Nat := 0x6204 + 8 * i
/-- R432 14_observability.md. -/
abbrev ENG_BUSY_LO (i : Nat) : Nat := 0x6800 + 64 * i
/-- R432 14_observability.md. -/
abbrev ENG_BUSY_HI (i : Nat) : Nat := 0x6804 + 64 * i
/-- R432 14_observability.md. -/
abbrev ENG_STALL_LO (i : Nat) : Nat := 0x6808 + 64 * i
/-- R432 14_observability.md. -/
abbrev ENG_STALL_HI (i : Nat) : Nat := 0x680C + 64 * i
/-- R432 14_observability.md. -/
abbrev ENG_IDLE_LO (i : Nat) : Nat := 0x6810 + 64 * i
/-- R432 14_observability.md. -/
abbrev ENG_IDLE_HI (i : Nat) : Nat := 0x6814 + 64 * i
/-- R432 14_observability.md. -/
abbrev ENG_RSN_CNT (i : Nat) : Nat := 0x6818 + 64 * i
/-- R432 14_observability.md. -/
abbrev ENG_STAT (i : Nat) : Nat := 0x681C + 64 * i
/-- R432 14_observability.md. -/
abbrev TP_SLEEP_LO : Nat := 0x6900
/-- R432 14_observability.md. -/
abbrev TP_SLEEP_HI : Nat := 0x6904
/-- R432 14_observability.md. -/
abbrev TP_SNAP : Nat := 0x6908
/-- R433 14_observability.md. -/
abbrev SLOT_BUSY (i : Nat) : Nat := 0x6A00 + 8 * i
/-- R433 14_observability.md. -/
abbrev SLOT_STALL (i : Nat) : Nat := 0x6A04 + 8 * i
/-- R440 14_observability.md. -/
abbrev SW_CTRL (i : Nat) : Nat := 0x6C00 + 64 * i
/-- R440 14_observability.md. -/
abbrev SW_BASE (i : Nat) : Nat := 0x6C04 + 64 * i
/-- R440 14_observability.md. -/
abbrev SW_LEN (i : Nat) : Nat := 0x6C08 + 64 * i
/-- R440 14_observability.md. -/
abbrev SW_STAT (i : Nat) : Nat := 0x6C0C + 64 * i
/-- R440 14_observability.md. -/
abbrev SW_WORDS (i : Nat) : Nat := 0x6C10 + 64 * i
/-- R440 14_observability.md. -/
abbrev SW_COUNT (i : Nat) : Nat := 0x6C14 + 64 * i
/-- R440 14_observability.md. -/
abbrev SW_NAN (i : Nat) : Nat := 0x6C18 + 64 * i
/-- R440 14_observability.md. -/
abbrev SW_INF (i : Nat) : Nat := 0x6C1C + 64 * i
/-- R440 14_observability.md. -/
abbrev SW_ZERO (i : Nat) : Nat := 0x6C20 + 64 * i
/-- R440 14_observability.md. -/
abbrev SW_MIN (i : Nat) : Nat := 0x6C24 + 64 * i
/-- R440 14_observability.md. -/
abbrev SW_MAX (i : Nat) : Nat := 0x6C28 + 64 * i
/-- R440 14_observability.md. -/
abbrev SW_DIG_LO (i : Nat) : Nat := 0x6C2C + 64 * i
/-- R440 14_observability.md. -/
abbrev SW_DIG_HI (i : Nat) : Nat := 0x6C30 + 64 * i
/-- R440 14_observability.md. -/
abbrev SW_SUM_LO (i : Nat) : Nat := 0x6C34 + 64 * i
/-- R440 14_observability.md. -/
abbrev SW_SUM_HI (i : Nat) : Nat := 0x6C38 + 64 * i
/-- R440 14_observability.md. -/
abbrev SW_REF_LO (i : Nat) : Nat := 0x6D00 + 8 * i
/-- R440 14_observability.md. -/
abbrev SW_REF_HI (i : Nat) : Nat := 0x6D04 + 8 * i
/-- R440 14_observability.md. -/
abbrev SW_SUMABS_LO (i : Nat) : Nat := 0x6D20 + 8 * i
/-- R440 14_observability.md. -/
abbrev SW_SUMABS_HI (i : Nat) : Nat := 0x6D24 + 8 * i
/-- R450 14_observability.md. -/
abbrev TRACE_CTRL : Nat := 0x8000
/-- R450 14_observability.md. -/
abbrev TRACE_STAT : Nat := 0x8004
/-- R450 14_observability.md. -/
abbrev TRACE_POST : Nat := 0x8008
/-- R450 14_observability.md. -/
abbrev TRACE_SYNC : Nat := 0x800C
/-- R450 14_observability.md. -/
abbrev TRACE_INSN_EN : Nat := 0x8010
/-- R450 14_observability.md. -/
abbrev TRACE_EVT_EN : Nat := 0x8014
/-- R450 14_observability.md. -/
abbrev TRACE_MARK : Nat := 0x8018
/-- R450 14_observability.md. -/
abbrev TRACE_LOST_CNT : Nat := 0x801C
/-- R450 14_observability.md. -/
abbrev TRIG_CFG (i : Nat) : Nat := 0x8020 + 16 * i
/-- R450 14_observability.md. -/
abbrev TRIG_ARG (i : Nat) : Nat := 0x8024 + 16 * i
/-- R450 14_observability.md. -/
abbrev TRIG_NT_LO (i : Nat) : Nat := 0x8028 + 16 * i
/-- R450 14_observability.md. -/
abbrev TRIG_NT_HI (i : Nat) : Nat := 0x802C + 16 * i
/-- R450 14_observability.md. -/
abbrev PROBE_CFG (i : Nat) : Nat := 0x8060 + 16 * i
/-- R450 14_observability.md. -/
abbrev PROBE_MATCH (i : Nat) : Nat := 0x8064 + 16 * i
/-- R450 14_observability.md. -/
abbrev PROBE_HIT_CNT (i : Nat) : Nat := 0x8068 + 16 * i
/-- R450 14_observability.md. -/
abbrev TRACE_RD_SEL : Nat := 0x8100
/-- R450 14_observability.md. -/
abbrev TRACE_RD_DATA (i : Nat) : Nat := 0x8104 + 4 * i
/-- R436 14_observability.md. -/
abbrev CMAP_STAT : Nat := 0x8200
/-- R436 14_observability.md. -/
abbrev CMAP_LAST : Nat := 0x8204
/-- R175 05_contexts_engines.md. -/
abbrev STATUS_STEP : Nat := 0x0130
/-- R241 07_reduction_arithmetic.md. -/
abbrev RED_CFG : Nat := 0x0C0C
/-- R241 07_reduction_arithmetic.md. -/
abbrev RED_STAT : Nat := 0x0C10
/-- R241 07_reduction_arithmetic.md. -/
abbrev RED_FLUSH_CNT : Nat := 0x0C14
/-- R241 07_reduction_arithmetic.md. -/
abbrev RED_OVF_CNT : Nat := 0x0C18
/-- R241 07_reduction_arithmetic.md. -/
abbrev RED_MISMATCH_SIG : Nat := 0x0C1C
/-- R241 07_reduction_arithmetic.md: entry RED_SEL.INDEX of the reducer at RED_SEL. -/
abbrev W_RED_TREE (i : Nat) : Nat := 0x0000 + 4 * i
/-- R241 07_reduction_arithmetic.md: signature of entry RED_SEL.INDEX. -/
abbrev W_RED_SIG (i : Nat) : Nat := 0x0100 + 4 * i
/-- R261 08_collectives.md: barrier entry BAR_SEL.INDEX. -/
abbrev W_BAR_LO (i : Nat) : Nat := 0x0200 + 4 * i
/-- R261 08_collectives.md: barrier entry BAR_SEL.INDEX. -/
abbrev W_BAR_HI (i : Nat) : Nat := 0x0300 + 4 * i
/-- R261 08_collectives.md: barrier entry BAR_SEL.INDEX. -/
abbrev W_BAR_COUNT (i : Nat) : Nat := 0x0400 + 4 * i
/-- R258 08_collectives.md: landing WASH_SEL.INDEX. -/
abbrev W_WASH_LAND (i : Nat) : Nat := 0x0500 + 4 * i
/-- R258 08_collectives.md: drop tap at WASH_SEL. -/
abbrev W_WASH_LOSS : Nat := 0x0540
/-- R261 08_collectives.md: combiner at BAR_SEL. -/
abbrev W_BAR_LATE : Nat := 0x0544
/-- R241 07_reduction_arithmetic.md: reducer at RED_SEL. -/
abbrev W_RED_CFG : Nat := 0x0550
/-- R241 07_reduction_arithmetic.md: reducer at RED_SEL. -/
abbrev W_RED_STAT : Nat := 0x0554
/-- R241 07_reduction_arithmetic.md: reducer at RED_SEL. -/
abbrev W_RED_FLUSH : Nat := 0x0558
/-- R241 07_reduction_arithmetic.md: reducer at RED_SEL. -/
abbrev W_RED_OVF : Nat := 0x055C
/-- R241 07_reduction_arithmetic.md: reducer at RED_SEL. -/
abbrev W_RED_MSIG : Nat := 0x0560
/-- R320 10_spine_role.md: map BYP_SEL.INDEX of bank BYP_SEL.BANK. -/
abbrev W_BYP_MAP (i j : Nat) : Nat := 0x0800 + 4 * i + 256 * j
/-- R151 05_contexts_engines.md: word w of the record of slot CTX_SEL. -/
abbrev W_CTX (i j : Nat) : Nat := 0x1000 + 4 * i + 64 * j

end Reg

/-- Region 0x00: the router, its reducer and its tables, part 1. -/
def routerRegs1 : List RegSpec := [
  /- ROUTE_FLAG_STAT -/ ⟨0x0000, 1, 4, 1, 65536, 0x0, 0x0, 0x3, 0x0, .supervisor, .any⟩,
  /- ROUTE_FLAG_INFO -/ ⟨0x0004, 1, 4, 1, 65536, 0x0, 0x0, 0x0, 0x0, .supervisor, .any⟩,
  /- ONOFF_CFG -/ ⟨0x0010, 1, 4, 1, 65536, 0x64, 0xFF, 0x0, 0x0, .supervisor, .any⟩,
  /- ARB_PRIO -/ ⟨0x0100, 1, 4, 1, 65536, 0x3E754, 0x3FFFF, 0x0, 0x0, .supervisor, .any⟩,
  /- ARB_MARGIN -/ ⟨0x0104, 1, 4, 1, 65536, 0x3F0004, 0x3F00FF, 0x0, 0x0, .supervisor, .any⟩,
  /- ARB_DLOFF_LO -/ ⟨0x0110, 6, 8, 1, 65536, 0x0, 0xFFFFFFFF, 0x0, 0x0, .supervisor, .any⟩,
  /- ARB_DLOFF_HI -/ ⟨0x0114, 6, 8, 1, 65536, 0x0, 0xFFFFFFFF, 0x0, 0x0, .supervisor, .any⟩,
  /- ARB_COMMIT -/ ⟨0x0140, 1, 4, 1, 65536, 0x0, 0x0, 0x0, 0x0, .supervisor, .any⟩,
  /- STARVE_LIMIT -/ ⟨0x0144, 1, 4, 1, 65536, 0x100, 0xFFFF, 0x0, 0x0, .supervisor, .any⟩,
  /- STARVE_STAT -/ ⟨0x0148, 1, 4, 1, 65536, 0x0, 0x0, 0x3F3FFF, 0x0, .supervisor, .any⟩,
  /- STARVE_FIRST -/ ⟨0x014C, 1, 4, 1, 65536, 0x0, 0x0, 0x0, 0x0, .supervisor, .any⟩,
  /- DISC_BAD_CNT -/ ⟨0x0200, 1, 4, 1, 65536, 0x0, 0xFFFFFFFF, 0x0, 0x0, .supervisor, .any⟩,
  /- DISC_TURN_CNT -/ ⟨0x0204, 1, 4, 1, 65536, 0x0, 0xFFFFFFFF, 0x0, 0x0, .supervisor, .any⟩,
  /- DISC_FENCE_CNT -/ ⟨0x0208, 1, 4, 1, 65536, 0x0, 0xFFFFFFFF, 0x0, 0x0, .supervisor, .any⟩,
  /- DISC_LOSS_CNT -/ ⟨0x020C, 1, 4, 1, 65536, 0x0, 0xFFFFFFFF, 0x0, 0x0, .supervisor, .any⟩,
  /- UTIL_CNT -/ ⟨0x1F00, 14, 4, 1, 65536, 0x0, 0x0, 0x0, 0x0, .supervisor, .any⟩,
  /- CMAP_WINDOW_ID -/ ⟨0x1F40, 1, 4, 1, 65536, 0x0, 0x0, 0x0, 0x0, .supervisor, .any⟩,
  /- HISTOGRAM -/ ⟨0x2000, 336, 4, 1, 65536, 0x0, 0x0, 0x0, 0x0, .supervisor, .any⟩,
  /- ROUTE_ENTRY_A -/ ⟨0x4000, 1216, 4, 1, 65536, 0x0, 0x1FFFF, 0x0, 0x0, .supervisor, .any⟩,
  /- ROUTE_ENTRY_B -/ ⟨0x6000, 1216, 4, 1, 65536, 0x0, 0x1FFFF, 0x0, 0x0, .supervisor, .any⟩,
  /- SPRAY_A -/ ⟨0x7400, 64, 4, 1, 65536, 0x0, 0xFFFFFFFF, 0x0, 0x0, .supervisor, .any⟩,
  /- SPRAY_B -/ ⟨0x7500, 64, 4, 1, 65536, 0x0, 0xFFFFFFFF, 0x0, 0x0, .supervisor, .any⟩,
  /- RELAY_MASK -/ ⟨0x7600, 16, 4, 1, 65536, 0x0, 0xFFFFFFFF, 0x0, 0x0, .supervisor, .any⟩]
/-- Region 0x00: the router, its reducer and its tables. -/
def routerRegs : List RegSpec := routerRegs1
/-- Region 0x01: the tile port, part 1. -/
def tileRegs1 : List RegSpec := [
  /- DL_BUDGET_LO -/ ⟨0x0040, 1, 4, 1, 65536, 0x10084010, 0xFFFFFFFF, 0x0, 0x0, .supervisor, .any⟩,
  /- DL_BUDGET_HI -/ ⟨0x0044, 1, 4, 1, 65536, 0x204, 0xFFFF, 0x0, 0x0, .supervisor, .any⟩,
  /- TP_FENCE -/ ⟨0x0320, 1, 4, 1, 65536, 0x0, 0x0, 0x0, 0x80000000, .supervisor, .any⟩,
  /- TP_FLAG_STAT -/ ⟨0x0008, 1, 4, 1, 65536, 0x0, 0x0, 0x7, 0x0, .supervisor, .any⟩,
  /- NBR -/ ⟨0x0010, 4, 4, 1, 65536, 0x0, 0x0, 0x0, 0x0, .supervisor, .any⟩,
  /- CTX_SEL -/ ⟨0x0080, 1, 4, 1, 65536, 0x0, 0x3F, 0x0, 0x0, .supervisor, .any⟩,
  /- CTX_W0 -/ ⟨0x00C0, 1, 4, 1, 65536, 0x0, 0xFF800FFF, 0x0, 0x0, .supervisor, .any⟩,
  /- CTX_W1 -/ ⟨0x00C4, 1, 4, 1, 65536, 0x0, 0xFFFFFF, 0x0, 0x0, .supervisor, .any⟩,
  /- CTX_W2 -/ ⟨0x00C8, 1, 4, 1, 65536, 0x0, 0x1FF01FF, 0x0, 0x0, .supervisor, .any⟩,
  /- CTX_W3 -/ ⟨0x00CC, 1, 4, 1, 65536, 0x0, 0xFFF, 0x0, 0x0, .supervisor, .any⟩,
  /- CTX_W4 -/ ⟨0x00D0, 1, 4, 1, 65536, 0x0, 0xFFFFF1F1, 0x0, 0x0, .supervisor, .any⟩,
  /- CTX_W5 -/ ⟨0x00D4, 1, 4, 1, 65536, 0x0, 0xFFFF, 0x0, 0x0, .supervisor, .any⟩,
  /- CTX_W6 -/ ⟨0x00D8, 1, 4, 1, 65536, 0x0, 0x3FF0FFF, 0x0, 0x0, .supervisor, .any⟩,
  /- CTX_W7 -/ ⟨0x00DC, 1, 4, 1, 65536, 0x0, 0xFFFFFF, 0x80000000, 0x0, .supervisor, .any⟩,
  /- CTX_W8 -/ ⟨0x00E0, 1, 4, 1, 65536, 0x0, 0xFFFFFFFF, 0x0, 0x0, .supervisor, .any⟩,
  /- CTX_W9 -/ ⟨0x00E4, 1, 4, 1, 65536, 0x0, 0xFFFFFFFF, 0x0, 0x0, .supervisor, .any⟩,
  /- CTX_W10 -/ ⟨0x00E8, 1, 4, 1, 65536, 0x0, 0x0, 0x0, 0x0, .supervisor, .any⟩,
  /- CTX_W11 -/ ⟨0x00EC, 1, 4, 1, 65536, 0x0, 0x0, 0x0, 0x0, .supervisor, .any⟩,
  /- CTX_W12 -/ ⟨0x00F0, 1, 4, 1, 65536, 0x0, 0x0, 0x0, 0x0, .supervisor, .any⟩,
  /- CTX_W13 -/ ⟨0x00F4, 1, 4, 1, 65536, 0x0, 0xFFFFFFFF, 0x0, 0x0, .supervisor, .any⟩,
  /- CTX_W14 -/ ⟨0x00F8, 1, 4, 1, 65536, 0x0, 0x0, 0x0, 0x0, .supervisor, .any⟩,
  /- CTX_W15 -/ ⟨0x00FC, 1, 4, 1, 65536, 0x0, 0x0, 0x0, 0x0, .supervisor, .any⟩,
  /- PREEMPT_CTRL -/ ⟨0x0100, 1, 4, 1, 65536, 0x0, 0x3F, 0x0, 0xC0000000, .supervisor, .any⟩,
  /- PREEMPT_STAT -/ ⟨0x0104, 1, 4, 1, 65536, 0x0, 0x0, 0x60000000, 0x0, .supervisor, .any⟩,
  /- XLATE_INV -/ ⟨0x0110, 1, 4, 1, 65536, 0x0, 0x40000FFF, 0x0, 0x80000000, .supervisor, .any⟩,
  /- XLATE_INV_VA_LO -/ ⟨0x0114, 1, 4, 1, 65536, 0x0, 0xFFFFFFFF, 0x0, 0x0, .supervisor, .any⟩,
  /- XLATE_INV_VA_HI -/ ⟨0x0118, 1, 4, 1, 65536, 0x0, 0xFFFFFFFF, 0x0, 0x0, .supervisor, .any⟩,
  /- XLATE_INV_STAT -/ ⟨0x011C, 1, 4, 1, 65536, 0x0, 0x0, 0x1, 0x0, .supervisor, .any⟩,
  /- SCRUB_CTRL -/ ⟨0x0120, 1, 4, 1, 65536, 0x0, 0x3F, 0x0, 0x80000000, .supervisor, .any⟩,
  /- SCRUB_STAT -/ ⟨0x0124, 1, 4, 1, 65536, 0x0, 0x0, 0x2, 0x0, .supervisor, .any⟩,
  /- LATE_START_CNT -/ ⟨0x0140, 1, 4, 1, 65536, 0x0, 0xFFFFFFFF, 0x0, 0x0, .supervisor, .any⟩,
  /- TRIG_MISS_CNT -/ ⟨0x0144, 1, 4, 1, 65536, 0x0, 0xFFFFFFFF, 0x0, 0x0, .supervisor, .any⟩,
  /- SQ_CFG -/ ⟨0x0800, 4, 16, 64, 64, 0x200000, 0x80FFFFC0, 0x0, 0x0, .tenant, .any⟩,
  /- SQ_TAIL -/ ⟨0x0804, 4, 16, 64, 64, 0x0, 0xFFFF, 0x0, 0x0, .tenant, .any⟩,
  /- SQ_HEAD -/ ⟨0x0808, 4, 16, 64, 64, 0x0, 0x0, 0x0, 0x0, .tenant, .any⟩,
  /- SQ_CTRL -/ ⟨0x080C, 4, 16, 64, 64, 0x0, 0x4, 0x8, 0x3, .tenant, .any⟩,
  /- CTR -/ ⟨0x2000, 64, 4, 64, 256, 0x0, 0xFFFFFFFF, 0x0, 0x0, .tenant, .any⟩,
  /- CTR_ERR_LO -/ ⟨0x6000, 64, 8, 1, 65536, 0x0, 0x0, 0xFFFFFFFF, 0x0, .tenant, .any⟩,
  /- CTR_ERR_HI -/ ⟨0x6004, 64, 8, 1, 65536, 0x0, 0x0, 0xFFFFFFFF, 0x0, .tenant, .any⟩,
  /- TRAY_APERTURE -/ ⟨0x0200, 1, 4, 1, 65536, 0x0, 0xF, 0x0, 0x0, .supervisor, .any⟩]
/-- Region 0x01: the tile port, part 2. -/
def tileRegs2 : List RegSpec := [
  /- TRAY_BANK_CTRL -/ ⟨0x0204, 1, 4, 1, 65536, 0x0, 0xFFFFFFFF, 0x0, 0x0, .supervisor, .any⟩,
  /- TRAY_BANK_STAT -/ ⟨0x0208, 1, 4, 1, 65536, 0x0, 0x0, 0x0, 0x0, .supervisor, .any⟩,
  /- TRAY_STARVE_LIMIT -/ ⟨0x020C, 1, 4, 1, 65536, 0x100, 0xFFFF, 0x0, 0x0, .supervisor, .any⟩,
  /- TRAY_STARVE_STAT -/ ⟨0x0210, 1, 4, 1, 65536, 0x0, 0x0, 0xFFFF, 0x0, .supervisor, .any⟩,
  /- TRAY_CE_CNT -/ ⟨0x0214, 1, 4, 1, 65536, 0x0, 0xFFFFFFFF, 0x0, 0x0, .supervisor, .any⟩,
  /- TRAY_UE_CNT -/ ⟨0x0218, 1, 4, 1, 65536, 0x0, 0xFFFFFFFF, 0x0, 0x0, .supervisor, .any⟩,
  /- TRAY_UE_INFO -/ ⟨0x021C, 1, 4, 1, 65536, 0x0, 0x0, 0x80000000, 0x0, .supervisor, .any⟩,
  /- TRAY_REPAIR -/ ⟨0x0220, 2, 4, 16, 8, 0x0, 0x0, 0x0, 0x0, .supervisor, .any⟩,
  /- RING_STALL_LIMIT -/ ⟨0x02A0, 1, 4, 1, 65536, 0x3E8, 0xFFFF, 0x0, 0x0, .supervisor, .any⟩,
  /- RING_CFG -/ ⟨0x1800, 64, 32, 1, 65536, 0x0, 0xBFF000FF, 0x0, 0x40000000, .supervisor, .any⟩,
  /- RING_STAT_OFF -/ ⟨0x1804, 64, 32, 1, 65536, 0x0, 0xFFFF, 0x0, 0x0, .supervisor, .any⟩,
  /- RING_WPOS -/ ⟨0x1808, 64, 32, 1, 65536, 0x0, 0x0, 0x0, 0x0, .supervisor, .any⟩,
  /- RING_CPOS -/ ⟨0x180C, 64, 32, 1, 65536, 0x0, 0x0, 0x0, 0x0, .supervisor, .any⟩,
  /- RING_HEAD -/ ⟨0x1810, 64, 32, 1, 65536, 0x0, 0xFFFFFFFF, 0x0, 0x0, .tenant, .any⟩,
  /- RING_RSVD -/ ⟨0x1814, 3, 4, 64, 32, 0x0, 0x0, 0x0, 0x0, .supervisor, .any⟩,
  /- WELL_CFG -/ ⟨0x6400, 16, 16, 1, 65536, 0x0, 0xFFC0FFFF, 0x0, 0x0, .supervisor, .any⟩,
  /- WELL_BASE -/ ⟨0x6404, 16, 16, 1, 65536, 0x0, 0xFFFF00FF, 0x0, 0x0, .supervisor, .any⟩,
  /- WELL_RSVD -/ ⟨0x6408, 2, 4, 16, 16, 0x0, 0x0, 0x0, 0x0, .supervisor, .any⟩,
  /- AGENT_SAT_CNT -/ ⟨0x0300, 1, 4, 1, 65536, 0x0, 0xFFFFFFFF, 0x0, 0x0, .supervisor, .any⟩,
  /- AGENT_NAN_CNT -/ ⟨0x0304, 1, 4, 1, 65536, 0x0, 0xFFFFFFFF, 0x0, 0x0, .supervisor, .any⟩,
  /- TILE_BUDGET -/ ⟨0x0310, 1, 4, 1, 65536, 0xFFFF0000, 0x0, 0x800, 0x0, .supervisor, .any⟩,
  /- TILE_POWER -/ ⟨0x0314, 1, 4, 1, 65536, 0x0, 0x0, 0x0, 0x0, .supervisor, .any⟩,
  /- ENERGY_LO -/ ⟨0x6200, 64, 8, 1, 65536, 0x0, 0xFFFFFFFF, 0x0, 0x0, .tenant, .any⟩,
  /- ENERGY_HI -/ ⟨0x6204, 64, 8, 1, 65536, 0x0, 0xFFFFFFFF, 0x0, 0x0, .tenant, .any⟩,
  /- ENG_BUSY_LO -/ ⟨0x6800, 4, 64, 1, 65536, 0x0, 0xFFFFFFFF, 0x0, 0x0, .supervisor, .any⟩,
  /- ENG_BUSY_HI -/ ⟨0x6804, 4, 64, 1, 65536, 0x0, 0xFFFFFFFF, 0x0, 0x0, .supervisor, .any⟩,
  /- ENG_STALL_LO -/ ⟨0x6808, 4, 64, 1, 65536, 0x0, 0xFFFFFFFF, 0x0, 0x0, .supervisor, .any⟩,
  /- ENG_STALL_HI -/ ⟨0x680C, 4, 64, 1, 65536, 0x0, 0xFFFFFFFF, 0x0, 0x0, .supervisor, .any⟩,
  /- ENG_IDLE_LO -/ ⟨0x6810, 4, 64, 1, 65536, 0x0, 0xFFFFFFFF, 0x0, 0x0, .supervisor, .any⟩,
  /- ENG_IDLE_HI -/ ⟨0x6814, 4, 64, 1, 65536, 0x0, 0xFFFFFFFF, 0x0, 0x0, .supervisor, .any⟩,
  /- ENG_RSN_CNT -/ ⟨0x6818, 4, 64, 1, 65536, 0x0, 0xFFFFFFFF, 0x0, 0x0, .supervisor, .any⟩,
  /- ENG_STAT -/ ⟨0x681C, 4, 64, 1, 65536, 0x80000000, 0xF, 0x0, 0x0, .supervisor, .any⟩,
  /- TP_SLEEP_LO -/ ⟨0x6900, 1, 4, 1, 65536, 0x0, 0xFFFFFFFF, 0x0, 0x0, .supervisor, .any⟩,
  /- TP_SLEEP_HI -/ ⟨0x6904, 1, 4, 1, 65536, 0x0, 0xFFFFFFFF, 0x0, 0x0, .supervisor, .any⟩,
  /- TP_SNAP -/ ⟨0x6908, 1, 4, 1, 65536, 0x0, 0x0, 0x0, 0x0, .supervisor, .any⟩,
  /- SLOT_BUSY -/ ⟨0x6A00, 64, 8, 1, 65536, 0x0, 0xFFFFFFFF, 0x0, 0x0, .tenant, .any⟩,
  /- SLOT_STALL -/ ⟨0x6A04, 64, 8, 1, 65536, 0x0, 0xFFFFFFFF, 0x0, 0x0, .tenant, .any⟩,
  /- SW_CTRL -/ ⟨0x6C00, 4, 64, 1, 65536, 0x0, 0x1FF80FFF, 0x0, 0xE0000000, .supervisor, .any⟩,
  /- SW_BASE -/ ⟨0x6C04, 4, 64, 1, 65536, 0x0, 0xFFFE0, 0x0, 0x0, .supervisor, .any⟩,
  /- SW_LEN -/ ⟨0x6C08, 4, 64, 1, 65536, 0x0, 0x1FFFE0, 0x0, 0x0, .supervisor, .any⟩]
/-- Region 0x01: the tile port, part 3. -/
def tileRegs3 : List RegSpec := [
  /- SW_STAT -/ ⟨0x6C0C, 4, 64, 1, 65536, 0x0, 0x0, 0x58000000, 0x0, .supervisor, .any⟩,
  /- SW_WORDS -/ ⟨0x6C10, 4, 64, 1, 65536, 0x0, 0x0, 0x0, 0x0, .supervisor, .any⟩,
  /- SW_COUNT -/ ⟨0x6C14, 4, 64, 1, 65536, 0x0, 0x0, 0x0, 0x0, .supervisor, .any⟩,
  /- SW_NAN -/ ⟨0x6C18, 4, 64, 1, 65536, 0x0, 0x0, 0x0, 0x0, .supervisor, .any⟩,
  /- SW_INF -/ ⟨0x6C1C, 4, 64, 1, 65536, 0x0, 0x0, 0x0, 0x0, .supervisor, .any⟩,
  /- SW_ZERO -/ ⟨0x6C20, 4, 64, 1, 65536, 0x0, 0x0, 0x0, 0x0, .supervisor, .any⟩,
  /- SW_MIN -/ ⟨0x6C24, 4, 64, 1, 65536, 0x0, 0x0, 0x0, 0x0, .supervisor, .any⟩,
  /- SW_MAX -/ ⟨0x6C28, 4, 64, 1, 65536, 0x0, 0x0, 0x0, 0x0, .supervisor, .any⟩,
  /- SW_DIG_LO -/ ⟨0x6C2C, 4, 64, 1, 65536, 0x0, 0x0, 0x0, 0x0, .supervisor, .any⟩,
  /- SW_DIG_HI -/ ⟨0x6C30, 4, 64, 1, 65536, 0x0, 0x0, 0x0, 0x0, .supervisor, .any⟩,
  /- SW_SUM_LO -/ ⟨0x6C34, 4, 64, 1, 65536, 0x0, 0x0, 0x0, 0x0, .supervisor, .any⟩,
  /- SW_SUM_HI -/ ⟨0x6C38, 4, 64, 1, 65536, 0x0, 0x0, 0x0, 0x0, .supervisor, .any⟩,
  /- SW_REF_LO -/ ⟨0x6D00, 4, 8, 1, 65536, 0x0, 0xFFFFFFFF, 0x0, 0x0, .supervisor, .any⟩,
  /- SW_REF_HI -/ ⟨0x6D04, 4, 8, 1, 65536, 0x0, 0xFFFFFFFF, 0x0, 0x0, .supervisor, .any⟩,
  /- SW_SUMABS_LO -/ ⟨0x6D20, 4, 8, 1, 65536, 0x0, 0x0, 0x0, 0x0, .supervisor, .any⟩,
  /- SW_SUMABS_HI -/ ⟨0x6D24, 4, 8, 1, 65536, 0x0, 0x0, 0x0, 0x0, .supervisor, .any⟩,
  /- STATUS_STEP -/ ⟨0x0130, 1, 4, 1, 65536, 0x80, 0xFFFF, 0x0, 0x0, .supervisor, .any⟩]
/-- Region 0x01: the tile port. -/
def tileRegs : List RegSpec := tileRegs1 ++ tileRegs2 ++ tileRegs3
/-- Region 0x02: one edge side; OFFSET less 0x4000 times the side (R461), part 1. -/
def edgeRegs1 : List RegSpec := [
  /- MP_CFG -/ ⟨0x0200, 1, 4, 1, 65536, 0x64, 0xFFFF, 0x0, 0x0, .supervisor, .memory⟩,
  /- MP_STAT -/ ⟨0x0204, 1, 4, 1, 65536, 0x0, 0x0, 0x0, 0x0, .supervisor, .memory⟩,
  /- MP_TO_CNT -/ ⟨0x0208, 1, 4, 1, 65536, 0x0, 0xFFFFFFFF, 0x0, 0x0, .supervisor, .memory⟩,
  /- MP_UE_CNT -/ ⟨0x020C, 1, 4, 1, 65536, 0x0, 0xFFFFFFFF, 0x0, 0x0, .supervisor, .memory⟩,
  /- MP_LATE_CNT -/ ⟨0x0210, 1, 4, 1, 65536, 0x0, 0xFFFFFFFF, 0x0, 0x0, .supervisor, .memory⟩,
  /- HP_CFG -/ ⟨0x0300, 1, 4, 1, 65536, 0x64, 0xFFFF, 0x0, 0x0, .supervisor, .host⟩,
  /- HP_STAT -/ ⟨0x0304, 1, 4, 1, 65536, 0x0, 0x0, 0xC0000000, 0x0, .supervisor, .host⟩,
  /- HP_TO_CNT -/ ⟨0x0308, 1, 4, 1, 65536, 0x0, 0xFFFFFFFF, 0x0, 0x0, .supervisor, .host⟩,
  /- HP_LATE_CNT -/ ⟨0x030C, 1, 4, 1, 65536, 0x0, 0xFFFFFFFF, 0x0, 0x0, .supervisor, .host⟩,
  /- E_DL_BUDGET_LO -/ ⟨0x0040, 1, 4, 1, 65536, 0x10084010, 0xFFFFFFFF, 0x0, 0x0, .supervisor, .any⟩,
  /- E_DL_BUDGET_HI -/ ⟨0x0044, 1, 4, 1, 65536, 0x204, 0xFFFF, 0x0, 0x0, .supervisor, .any⟩,
  /- POLICE_SEL -/ ⟨0x0100, 1, 4, 1, 65536, 0x0, 0xFF, 0x0, 0x0, .supervisor, .policed⟩,
  /- POLICE_CFG -/ ⟨0x0104, 1, 4, 1, 65536, 0x0, 0xFFFFFFFF, 0x0, 0x0, .supervisor, .policed⟩,
  /- POLICE_LEVEL -/ ⟨0x0108, 1, 4, 1, 65536, 0x0, 0x0, 0x0, 0x0, .supervisor, .policed⟩,
  /- POLICE_DROP_CNT -/ ⟨0x010C, 1, 4, 1, 65536, 0x0, 0xFFFFFFFF, 0x0, 0x0, .supervisor, .policed⟩,
  /- SP_CTRL -/ ⟨0x0400, 1, 4, 1, 65536, 0xB000000, 0x9F000000, 0x0, 0x60000000, .supervisor, .spine⟩,
  /- SP_PMA_LAT -/ ⟨0x0404, 1, 4, 1, 65536, 0x0, 0xFFFFFFFF, 0x0, 0x0, .supervisor, .spine⟩,
  /- SP_LINK_CFG -/ ⟨0x0408, 1, 4, 1, 65536, 0x8102710, 0xFFFFFFFF, 0x0, 0x0, .supervisor, .spine⟩,
  /- SP_LANE_CFG -/ ⟨0x040C, 1, 4, 1, 65536, 0x20000000, 0xFFFF0000, 0x0, 0x0, .supervisor, .spine⟩,
  /- SP_FLAG_STAT -/ ⟨0x0410, 1, 4, 1, 65536, 0x0, 0x0, 0xFF, 0x0, .supervisor, .spine⟩,
  /- SP_DISC_CNT -/ ⟨0x0414, 1, 4, 1, 65536, 0x0, 0xFFFFFFFF, 0x0, 0x0, .supervisor, .spine⟩,
  /- ING_CLASS -/ ⟨0x0420, 7, 4, 1, 65536, 0x2000010, 0xFFFFFFFF, 0x0, 0x0, .supervisor, .spine⟩,
  /- SP_PORT_STAT -/ ⟨0x0440, 8, 32, 1, 65536, 0x0, 0x0, 0x0, 0x0, .supervisor, .spine⟩,
  /- SP_PARTNER -/ ⟨0x0444, 8, 32, 1, 65536, 0x0, 0x0, 0x0, 0x0, .supervisor, .spine⟩,
  /- SP_PARTNER_EXP -/ ⟨0x0448, 8, 32, 1, 65536, 0x0, 0xFF83FFFF, 0x0, 0x0, .supervisor, .spine⟩,
  /- SP_LOOP -/ ⟨0x044C, 8, 32, 1, 65536, 0x0, 0x0, 0x0, 0x0, .supervisor, .spine⟩,
  /- SP_CW_CE_CNT -/ ⟨0x0450, 8, 32, 1, 65536, 0x0, 0xFFFFFFFF, 0x0, 0x0, .supervisor, .spine⟩,
  /- SP_CW_UE_CNT -/ ⟨0x0454, 8, 32, 1, 65536, 0x0, 0xFFFFFFFF, 0x0, 0x0, .supervisor, .spine⟩,
  /- SP_REPLAY_CNT -/ ⟨0x0458, 8, 32, 1, 65536, 0x0, 0xFFFFFFFF, 0x0, 0x0, .supervisor, .spine⟩,
  /- SP_RETRAIN_CNT -/ ⟨0x045C, 8, 32, 1, 65536, 0x0, 0xFFFFFFFF, 0x0, 0x0, .supervisor, .spine⟩,
  /- SP_PEER_CTRL -/ ⟨0x0580, 1, 4, 1, 65536, 0x0, 0x78000000, 0x0, 0x80000000, .supervisor, .spine⟩,
  /- SP_PEER_ADDR -/ ⟨0x0584, 1, 4, 1, 65536, 0x0, 0xFFFFFFFF, 0x0, 0x0, .supervisor, .spine⟩,
  /- SP_PEER_DATA -/ ⟨0x0588, 1, 4, 1, 65536, 0x0, 0xFFFFFFFF, 0x0, 0x0, .supervisor, .spine⟩,
  /- SP_PEER_STAT -/ ⟨0x058C, 1, 4, 1, 65536, 0x0, 0x0, 0x70000000, 0x0, .supervisor, .spine⟩,
  /- LANE_STAT -/ ⟨0x0600, 9, 16, 1, 65536, 0xF000000, 0x0, 0x0, 0x0, .supervisor, .spine⟩,
  /- LANE_SYM_CNT -/ ⟨0x0604, 9, 16, 1, 65536, 0x0, 0xFFFFFFFF, 0x0, 0x0, .supervisor, .spine⟩,
  /- LANE_RXP -/ ⟨0x0608, 9, 16, 1, 65536, 0x0, 0x0, 0x0, 0x0, .supervisor, .spine⟩,
  /- LANE_BIAS -/ ⟨0x060C, 9, 16, 1, 65536, 0x0, 0x0, 0x0, 0x0, .supervisor, .spine⟩,
  /- OE_STAT -/ ⟨0x0700, 1, 4, 1, 65536, 0x0, 0x0, 0x10000000, 0x0, .supervisor, .spine⟩,
  /- OE_CFG -/ ⟨0x0704, 1, 4, 1, 65536, 0xFED40032, 0xFFFFFFFF, 0x0, 0x0, .supervisor, .spine⟩]
/-- Region 0x02: one edge side; OFFSET less 0x4000 times the side (R461), part 2. -/
def edgeRegs2 : List RegSpec := [
  /- OE_CFG2 -/ ⟨0x0708, 1, 4, 1, 65536, 0xFC18000A, 0xFFFFFFFF, 0x0, 0x0, .supervisor, .spine⟩,
  /- SP_CIRC_CFG -/ ⟨0x0800, 1, 4, 1, 65536, 0xC8, 0x8F00FFFF, 0x0, 0x0, .supervisor, .spine⟩,
  /- SP_CIRC_CFG2 -/ ⟨0x0804, 1, 4, 1, 65536, 0x13880000, 0xFFFF0000, 0x0, 0x0, .supervisor, .spine⟩,
  /- SP_CIRC_STAT -/ ⟨0x0808, 1, 4, 1, 65536, 0x0, 0x0, 0x0, 0x0, .supervisor, .spine⟩,
  /- SP_CIRC_MISS_CNT -/ ⟨0x080C, 1, 4, 1, 65536, 0x0, 0xFFFFFFFF, 0x0, 0x0, .supervisor, .spine⟩,
  /- SP_CIRC_CUT_CNT -/ ⟨0x0810, 1, 4, 1, 65536, 0x0, 0xFFFFFFFF, 0x0, 0x0, .supervisor, .spine⟩,
  /- SP_STALE_CFG -/ ⟨0x0814, 1, 4, 1, 65536, 0x2000, 0xFFFF, 0x0, 0x0, .supervisor, .spine⟩,
  /- SP_STALE_CNT -/ ⟨0x0818, 1, 4, 1, 65536, 0x0, 0xFFFFFFFF, 0x0, 0x0, .supervisor, .spine⟩,
  /- SP_CIRC_EXP -/ ⟨0x0840, 16, 16, 1, 65536, 0x0, 0xFF83FFFF, 0x0, 0x0, .supervisor, .spine⟩,
  /- SP_CIRC_AGR -/ ⟨0x0844, 16, 16, 1, 65536, 0x780000, 0x0, 0x0, 0x0, .supervisor, .spine⟩,
  /- SP_CIRC_D -/ ⟨0x0848, 16, 16, 1, 65536, 0x0, 0x0, 0x0, 0x0, .supervisor, .spine⟩,
  /- EGRESS_PORT_A -/ ⟨0x1000, 152, 4, 1, 65536, 0x0, 0xFFFFFFFF, 0x0, 0x0, .supervisor, .spine⟩,
  /- EGRESS_PORT_B -/ ⟨0x1400, 152, 4, 1, 65536, 0x0, 0xFFFFFFFF, 0x0, 0x0, .supervisor, .spine⟩,
  /- POLICE_PDROP_CNT -/ ⟨0x0110, 1, 4, 1, 65536, 0x0, 0xFFFFFFFF, 0x0, 0x0, .supervisor, .spine⟩,
  /- POLICE_MAP_SEL -/ ⟨0x0114, 1, 4, 1, 65536, 0x0, 0xFFF, 0x0, 0x0, .supervisor, .spine⟩,
  /- POLICE_MAP -/ ⟨0x0118, 1, 4, 1, 65536, 0x0, 0xFF, 0x0, 0x0, .supervisor, .spine⟩]
/-- Region 0x02: one edge side; OFFSET less 0x4000 times the side (R461). -/
def edgeRegs : List RegSpec := edgeRegs1 ++ edgeRegs2
/-- Region 0x03: the die-level blocks, part 1. -/
def dieRegs1 : List RegSpec := [
  /- SCAISK_ID -/ ⟨0x0000, 1, 4, 1, 65536, 0x2F170302, 0x0, 0x0, 0x0, .all, .any⟩,
  /- DIE_ID -/ ⟨0x0010, 1, 4, 1, 65536, 0x1FFFF, 0x1FFFF, 0x0, 0x0, .supervisor, .any⟩,
  /- COLMAP_SPARE -/ ⟨0x0100, 32, 4, 1, 65536, 0x0, 0x0, 0x0, 0x0, .supervisor, .any⟩,
  /- DRAIN_CTRL -/ ⟨0x0400, 1, 4, 1, 65536, 0x0, 0x3F, 0x0, 0x0, .supervisor, .any⟩,
  /- DRAIN_STAT -/ ⟨0x0404, 1, 4, 1, 65536, 0x3F, 0x0, 0x10100, 0x0, .supervisor, .any⟩,
  /- DRAIN_LIMIT -/ ⟨0x0408, 1, 4, 1, 65536, 0x64, 0xFFFF, 0x0, 0x0, .supervisor, .any⟩,
  /- ROUTE_SWAP -/ ⟨0x040C, 1, 4, 1, 65536, 0x0, 0x0, 0x0, 0x0, .supervisor, .any⟩,
  /- ROUTE_BANK -/ ⟨0x0410, 1, 4, 1, 65536, 0x0, 0x0, 0x0, 0x0, .supervisor, .any⟩,
  /- CMAP_CTRL -/ ⟨0x0420, 1, 4, 1, 65536, 0x18, 0x13F, 0x0, 0x0, .supervisor, .any⟩,
  /- NT_LO -/ ⟨0x0800, 1, 4, 1, 65536, 0x0, 0x0, 0x0, 0x0, .all, .any⟩,
  /- NT_HI -/ ⟨0x0804, 1, 4, 1, 65536, 0x0, 0x0, 0x0, 0x0, .all, .any⟩,
  /- TIME_STAT -/ ⟨0x0808, 1, 4, 1, 65536, 0x0, 0x0, 0x580000, 0x0, .supervisor, .any⟩,
  /- TIME_CFG -/ ⟨0x080C, 1, 4, 1, 65536, 0x3000000, 0x8F007F7F, 0x0, 0x0, .supervisor, .any⟩,
  /- TIME_INCR_LO -/ ⟨0x0810, 1, 4, 1, 65536, 0x0, 0x0, 0x0, 0x0, .supervisor, .any⟩,
  /- TIME_INCR_HI -/ ⟨0x0814, 1, 4, 1, 65536, 0xA0, 0x0, 0x0, 0x0, .supervisor, .any⟩,
  /- TIME_SET_LO -/ ⟨0x0818, 1, 4, 1, 65536, 0x0, 0x0, 0x0, 0x0, .supervisor, .any⟩,
  /- TIME_SET_HI -/ ⟨0x081C, 1, 4, 1, 65536, 0x0, 0x0, 0x0, 0x0, .supervisor, .any⟩,
  /- TIME_PHASE_ERR -/ ⟨0x0820, 1, 4, 1, 65536, 0x0, 0x0, 0x0, 0x0, .supervisor, .any⟩,
  /- TIME_LINK_DELAY -/ ⟨0x0824, 1, 4, 1, 65536, 0x0, 0x0, 0x0, 0x0, .supervisor, .any⟩,
  /- TIME_TRAIN_TEMP -/ ⟨0x0828, 1, 4, 1, 65536, 0x0, 0x0, 0x0, 0x0, .supervisor, .any⟩,
  /- STENCIL_CTRL -/ ⟨0x0900, 1, 4, 1, 65536, 0x0, 0x61, 0x82, 0x0, .supervisor, .any⟩,
  /- STENCIL_BANK -/ ⟨0x0904, 1, 4, 1, 65536, 0x0, 0x0, 0x0, 0x0, .supervisor, .any⟩,
  /- STENCIL_EPOCH_LO -/ ⟨0x0908, 1, 4, 1, 65536, 0x0, 0xFFFFFFE0, 0x0, 0x0, .supervisor, .any⟩,
  /- STENCIL_EPOCH_HI -/ ⟨0x090C, 1, 4, 1, 65536, 0x0, 0xFFFFFFFF, 0x0, 0x0, .supervisor, .any⟩,
  /- STENCIL_SWITCH_LO -/ ⟨0x0910, 1, 4, 1, 65536, 0x0, 0xFFFFFFE0, 0x0, 0x0, .supervisor, .any⟩,
  /- STENCIL_SWITCH_HI -/ ⟨0x0914, 1, 4, 1, 65536, 0x0, 0xFFFFFFFF, 0x0, 0x0, .supervisor, .any⟩,
  /- STENCIL_SWITCH_ARM -/ ⟨0x0918, 1, 4, 1, 65536, 0x0, 0x0, 0x2, 0x1, .supervisor, .any⟩,
  /- STENCIL_SEL -/ ⟨0x0920, 1, 4, 1, 65536, 0x0, 0x83FF1FFF, 0x0, 0x0, .supervisor, .any⟩,
  /- STENCIL_DATA_LO -/ ⟨0x0924, 1, 4, 1, 65536, 0x0, 0xFFFFFFFF, 0x0, 0x0, .supervisor, .any⟩,
  /- STENCIL_DATA_HI -/ ⟨0x0928, 1, 4, 1, 65536, 0x0, 0xFFFFFFFF, 0x0, 0x0, .supervisor, .any⟩,
  /- WASH_OWNER -/ ⟨0x0930, 1, 4, 1, 65536, 0x0, 0x800003FF, 0x0, 0x0, .supervisor, .any⟩,
  /- SCHED_MON_STAT -/ ⟨0x0940, 1, 4, 1, 65536, 0x0, 0x0, 0x7, 0x0, .supervisor, .any⟩,
  /- SCHED_MON_FIRST -/ ⟨0x0944, 1, 4, 1, 65536, 0x0, 0x0, 0x0, 0x0, .supervisor, .any⟩,
  /- SCHED_MON_NT_LO -/ ⟨0x0948, 1, 4, 1, 65536, 0x0, 0x0, 0x0, 0x0, .supervisor, .any⟩,
  /- SCHED_MON_NT_HI -/ ⟨0x094C, 1, 4, 1, 65536, 0x0, 0x0, 0x0, 0x0, .supervisor, .any⟩,
  /- SCHED_CLOSED_CNT -/ ⟨0x0950, 1, 4, 1, 65536, 0x0, 0xFFFFFFFF, 0x0, 0x0, .supervisor, .any⟩,
  /- SCHED_OVERRUN_CNT -/ ⟨0x0954, 1, 4, 1, 65536, 0x0, 0xFFFFFFFF, 0x0, 0x0, .supervisor, .any⟩,
  /- SCHED_CONTEND_CNT -/ ⟨0x0958, 1, 4, 1, 65536, 0x0, 0xFFFFFFFF, 0x0, 0x0, .supervisor, .any⟩,
  /- WAKE_LEAD_A -/ ⟨0x0980, 64, 8, 1, 65536, 0x430009, 0xFFFFFFFF, 0x0, 0x0, .supervisor, .any⟩,
  /- WAKE_LEAD_B -/ ⟨0x0984, 64, 8, 1, 65536, 0xBBF, 0xFFFF, 0x0, 0x0, .supervisor, .any⟩]
/-- Region 0x03: the die-level blocks, part 2. -/
def dieRegs2 : List RegSpec := [
  /- FAULT_CTRL -/ ⟨0x2000, 1, 4, 1, 65536, 0x3E8, 0xFFFFF, 0x0, 0x0, .supervisor, .any⟩,
  /- FAULT_STAT -/ ⟨0x2004, 1, 4, 1, 65536, 0x0, 0x0, 0x38000000, 0x0, .supervisor, .any⟩,
  /- RECOVERY_CNT -/ ⟨0x2008, 1, 4, 1, 65536, 0x0, 0xFFFFFFFF, 0x0, 0x0, .supervisor, .any⟩,
  /- ERR_PIN -/ ⟨0x200C, 1, 4, 1, 65536, 0x0, 0x0, 0x0, 0x40000000, .supervisor, .any⟩,
  /- FAULT_IRQ_STAT -/ ⟨0x2010, 1, 4, 1, 65536, 0x0, 0x0, 0x1F, 0x0, .supervisor, .any⟩,
  /- FAULT_FIRST -/ ⟨0x2020, 12, 4, 1, 65536, 0x0, 0x0, 0x0, 0x0, .supervisor, .any⟩,
  /- FAULT_LOG_SEL -/ ⟨0x2060, 1, 4, 1, 65536, 0x0, 0x3FF, 0x0, 0x0, .supervisor, .any⟩,
  /- FAULT_LOG_HEAD -/ ⟨0x2064, 1, 4, 1, 65536, 0x0, 0x0, 0x0, 0x0, .supervisor, .any⟩,
  /- FAULT_LOG_DATA -/ ⟨0x2080, 12, 4, 1, 65536, 0x0, 0x0, 0x0, 0x0, .supervisor, .any⟩,
  /- JOB_FAIL -/ ⟨0x20C0, 16, 4, 1, 65536, 0x0, 0x0, 0x80000000, 0x0, .supervisor, .any⟩,
  /- RETIRE_CFG -/ ⟨0x2100, 8, 4, 1, 65536, 0x0, 0xFFFFFFFF, 0x0, 0x0, .supervisor, .any⟩,
  /- FAULT_SRC_CFG -/ ⟨0x2400, 256, 4, 1, 65536, 0x0, 0xFFC00000, 0x0, 0x0, .supervisor, .any⟩,
  /- FAULT_SRC_STAT -/ ⟨0x2800, 256, 4, 1, 65536, 0x0, 0xFFFF, 0x80000000, 0x0, .supervisor, .any⟩,
  /- FAULT_SRC_CNT -/ ⟨0x2C00, 256, 4, 1, 65536, 0x0, 0xFFFFFFFF, 0x0, 0x0, .supervisor, .any⟩,
  /- WEAR_SEL -/ ⟨0x3000, 1, 4, 1, 65536, 0x0, 0xF3FF00FF, 0x0, 0x0, .supervisor, .any⟩,
  /- WEAR_SCORE -/ ⟨0x3004, 1, 4, 1, 65536, 0x3E8, 0x0, 0x0, 0x0, .supervisor, .any⟩,
  /- WEAR_EOL -/ ⟨0x3008, 1, 4, 1, 65536, 0xFFFFFFFF, 0x0, 0x0, 0x0, .supervisor, .any⟩,
  /- WEAR_EOL_LO -/ ⟨0x300C, 1, 4, 1, 65536, 0xFFFFFFFF, 0x0, 0x0, 0x0, .supervisor, .any⟩,
  /- WEAR_EOL_HI -/ ⟨0x3010, 1, 4, 1, 65536, 0xFFFFFFFF, 0x0, 0x0, 0x0, .supervisor, .any⟩,
  /- OPER_HOURS -/ ⟨0x3014, 1, 4, 1, 65536, 0x0, 0xFFFFFFFF, 0x0, 0x0, .supervisor, .any⟩,
  /- WEAR_CFG -/ ⟨0x3018, 1, 4, 1, 65536, 0xC8, 0x3FF, 0x0, 0x0, .supervisor, .any⟩,
  /- WEAR_IND_SEL -/ ⟨0x3020, 1, 4, 1, 65536, 0x0, 0x7, 0x0, 0x0, .supervisor, .any⟩,
  /- WEAR_IND_CFG -/ ⟨0x3024, 1, 4, 1, 65536, 0x0, 0xFFFFFFFF, 0x0, 0x0, .supervisor, .any⟩,
  /- WEAR_HIST_SEL -/ ⟨0x3030, 1, 4, 1, 65536, 0x0, 0xF, 0x0, 0x0, .supervisor, .any⟩,
  /- WEAR_HIST_DATA -/ ⟨0x3034, 1, 4, 1, 65536, 0x0, 0xFFFFFFFF, 0x0, 0x0, .supervisor, .any⟩,
  /- ERR_TEMP_CFG -/ ⟨0x3100, 1, 4, 1, 65536, 0x140A, 0xFFFF, 0x0, 0x0, .supervisor, .any⟩,
  /- ERR_TAG_SEL -/ ⟨0x3104, 1, 4, 1, 65536, 0x0, 0xFF, 0x0, 0x0, .supervisor, .any⟩,
  /- ERR_TAG_CNT -/ ⟨0x3108, 1, 4, 1, 65536, 0x0, 0xFFFFFFFF, 0x0, 0x0, .supervisor, .any⟩,
  /- ERR_ENTRY_SEL -/ ⟨0x3110, 1, 4, 1, 65536, 0x0, 0x3FF1FFF, 0x0, 0x0, .supervisor, .any⟩,
  /- ERR_ENTRY_CNT -/ ⟨0x3114, 1, 4, 1, 65536, 0x0, 0xFFFFFFFF, 0x0, 0x0, .supervisor, .any⟩,
  /- SOAK_CTRL -/ ⟨0x3200, 1, 4, 1, 65536, 0x0, 0x3FFF00, 0x0, 0xC0000000, .supervisor, .any⟩,
  /- SOAK_TIME -/ ⟨0x3204, 1, 4, 1, 65536, 0x3C, 0xFFFFFFFF, 0x0, 0x0, .supervisor, .any⟩,
  /- SOAK_STAT -/ ⟨0x3208, 1, 4, 1, 65536, 0x0, 0x0, 0x60000000, 0x0, .supervisor, .any⟩,
  /- SOAK_ERR_CNT -/ ⟨0x320C, 1, 4, 1, 65536, 0x0, 0xFFFFFFFF, 0x0, 0x0, .supervisor, .any⟩,
  /- CTX_JOB -/ ⟨0x4000, 4096, 4, 1, 65536, 0x0, 0x0, 0x0, 0x0, .supervisor, .any⟩,
  /- RED_SEL -/ ⟨0x0C00, 1, 4, 1, 65536, 0x0, 0x3FF003F, 0x0, 0x0, .supervisor, .any⟩,
  /- RED_TREE -/ ⟨0x0C04, 1, 4, 1, 65536, 0x0, 0xE01FFFFF, 0x0, 0x0, .supervisor, .any⟩,
  /- RED_TREE_SIG -/ ⟨0x0C08, 1, 4, 1, 65536, 0x0, 0x0, 0x0, 0x0, .supervisor, .any⟩,
  /- COLL_SEL -/ ⟨0x1000, 1, 4, 1, 65536, 0x0, 0x3F, 0x0, 0x0, .supervisor, .any⟩,
  /- COLL_ARM_ID -/ ⟨0x1004, 1, 4, 1, 65536, 0x0, 0xFFFFFFFF, 0x0, 0x0, .supervisor, .any⟩]
/-- Region 0x03: the die-level blocks, part 3. -/
def dieRegs3 : List RegSpec := [
  /- COLL_ARM_TREE -/ ⟨0x1008, 1, 4, 1, 65536, 0x0, 0xFFFFF, 0x0, 0x0, .supervisor, .any⟩,
  /- COLL_ARM_CTX -/ ⟨0x100C, 1, 4, 1, 65536, 0x0, 0xFFF0FFF, 0x0, 0x0, .supervisor, .any⟩,
  /- COLL_ARM_CTRL -/ ⟨0x1010, 1, 4, 1, 65536, 0x0, 0x80000000, 0x0, 0x0, .supervisor, .any⟩,
  /- COLL_ARM_STAT -/ ⟨0x1014, 1, 4, 1, 65536, 0x0, 0x0, 0x100, 0x0, .supervisor, .any⟩,
  /- COLL_ABORT_ID -/ ⟨0x1020, 1, 4, 1, 65536, 0x0, 0xFFFFFFFF, 0x0, 0x0, .supervisor, .any⟩,
  /- COLL_ABORT_CTRL -/ ⟨0x1024, 1, 4, 1, 65536, 0x7, 0xFF, 0x0, 0x80000000, .supervisor, .any⟩,
  /- BAR_WAVE -/ ⟨0x1040, 1, 4, 1, 65536, 0x200020, 0xFFFF01FF, 0x0, 0x0, .supervisor, .any⟩,
  /- BAR_TIMING -/ ⟨0x1044, 1, 4, 1, 65536, 0x5, 0xFFFFFFFF, 0x0, 0x0, .supervisor, .any⟩,
  /- BAR_SEL -/ ⟨0x1050, 1, 4, 1, 65536, 0x0, 0x3FF003F, 0x0, 0x0, .supervisor, .any⟩,
  /- BAR_ENT_LO -/ ⟨0x1054, 1, 4, 1, 65536, 0x0, 0x1FFFFF, 0x0, 0x0, .supervisor, .any⟩,
  /- BAR_ENT_HI -/ ⟨0x1058, 1, 4, 1, 65536, 0x0, 0xFFFE0000, 0x0, 0x0, .supervisor, .any⟩,
  /- BAR_COUNT -/ ⟨0x105C, 1, 4, 1, 65536, 0x0, 0x0, 0x0, 0x0, .supervisor, .any⟩,
  /- BAR_LATE_CNT -/ ⟨0x1060, 1, 4, 1, 65536, 0x0, 0xFFFFFFFF, 0x0, 0x0, .supervisor, .any⟩,
  /- WASH_SEL -/ ⟨0x1080, 1, 4, 1, 65536, 0x0, 0x3FF000F, 0x0, 0x0, .supervisor, .any⟩,
  /- WASH_LAND -/ ⟨0x1084, 1, 4, 1, 65536, 0x0, 0xBFFC0000, 0x40000000, 0x0, .supervisor, .any⟩,
  /- WASH_LOSS_CNT -/ ⟨0x1088, 1, 4, 1, 65536, 0x0, 0xFFFFFFFF, 0x0, 0x0, .supervisor, .any⟩,
  /- BYP_SEL -/ ⟨0x1100, 1, 4, 1, 65536, 0x0, 0x83FF003F, 0x0, 0x0, .supervisor, .any⟩,
  /- BYP_MAP -/ ⟨0x1104, 1, 4, 1, 65536, 0x0, 0x100FF, 0x0, 0x0, .supervisor, .any⟩,
  /- BRINGUP_STAT -/ ⟨0x1400, 1, 4, 1, 65536, 0x0, 0x0, 0x0, 0x0, .supervisor, .any⟩,
  /- BRINGUP_PROG -/ ⟨0x1404, 1, 4, 1, 65536, 0x0, 0x0, 0x0, 0x0, .supervisor, .any⟩,
  /- LOAD_ERR_A -/ ⟨0x1408, 1, 4, 1, 65536, 0x0, 0x0, 0x0, 0x0, .supervisor, .any⟩,
  /- LOAD_ERR_B -/ ⟨0x140C, 1, 4, 1, 65536, 0x0, 0x0, 0x0, 0x0, .supervisor, .any⟩,
  /- BRINGUP_CTRL -/ ⟨0x1410, 1, 4, 1, 65536, 0x0, 0xFF, 0x0, 0xC0000000, .supervisor, .any⟩,
  /- CANVAS_ID -/ ⟨0x1414, 1, 4, 1, 65536, 0x0, 0x0, 0x0, 0x0, .supervisor, .any⟩,
  /- XSPI_STAT -/ ⟨0x1418, 1, 4, 1, 65536, 0x0, 0x0, 0x0, 0x0, .supervisor, .any⟩,
  /- GLAZE_SWITCH_MASK -/ ⟨0x1420, 1, 4, 1, 65536, 0x0, 0xFF, 0x0, 0x0, .supervisor, .any⟩,
  /- GLAZE_SWITCH_CTRL -/ ⟨0x1424, 1, 4, 1, 65536, 0x0, 0x0, 0x0, 0x80000000, .supervisor, .any⟩,
  /- GLAZE_SWITCH_STAT -/ ⟨0x1428, 1, 4, 1, 65536, 0x0, 0x0, 0x40000000, 0x0, .supervisor, .any⟩,
  /- BRINGUP_NT_LO -/ ⟨0x1480, 12, 8, 1, 65536, 0x0, 0x0, 0x0, 0x0, .supervisor, .any⟩,
  /- BRINGUP_NT_HI -/ ⟨0x1484, 12, 8, 1, 65536, 0x0, 0x0, 0x0, 0x0, .supervisor, .any⟩,
  /- CLK_STAT -/ ⟨0x1800, 1, 4, 1, 65536, 0x0, 0x0, 0x0, 0x0, .supervisor, .any⟩,
  /- POWER_CAP -/ ⟨0x1810, 1, 4, 1, 65536, 0x0, 0xFFFF, 0x0, 0x0, .supervisor, .any⟩,
  /- POWER_CTRL -/ ⟨0x1814, 1, 4, 1, 65536, 0x24, 0x8000003F, 0x0, 0x0, .supervisor, .any⟩,
  /- POWER_STAT -/ ⟨0x1818, 1, 4, 1, 65536, 0x0, 0x0, 0x80000000, 0x0, .supervisor, .any⟩,
  /- DOM_LIMIT -/ ⟨0x1820, 3, 8, 1, 65536, 0xFFFF0000, 0xFFFFFFFF, 0x0, 0x0, .supervisor, .any⟩,
  /- DOM_STAT -/ ⟨0x1824, 3, 8, 1, 65536, 0x0, 0x0, 0x0, 0x0, .supervisor, .any⟩,
  /- RAIL_CFG -/ ⟨0x1840, 8, 8, 1, 65536, 0xA8C, 0xFFFFFFFF, 0x0, 0x0, .supervisor, .any⟩,
  /- RAIL_STAT -/ ⟨0x1844, 8, 8, 1, 65536, 0x0, 0x0, 0x80000000, 0x0, .supervisor, .any⟩,
  /- RAIL_MAP -/ ⟨0x1880, 8, 4, 1, 65536, 0x0, 0x77777777, 0x0, 0x0, .supervisor, .any⟩,
  /- RAIL_EDGE -/ ⟨0x18A0, 1, 4, 1, 65536, 0x0, 0x777, 0x0, 0x0, .supervisor, .any⟩]
/-- Region 0x03: the die-level blocks, part 4. -/
def dieRegs4 : List RegSpec := [
  /- RAIL_LEAK -/ ⟨0x18A4, 1, 4, 1, 65536, 0x105283C, 0xFFFFFFFF, 0x0, 0x0, .supervisor, .any⟩,
  /- THERM_CFG -/ ⟨0x18B0, 1, 4, 1, 65536, 0x695A0000, 0xFFFF0000, 0x0, 0x0, .supervisor, .any⟩,
  /- DROOP_CFG -/ ⟨0x18B4, 1, 4, 1, 65536, 0x70040, 0xFFFFFF, 0x0, 0x0, .supervisor, .any⟩,
  /- PWR_COORD -/ ⟨0x18C0, 1, 4, 1, 65536, 0x0, 0xFFFFFFFF, 0x0, 0x0, .supervisor, .any⟩,
  /- PWR_GROUP_CFG -/ ⟨0x18C4, 1, 4, 1, 65536, 0x0, 0xC001FFFF, 0x0, 0x0, .supervisor, .any⟩,
  /- PWR_SHIFT_CFG -/ ⟨0x18C8, 1, 4, 1, 65536, 0x32, 0xFFFFFFFF, 0x0, 0x0, .supervisor, .any⟩,
  /- PWR_SLACK_CFG -/ ⟨0x18CC, 1, 4, 1, 65536, 0x100064, 0xFFFFFFFF, 0x0, 0x0, .supervisor, .any⟩,
  /- PWR_BAR_MASK -/ ⟨0x18D0, 2, 4, 1, 65536, 0x0, 0xFFFFFFFF, 0x0, 0x0, .supervisor, .any⟩,
  /- PWR_SHIFT -/ ⟨0x18D8, 1, 4, 1, 65536, 0x0, 0x0, 0x0, 0x0, .supervisor, .any⟩,
  /- PWR_GROUP_RESET_CNT -/ ⟨0x18DC, 1, 4, 1, 65536, 0x0, 0xFFFFFFFF, 0x0, 0x0, .supervisor, .any⟩,
  /- JOB_E_SEL -/ ⟨0x1900, 1, 4, 1, 65536, 0x0, 0xFFFF, 0x0, 0x0, .supervisor, .any⟩,
  /- JOB_E_LO -/ ⟨0x1904, 1, 4, 1, 65536, 0x0, 0x0, 0x0, 0x0, .supervisor, .any⟩,
  /- JOB_E_HI -/ ⟨0x1908, 1, 4, 1, 65536, 0x0, 0x0, 0x0, 0x0, .supervisor, .any⟩,
  /- JOB_E_CTRL -/ ⟨0x190C, 1, 4, 1, 65536, 0x0, 0x0, 0x40000000, 0x80000000, .supervisor, .any⟩,
  /- DIE_E_UNATTR_LO -/ ⟨0x1910, 1, 4, 1, 65536, 0x0, 0xFFFFFFFF, 0x0, 0x0, .supervisor, .any⟩,
  /- DIE_E_UNATTR_HI -/ ⟨0x1914, 1, 4, 1, 65536, 0x0, 0xFFFFFFFF, 0x0, 0x0, .supervisor, .any⟩,
  /- ENERGY_MODEL -/ ⟨0x1920, 1, 4, 1, 65536, 0x12040400, 0xFFFFFFFF, 0x0, 0x0, .supervisor, .any⟩,
  /- ENERGY_MODEL2 -/ ⟨0x1924, 1, 4, 1, 65536, 0x1000000, 0xFFFF0000, 0x0, 0x0, .supervisor, .any⟩,
  /- COOLANT_STAT -/ ⟨0x1930, 1, 4, 1, 65536, 0x0, 0x0, 0x40000000, 0x0, .supervisor, .any⟩,
  /- COOLANT_NT_LO -/ ⟨0x1934, 1, 4, 1, 65536, 0x0, 0x0, 0x0, 0x0, .supervisor, .any⟩,
  /- COOLANT_NT_HI -/ ⟨0x1938, 1, 4, 1, 65536, 0x0, 0x0, 0x0, 0x0, .supervisor, .any⟩,
  /- PANEL_CFG -/ ⟨0x1A00, 16, 16, 1, 65536, 0xE0010064, 0xE7FFFFFF, 0x0, 0x0, .supervisor, .any⟩,
  /- PANEL_STAT -/ ⟨0x1A04, 16, 16, 1, 65536, 0x0, 0x0, 0x38000000, 0x0, .supervisor, .any⟩,
  /- PANEL_WAKE_CNT -/ ⟨0x1A08, 16, 16, 1, 65536, 0x0, 0xFFFFFFFF, 0x0, 0x0, .supervisor, .any⟩,
  /- PANEL_STRETCH_CNT -/ ⟨0x1A0C, 16, 16, 1, 65536, 0x0, 0xFFFFFFFF, 0x0, 0x0, .supervisor, .any⟩,
  /- TRACE_CTRL -/ ⟨0x8000, 1, 4, 1, 65536, 0x0, 0x3, 0x0, 0xC0000000, .supervisor, .any⟩,
  /- TRACE_STAT -/ ⟨0x8004, 1, 4, 1, 65536, 0x0, 0x0, 0x60000000, 0x0, .supervisor, .any⟩,
  /- TRACE_POST -/ ⟨0x8008, 1, 4, 1, 65536, 0x3000, 0x3FFF, 0x0, 0x0, .supervisor, .any⟩,
  /- TRACE_SYNC -/ ⟨0x800C, 1, 4, 1, 65536, 0x64, 0xFFFF, 0x0, 0x0, .supervisor, .any⟩,
  /- TRACE_INSN_EN -/ ⟨0x8010, 1, 4, 1, 65536, 0x0, 0x1FFFF, 0x0, 0x0, .supervisor, .any⟩,
  /- TRACE_EVT_EN -/ ⟨0x8014, 1, 4, 1, 65536, 0x0, 0xFFFFFFFF, 0x0, 0x0, .supervisor, .any⟩,
  /- TRACE_MARK -/ ⟨0x8018, 1, 4, 1, 65536, 0x0, 0x0, 0x0, 0x0, .supervisor, .any⟩,
  /- TRACE_LOST_CNT -/ ⟨0x801C, 1, 4, 1, 65536, 0x0, 0xFFFFFFFF, 0x0, 0x0, .supervisor, .any⟩,
  /- TRIG_CFG -/ ⟨0x8020, 4, 16, 1, 65536, 0x0, 0xE0000000, 0x0, 0x0, .supervisor, .any⟩,
  /- TRIG_ARG -/ ⟨0x8024, 4, 16, 1, 65536, 0x0, 0xFFFFFFFF, 0x0, 0x0, .supervisor, .any⟩,
  /- TRIG_NT_LO -/ ⟨0x8028, 4, 16, 1, 65536, 0x0, 0xFFFFFFFF, 0x0, 0x0, .supervisor, .any⟩,
  /- TRIG_NT_HI -/ ⟨0x802C, 4, 16, 1, 65536, 0x0, 0xFFFFFFFF, 0x0, 0x0, .supervisor, .any⟩,
  /- PROBE_CFG -/ ⟨0x8060, 8, 16, 1, 65536, 0x0, 0xFFFFF800, 0x0, 0x0, .supervisor, .any⟩,
  /- PROBE_MATCH -/ ⟨0x8064, 8, 16, 1, 65536, 0x0, 0x1FF0FFF, 0x0, 0x0, .supervisor, .any⟩,
  /- PROBE_HIT_CNT -/ ⟨0x8068, 8, 16, 1, 65536, 0x0, 0xFFFFFFFF, 0x0, 0x0, .supervisor, .any⟩]
/-- Region 0x03: the die-level blocks, part 5. -/
def dieRegs5 : List RegSpec := [
  /- TRACE_RD_SEL -/ ⟨0x8100, 1, 4, 1, 65536, 0x0, 0x3FFF, 0x0, 0x0, .supervisor, .any⟩,
  /- TRACE_RD_DATA -/ ⟨0x8104, 4, 4, 1, 65536, 0x0, 0x0, 0x0, 0x0, .supervisor, .any⟩,
  /- CMAP_STAT -/ ⟨0x8200, 1, 4, 1, 65536, 0x0, 0xFFFF, 0x80000000, 0x0, .supervisor, .any⟩,
  /- CMAP_LAST -/ ⟨0x8204, 1, 4, 1, 65536, 0x0, 0x0, 0x0, 0x0, .supervisor, .any⟩,
  /- RED_CFG -/ ⟨0x0C0C, 1, 4, 1, 65536, 0x20, 0xFFFF, 0x0, 0x0, .supervisor, .any⟩,
  /- RED_STAT -/ ⟨0x0C10, 1, 4, 1, 65536, 0x0, 0x0, 0xF, 0x0, .supervisor, .any⟩,
  /- RED_FLUSH_CNT -/ ⟨0x0C14, 1, 4, 1, 65536, 0x0, 0xFFFFFFFF, 0x0, 0x0, .supervisor, .any⟩,
  /- RED_OVF_CNT -/ ⟨0x0C18, 1, 4, 1, 65536, 0x0, 0xFFFFFFFF, 0x0, 0x0, .supervisor, .any⟩,
  /- RED_MISMATCH_SIG -/ ⟨0x0C1C, 1, 4, 1, 65536, 0x0, 0x0, 0x0, 0x0, .supervisor, .any⟩]
/-- Region 0x03: the die-level blocks. -/
def dieRegs : List RegSpec := dieRegs1 ++ dieRegs2 ++ dieRegs3 ++ dieRegs4 ++ dieRegs5
/-- Region 64, the model's own: what an index register selects, one set for each position, part 1. -/
def windowRegs1 : List RegSpec := [
  /- W_RED_TREE -/ ⟨0x0000, 64, 4, 1, 65536, 0x0, 0xE01FFFFF, 0x0, 0x0, .supervisor, .any⟩,
  /- W_RED_SIG -/ ⟨0x0100, 64, 4, 1, 65536, 0x0, 0x0, 0x0, 0x0, .supervisor, .any⟩,
  /- W_BAR_LO -/ ⟨0x0200, 64, 4, 1, 65536, 0x0, 0x1FFFFF, 0x0, 0x0, .supervisor, .any⟩,
  /- W_BAR_HI -/ ⟨0x0300, 64, 4, 1, 65536, 0x0, 0xFFFE0000, 0x0, 0x0, .supervisor, .any⟩,
  /- W_BAR_COUNT -/ ⟨0x0400, 64, 4, 1, 65536, 0x0, 0x0, 0x0, 0x0, .supervisor, .any⟩,
  /- W_WASH_LAND -/ ⟨0x0500, 16, 4, 1, 65536, 0x0, 0xBFFC0000, 0x40000000, 0x0, .supervisor, .any⟩,
  /- W_WASH_LOSS -/ ⟨0x0540, 1, 4, 1, 65536, 0x0, 0xFFFFFFFF, 0x0, 0x0, .supervisor, .any⟩,
  /- W_BAR_LATE -/ ⟨0x0544, 1, 4, 1, 65536, 0x0, 0xFFFFFFFF, 0x0, 0x0, .supervisor, .any⟩,
  /- W_RED_CFG -/ ⟨0x0550, 1, 4, 1, 65536, 0x20, 0xFFFF, 0x0, 0x0, .supervisor, .any⟩,
  /- W_RED_STAT -/ ⟨0x0554, 1, 4, 1, 65536, 0x0, 0x0, 0xF, 0x0, .supervisor, .any⟩,
  /- W_RED_FLUSH -/ ⟨0x0558, 1, 4, 1, 65536, 0x0, 0xFFFFFFFF, 0x0, 0x0, .supervisor, .any⟩,
  /- W_RED_OVF -/ ⟨0x055C, 1, 4, 1, 65536, 0x0, 0xFFFFFFFF, 0x0, 0x0, .supervisor, .any⟩,
  /- W_RED_MSIG -/ ⟨0x0560, 1, 4, 1, 65536, 0x0, 0x0, 0x0, 0x0, .supervisor, .any⟩,
  /- W_BYP_MAP -/ ⟨0x0800, 64, 4, 2, 256, 0x0, 0x100FF, 0x0, 0x0, .supervisor, .any⟩,
  /- W_CTX -/ ⟨0x1000, 16, 4, 64, 64, 0x0, 0xFFFFFFFF, 0x0, 0x0, .supervisor, .any⟩]
/-- Region 64, the model's own: what an index register selects, one set for each position. -/
def windowRegs : List RegSpec := windowRegs1

/-- The table of a region's registers. -/
def regionTable (region : Nat) : List RegSpec :=
  match region with
  | 0 => routerRegs
  | 1 => tileRegs
  | 2 => edgeRegs
  | 3 => dieRegs
  | 64 => windowRegs
  | _ => []

/-- The register of a table that covers an offset. -/
def findSpec (tbl : List RegSpec) (off : Nat) : Option RegSpec := tbl.find? fun r => r.covers off

end Sys2Proof.Machine
end

