-- ==== Sys2Proof/Machine/FaultTable.lean ====
section
/-! DEFINITION. The fault sources of R400 with their default severities (R305, R329, R376 to R383, R400) and
the reset values of the registers whose reset the spec gives by table (R401, R402, R415, R421). -/
namespace Sys2Proof.Machine

namespace Src
abbrev ACCESS_UNMAPPED : Nat := 0x01
abbrev ACCESS_PRIV : Nat := 0x02
abbrev CFG_ADJUSTED : Nat := 0x03
abbrev BRINGUP_WRITE : Nat := 0x04
abbrev PKT_DISCARD : Nat := 0x05
abbrev SKETCH_DISCARD : Nat := 0x06
abbrev QUEUE_ERR : Nat := 0x07
abbrev ROUTE_TURN : Nat := 0x10
abbrev ROUTER_STARVE : Nat := 0x11
abbrev DRAIN_TIMEOUT : Nat := 0x12
abbrev ROUTE_UE : Nat := 0x13
abbrev SCHED_NONCONF : Nat := 0x14
abbrev TIME_SLICE : Nat := 0x18
abbrev TIME_LOCK : Nat := 0x19
abbrev TIME_STEP_BLOCKED : Nat := 0x1A
abbrev TIME_PARENT_LOST : Nat := 0x1B
abbrev TIME_TEMP : Nat := 0x1C
abbrev TIME_EXPIRED : Nat := 0x1D
abbrev XLATE_FAULT : Nat := 0x20
abbrev TRAY_CE : Nat := 0x21
abbrev TRAY_UE : Nat := 0x22
abbrev TRAY_ROTATE_DENIED : Nat := 0x23
abbrev TRAY_STARVE : Nat := 0x24
abbrev TRAY_OFF_ACCESS : Nat := 0x25
abbrev TRAY_RETIRE : Nat := 0x26
abbrev RING_STALL : Nat := 0x27
abbrev TILE_CLIENT_ERR : Nat := 0x28
abbrev TILE_FENCED : Nat := 0x29
abbrev MEM_UE : Nat := 0x2A
abbrev RED_SIG : Nat := 0x30
abbrev RED_UE : Nat := 0x31
abbrev RED_RETIRE : Nat := 0x32
abbrev LINK_CAL : Nat := 0x38
abbrev ODL_CE : Nat := 0x39
abbrev ODL_REPLAY : Nat := 0x3A
abbrev ODL_RETRAIN : Nat := 0x3B
abbrev ODL_RETIRE : Nat := 0x3C
abbrev LINK_REPLAY : Nat := 0x40
abbrev LINK_RETRAIN : Nat := 0x41
abbrev LINK_FAIL : Nat := 0x42
abbrev LINK_LOW_DEGRADE : Nat := 0x43
abbrev LANE_SPARED : Nat := 0x44
abbrev LANE_MISLOCK : Nat := 0x45
abbrev PHIZA_VERSION : Nat := 0x46
abbrev PARTNER_MISMATCH : Nat := 0x47
abbrev OE_TIMEOUT : Nat := 0x48
abbrev OE_BIAS_MAX : Nat := 0x49
abbrev OE_EYE_SHUT : Nat := 0x4A
abbrev CIRCUIT_MISS : Nat := 0x4B
abbrev CIRCUIT_PARTNER : Nat := 0x4C
abbrev CIRCUIT_CUT : Nat := 0x4D
abbrev SPINE_STALE : Nat := 0x4E
abbrev EASEL_WDT : Nat := 0x50
abbrev EASEL_START : Nat := 0x51
abbrev CANVAS_LOAD : Nat := 0x52
abbrev CLAIM_RETIRED : Nat := 0x53
abbrev DROOP : Nat := 0x58
abbrev DROOP_CTRL : Nat := 0x59
abbrev THERM_WARN : Nat := 0x5A
abbrev THERM_CRIT : Nat := 0x5B
abbrev BUDGET_VIOL : Nat := 0x5C
abbrev RAIL_LIMIT : Nat := 0x5D
abbrev CAP_UNATTAINABLE : Nat := 0x5E
abbrev COOLANT_STOP : Nat := 0x5F
abbrev FAULT_OVERFLOW : Nat := 0x60
abbrev PIN_SUMMARY : Nat := 0x61
abbrev WEAR_LOW : Nat := 0x62
abbrev SOAK_ERR : Nat := 0x63
end Src

/-- Default severity of a source (0 Note, 1 Minor, 2 Major, 3 Fatal); none for an unused code (R400). -/
def defaultSev (c : Nat) : Option Nat :=
  if [0x01, 0x03, 0x04, 0x14, 0x20, 0x21, 0x24, 0x39, 0x3A, 0x40, 0x45, 0x4E, 0x58, 0x63].contains c then some 0
  else if [0x02, 0x05, 0x06, 0x07, 0x11, 0x12, 0x18, 0x1A, 0x1B, 0x1C, 0x23, 0x25, 0x28, 0x29, 0x2A, 0x38, 0x3B,
    0x41, 0x43, 0x44, 0x49, 0x4B, 0x4D, 0x51, 0x53, 0x59, 0x5A, 0x5C, 0x5D, 0x5E, 0x60, 0x62].contains c then some 1
  else if [0x10, 0x13, 0x19, 0x1D, 0x22, 0x26, 0x27, 0x30, 0x31, 0x32, 0x3C, 0x42, 0x46, 0x47, 0x48, 0x4A, 0x4C,
    0x50, 0x52, 0x5B, 0x61].contains c then some 2
  else if c = 0x5F then some 3
  else none

/-- Whether a source resets with JOBFAIL = 1 (the Job column of R400). -/
def defaultJob (c : Nat) : Bool :=
  [0x10, 0x13, 0x1D, 0x22, 0x26, 0x27, 0x28, 0x29, 0x30, 0x31, 0x32, 0x3C].contains c

/-- The reaction bits [29:22] that a severity brings (R402): IRQ_EN 29, IRQ_LINE [28:27], NMI 26, ERRPIN 23. -/
def sevReactions (sev : Nat) : Nat :=
  match sev with
  | 0 => 0
  | 1 => 2 ^ 29
  | 2 => 2 ^ 29 + 2 ^ 27 + 2 ^ 23
  | _ => 2 ^ 26 + 2 ^ 23

/-- Reset value of FAULT_SRC_CFG_c (R401, R402). The fixed reactions of COOLANT_STOP are those of Fatal. -/
def srcCfgReset (c : Nat) : Nat :=
  match defaultSev c with
  | none => 0
  | some sev => sev * 2 ^ 30 + sevReactions sev + (if defaultJob c then 2 ^ 22 else 0)

/-- Reset value of RETIRE_CFG_k: LIMIT [31:24] and WINDOW_MS [23:0] (R415). -/
def retireReset (k : Nat) : Nat :=
  match k with
  | 0 | 1 | 2 | 7 => 3 * 2 ^ 24 + 10000
  | 3 => 8 * 2 ^ 24 + 1000
  | 4 => 4 * 2 ^ 24 + 1000
  | 5 | 6 => 2 * 2 ^ 24 + 1000
  | _ => 0

/-- Reset value of WEAR_IND_CFG for an indicator: WORN [31:16], GOOD [15:0] (R421). -/
def indReset (i : Nat) : Nat :=
  match i with
  | 0 => 80 * 2 ^ 16
  | 1 => 10000 * 2 ^ 16
  | 2 => 24 * 2 ^ 16
  | 3 => 1000 * 2 ^ 16
  | 4 => 1000 * 2 ^ 16 + 500
  | 5 => 1000 * 2 ^ 16
  | _ => 0

end Sys2Proof.Machine
end

