-- ==== Sys2Proof/Config.lean ====
section
/-! DEFINITION. What an instance fixes (the fused CONFIG word of R334, legal under R482, R483) and the free values:
constants with no body, so that no proof can see what they are. -/
namespace Sys2Proof.Config

/-- The fine part of a time-stamp, 0 to 159 NT units after the last AON edge (R111): the manual leaves the instant
of a capture inside its AON cycle open. Applied to the state's `fresh` counter. Free value, log entry 3. -/
opaque fineRaw : Nat → Nat

/-- The fine part, held to the range R111 gives it. -/
def fine (n : Nat) : Nat := fineRaw n % 160

/-- CLASS of a CMPL or READ_RSP that the block creates: no rule of the spec gives it. Free value, log entry 4. -/
opaque answerClass : Nat → BitVec 3

/-- The tray offset from which a spine SUBROOT or DISTRIBUTOR addresses the chunks it sends: the manual lets DST_OFF
differ at these tiles and gives no other base. Applied to the command and the target. Free value, log entry 9. -/
opaque distBase : BitVec 512 → BitVec 32 → Nat

/-- UNCTRL in 0.1 W: the estimate of the draw that the steward does not throttle, for which no rule gives a formula
(R383). Applied to the state's `fresh` counter. Free value, log entry 31. -/
opaque uncontrolled : Nat → BitVec 16

/-- The activity of a rail's own logic over one microsecond in mW: R381 names the model, not its terms. Applied to the
rail and the `fresh` counter. Free value, log entry 31. -/
opaque railActivity : Nat → Nat → Nat

/-- I_EST's sample of a rail whose VOLT is 0, for which no rule gives a quotient (R381). Free value, log entry 31. -/
opaque railNoVolt : Nat → Nat → Nat

/-- A panel's ring-oscillator delay shift in 0.1 % units, as the master core measures it: the manual gives the measure,
not the silicon (R421). Applied to the panel and the `fresh` counter. Free value, log entry 35. -/
opaque ageing : Nat → Nat → Nat

/-- A wear ratio whose divisor is 0, for which no rule states a result: BIAS_RATIO before the first READ_MON, SYM_RATE
with SER_LIMIT 0 (R421). Applied to the indicator and the `fresh` counter. Free value, log entry 35. -/
opaque noRatio : Nat → Nat → Nat

/-- What an easel core's firmware and its instructions make of a register, a PC or a memory word: the manual gives the
core's interface, not the code it runs (R37, R453). Applied to the `fresh` counter and a place. Free value, log entry 33. -/
opaque easel : Nat → Nat → Word

/-- Where an easel core's own address map puts its data memory, and the breakpoint a core meets first: the manual gives
the sizes alone (R37, R453). Free value, log entry 33. -/
opaque easelDataBase : Nat

/-- Bytes that half the flash holds beyond the smallest image: the integrator's device decides (R337). Log entry 38. -/
opaque flashSpare : Nat
/-- Half the density of the flash as its SFDP reports it, in bytes: at least the 96 B of a header and an END record, since
the density is at least twice the image (R337, R340). Log entry 38. -/
def flashHalf : Nat := flashSpare + 96

/-- Whether SFDP offers 8D-8D-8D reads (R338). Log entry 38. -/
opaque flashOctal : Bool

/-- Whether the instance is on the 5 nm-class process, whose fast clock is at most 1,700 MHz (R366). Log entry 38. -/
opaque process5 : Bool

/-- JTAG_MFR, the tie-off that IDCODE shows (R452, R479). An instance's constant, log entry 38. -/
opaque jtagMfr : BitVec 11

/-- The spine port group by which a sketch flit for another die leaves this one: the manual says that it leaves on a
spine lane, not on which (R32). Applied to the die id; held to the groups that exist. Free value, log entry 42. -/
opaque sketchExit : Nat → Nat

/-- Rows of the mesh (R334). -/
def rows (c : Word) : Nat := (c.toNat) % 32 + 1
/-- Physical columns of the mesh, spares included (R334). -/
def cols (c : Word) : Nat := (c.toNat >>> 5) % 32 + 1
/-- Spare positions for each row (R334). -/
def spares (c : Word) : Nat := (c.toNat >>> 10) % 4
/-- Memory ports (R334). -/
def mports (c : Word) : Nat := (c.toNat >>> 12) % 32
/-- Spine port groups (R334). -/
def spgroups (c : Word) : Nat := (c.toNat >>> 17) % 128
/-- TRAY code (R334). -/
def trayCode (c : Word) : Nat := (c.toNat >>> 24) % 4
/-- Bytes of one tray (R334). -/
def trayBytes (c : Word) : Nat := 2 ^ (18 + trayCode c)
/-- The spine role (R334). -/
def spineRole (c : Word) : Bool := c.toNat.testBit 26
/-- Routers of the mesh, the count R410 uses. -/
def routers (c : Word) : Nat := rows c * cols c
/-- Logical columns of a row. -/
def logicalCols (c : Word) : Nat := cols c - spares c

/-- The panel shapes in the order R483 tries them. -/
def panelShapes : List (Nat × Nat) := [(4, 4), (4, 6), (4, 8), (8, 4), (8, 6), (8, 8)]

/-- Whether a panel shape fits (R483). -/
def shapeFits (c : Word) (h w : Nat) : Bool :=
  rows c % h == 0 && cols c % w == 0 && (rows c / h) * (cols c / w) ≤ 16

/-- The panel shape: the first that fits (R483). -/
def panelShape (c : Word) : Option (Nat × Nat) := panelShapes.find? fun s => shapeFits c s.1 s.2

/-- Panels of the die. -/
def panels (c : Word) : Nat :=
  match panelShape c with
  | some (h, w) => (rows c / h) * (cols c / w)
  | none => 0

/-- The panel that holds a position (R21, R308, R483). -/
def panelOf (c : Word) (row col : Nat) : Nat :=
  match panelShape c with
  | some (h, w) => (row / h) * (cols c / w) + col / w
  | none => 0

/-- The legality of CONFIG (R482, R485): `true` where bring-up proceeds past FUSE. -/
def legal (c : Word) : Bool :=
  let r := rows c; let k := cols c; let s := spares c; let m := mports c; let g := spgroups c
  fldZero c && 4 ≤ r && 4 ≤ k && trayCode c < 3 && s < 3 && m ≤ 24 && g ≤ 64 && (panelShape c).isSome &&
    (if spineRole c then
      r == k && r % 4 == 0 && r ≤ 16 && s == 0 && trayCode c == 2 && m == 0 && g == 4 * r
    else
      r % 4 == 0 && (k % 4 == 0 || k % 6 == 0) && s + 4 ≤ k && m % 2 == 0 && m ≤ r && g % 2 == 0 && g ≤ 2 * (k - 2))
where
  /-- The reserved bits [31:27] are 0. -/
  fldZero (c : Word) : Bool := c.toNat >>> 27 == 0

/-- The CONFIG of the A-configuration (R334). -/
def aConfig : Word := 0x01410A2F#32
/-- The CONFIG of the S-configuration (R334). -/
def sConfig : Word := 0x068001EF#32

/-- The kind of edge port at a position's side. -/
inductive EdgePort where
  | none
  | memory (k half : Nat)   -- MPk, half 0 at its even row, 1 at its odd row (R470)
  | host (k : Nat)          -- HPk
  | spine (g : Nat)         -- SPg
  | ax (k : Nat)            -- AXk, reserved (R23)
deriving DecidableEq, Repr

/-- The i-th spine group of an accelerator edge row: columns in ascending order, host and AX columns left out (R484). -/
def accSpineIndex (c : Word) (col : Nat) : Option Nat :=
  let h := cols c / 2 - 1
  if col < h then some col
  else if col ≤ h + 1 then none
  else some (col - 2)

/-- The edge port on a side (0 north, 1 east, 2 south, 3 west) of a position (R22, R24, R484; host access R309). -/
def edgePort (c : Word) (row col side : Nat) : EdgePort :=
  let R := rows c; let C := cols c
  if spineRole c then
    if side = 0 ∧ row = 0 then .spine col
    else if side = 1 ∧ col + 1 = C then .spine (C + row)
    else if side = 2 ∧ row + 1 = R then .spine (C + R + col)
    else if side = 3 ∧ col = 0 then .spine (2 * C + R + row)
    else .none
  else
    let half := mports c / 2
    if side = 3 ∧ col = 0 then (if row / 2 < half then .memory (row / 2) (row % 2) else .none)
    else if side = 1 ∧ col + 1 = C then (if row / 2 < half then .memory (half + row / 2) (row % 2) else .none)
    else if (side = 0 ∧ row = 0) ∨ (side = 2 ∧ row + 1 = R) then
      let bottom := if side = 0 then 0 else 1
      if col = C / 2 - 1 then .host bottom
      else if col = C / 2 then .ax bottom
      else match accSpineIndex c col with
        | some i => if i < spgroups c / 2 then .spine (bottom * (spgroups c / 2) + i) else .none
        | none => .none
    else .none

/-- Every (row, col, side) that carries an edge port. -/
def edgeSites (c : Word) : List (Nat × Nat × Nat) :=
  ((List.range (rows c)).flatMap fun r => (List.range (cols c)).flatMap fun k =>
    (List.range 4).map fun s => (r, k, s)).filter fun x => edgePort c x.1 x.2.1 x.2.2 != .none

/-- Where a spine group attaches: (row, col, side). -/
def spineSite (c : Word) (g : Nat) : Option (Nat × Nat × Nat) :=
  let R := rows c; let C := cols c
  if spineRole c then
    if g < C then some (0, g, 0)
    else if g < C + R then some (g - C, C - 1, 1)
    else if g < 2 * C + R then some (R - 1, g - C - R, 2)
    else if g < 2 * C + 2 * R then some (g - 2 * C - R, 0, 3)
    else none
  else
    let half := spgroups c / 2
    let column (i : Nat) : Nat := if i < C / 2 - 1 then i else i + 2
    if g < half then some (0, column g, 0)
    else if g < spgroups c then some (R - 1, column (g - half), 2)
    else none

/-- Whether the mesh link on a side of a position exists (R70). -/
def hasLink (c : Word) (row col side : Nat) : Bool :=
  match side with
  | 0 => decide (0 < row)
  | 1 => decide (col + 1 < cols c)
  | 2 => decide (row + 1 < rows c)
  | 3 => decide (0 < col)
  | _ => false

/-- Whether the mesh link on a side is dual-lane (R18, R24, R484). -/
def dualLane (c : Word) (row col side : Nat) : Bool :=
  hasLink c row col side &&
    (spineRole c ||
      (side == 1 && (col == 0 || col + 2 == cols c)) ||
      (side == 3 && (col == 1 || col + 1 == cols c)))

end Sys2Proof.Config
end

