-- ==== Sys2Proof/Machine/Store.lean ====
section
/-! DEFINITION. Sparse stores: a list of key and value pairs in ONE canonical form, keys strictly rising and no
entry equal to what an unlisted key reads as, so that equal stores are equal data. Trays, registers and every table
that the block indexes are held so. -/
namespace Sys2Proof.Machine

/-- A sparse store; what an unlisted key reads as is given at each use. -/
abbrev Store (α : Type) := List (Nat × α)

namespace Store
variable {α : Type}

/-- The listed value of a key. -/
def find? (m : Store α) (k : Nat) : Option α :=
  match m with
  | [] => none
  | (k', v) :: m' => if k' = k then some v else find? m' k

/-- The value of a key; an unlisted key reads as `d`. -/
def get (m : Store α) (d : α) (k : Nat) : α := (find? m k).getD d

/-- Lists a value under a key, keeping the keys rising. -/
def put (m : Store α) (k : Nat) (v : α) : Store α :=
  match m with
  | [] => [(k, v)]
  | (k', v') :: m' =>
    if k < k' then (k, v) :: (k', v') :: m'
    else if k = k' then (k, v) :: m'
    else (k', v') :: put m' k v

/-- Unlists a key. -/
def del (m : Store α) (k : Nat) : Store α :=
  match m with
  | [] => []
  | (k', v') :: m' => if k' = k then del m' k else (k', v') :: del m' k

/-- Writes a value; a value equal to what an unlisted key reads as is not listed. -/
def set [DecidableEq α] (m : Store α) (d : α) (k : Nat) (v : α) : Store α :=
  if v = d then del m k else put m k v

/-- The listed pairs whose key passes a test. -/
def keep (m : Store α) (p : Nat → Bool) : Store α := m.filter fun kv => p kv.1

/-- The canonical form: keys strictly rising, and no value equal to its key's default. -/
def wf [DecidableEq α] (d : Nat → α) (m : Store α) : Bool :=
  match m with
  | [] => true
  | (k, v) :: m' => decide (v ≠ d k) && m'.all (fun kv => decide (k < kv.1)) && wf d m'

end Store

end Sys2Proof.Machine
end

