-- ==== Sys2Proof/Machine/State.lean ====
section
/-! DEFINITION. The state of the block: every register, buffer, counter, mode and pin the spec gives it, as plain
data, with the queue of waiting commands. -/
namespace Sys2Proof.Machine

/-- Why the block stops. No constructor is raised by a command of this model on a path the spec gives an effect. -/
inductive Fault where
  /-- Raised by no meaning at present; safe: it claims nothing. -/
  | outsideSpec
deriving DecidableEq, Repr

/-- Why a command is turned away. -/
inductive Refusal where
  /-- A command whose meaning is not written yet, rejected by its mnemonic; safe: nothing follows from it. -/
  | notModelled (mnemonic : String)
deriving DecidableEq, Repr

/-! ### The data mesh (hidden state of R459) -/

/-- A data-mesh flit: its packet, its index (0 is the head) and whether a router of this die has already computed
multicast legs for it (R83). -/
structure Flit where
  pkt : Pkt
  idx : Nat
  mc  : Bool
deriving DecidableEq, Repr

/-- One output that a packet's flits take at a router, with the header that leaves there. -/
structure Leg where
  out  : Nat    -- output index of R70; lane 0's index while the lane is open
  free : Bool   -- a dual-lane output whose lane is not chosen yet (R75)
  entry : Nat   -- the route-entry index it came from, which a spine group's egress table uses (R312)
  pkt  : Pkt
deriving DecidableEq, Repr

/-- What a router decided for the packet at the front of a VC (R72, R76). -/
structure Route where
  legs     : List Leg
  sent     : Nat     -- flits that have crossed (R101)
  closed   : Bool    -- a CLOSED_WAIT event was counted here (R141)
  contend  : Bool    -- a CONTEND event was counted here (R141)
  shuts    : List (Nat × Nat)  -- (output, NT): the close of the window in which the head of a gated VC crossed (R141)
deriving DecidableEq, Repr

/-- One input buffer of a router: one VC and lane (R88). -/
structure VcBuf where
  buf      : List Flit
  feed     : List Flit        -- at LOCAL and edge inputs: flits the port has yet to put in (R92)
  route    : Option Route
  dropping : Bool             -- the rest of a discarded packet is thrown away as it arrives (R79)
  off      : Bool             -- OFF is signalled to the sender (R89)
  wait     : Nat              -- the waiting counter (R103)
  told     : Bool             -- this starvation has been reported (R103)
  shut     : Option Nat       -- the close of the window in which the packet in `feed` was injected (R141)
deriving DecidableEq, Repr

/-- One output of a router and its arbiter. -/
structure OutPort where
  owner  : Option (Nat × Nat)   -- the (input, VC) pair that the next cycle belongs to (R99)
  parked : Option (Nat × Nat)   -- the last owner, on which an idle grant stays parked (R100)
  lastIn : Option Nat           -- input of the last winner (R99, rule 4)
  lastVc : List (Nat × Nat)     -- for each input, the VC that last won this output
  claims : List (Nat × Nat)     -- (VC, input): the downstream VC is claimed (R88)
deriving DecidableEq, Repr

/-- The empty input buffer. -/
def VcBuf.empty : VcBuf := ⟨[], [], none, false, false, 0, false, none⟩
/-- The output as it stands after reset. -/
def OutPort.empty : OutPort := ⟨none, none, none, [], []⟩

/-- The data mesh and the ports around it. -/
structure Mesh where
  vcs      : Store VcBuf          -- key 84 * position + 6 * input + VC
  outs     : Store OutPort        -- key 14 * position + output
  lastLane : Store Nat            -- key 24 * position + 6 * side + VC: 1 + the lane chosen last (R75)
  sprayAt  : Store Nat            -- key 128 * position + 64 * bank + set: 1 + the member used last (R82)
  util     : Store Word           -- live UTIL counters, key 14 * position + output (R108)
  hist     : Store Word           -- live histograms, key 336 * position + 4 * (6 * input + VC) + bin (R108)
  intake   : Store (List Pkt)     -- whole packets at a port, key 32 * position + PORT
  egress   : Store (List (Nat × Pkt))  -- packets a spine group has received from its router, with their route-entry
                                  -- index (R312), key 32 * position + PORT
  answers  : Store (List Pkt)     -- packets a port has formed and not yet injected, key 32 * position + PORT
  msgIn    : Store (List Pkt)     -- the MSG whose head the tile port has and whose tail it has not, key position (R207)
  redIn    : Store (List Nat)     -- inputs by which the packets at a reducer's input came, key position (R78)
  redOut   : Store (List (List Nat))  -- input sides of the partials a reducer emitted, oldest first, key position (R78)
  swapPending : Bool              -- an accepted ROUTE_SWAP waits for its AON boundary (R96)
  holdSince   : Store Nat         -- key VC: AON edge count at which HOLD was set (R97)
  timedOut    : Nat               -- VCs whose drain timeout has been reported
  cmapLast    : Nat               -- the NT window index of the last snapshot (R108)
  cmapId      : Word              -- CMAP_WINDOW_ID, the same at every router (R108)
  liveCycles  : Word              -- cycles the live histograms have run
  snapCycles  : Word              -- cycles of the snapshot, from which the empty bin follows (R108)
deriving DecidableEq, Repr

/-- An empty mesh. -/
def Mesh.empty : Mesh := ⟨[], [], [], [], [], [], [], [], [], [], [], [], false, [], 0, 0, 0, 0, 0⟩

/-! ### The sketch network -/

/-- The sketch network: flits waiting at the outputs of its routers, on its links and at its endpoints. -/
structure Sketch where
  waiting : Store (List SFlit)    -- key 15 * position + 3 * output + KVC; outputs 0 local, 1 north, 2 east, 3 south, 4 west
  k0Wait  : Store Nat             -- key 5 * position + output: cycles K0 has waited behind K1 or K2 (R29)
  links   : List (Nat × SFlit)    -- flits on their way into the router of a position
  arrived : List (Nat × SFlit)    -- flits delivered at a position and not yet acted on
  edge    : Store (List SFlit)    -- flits that wait at a spine group to leave the die (R32), key group
deriving DecidableEq, Repr

/-- The idle sketch network. -/
def Sketch.empty : Sketch := ⟨[], [], [], [], []⟩

/-! ### Network time -/

/-- What a die knows of a parent die through one spine port group (R118, R119, R123). -/
structure Parent where
  delays : List Int      -- the last 16 measurements of D, newest first
  errs   : List Int      -- e at the last beacons, newest first
  good   : Nat           -- consecutive beacons with |e| at most 2
  missed : Nat           -- reverse beacons sent since the last valid answer; the newest is not yet due
  valid  : Bool          -- the last beacon was valid and its state one that can be followed
  state  : Nat           -- STATE the parent reported; 15 before its first beacon
  depth  : Nat           -- DEPTH the parent reported
  hold   : Nat           -- HOLD_US the parent reported
  lastE  : Int           -- the last e
deriving DecidableEq, Repr

/-- A parent nothing is known of. -/
def Parent.unknown : Parent := ⟨[], [], 0, 0, false, 15, 0, 0, 0⟩

/-- The entry a stencil sequencer holds for one gated point (R130). -/
structure GateNow where
  index : Nat
  entry : BitVec 64     -- the entry as the sequencer read it
  opens : Int           -- NT at which the entry began; negative where its cycle began before NT 0 (R130)
deriving DecidableEq, Repr

/-- Network time, the stencils and the shapers. -/
structure Time where
  nt        : BitVec 64
  frac      : BitVec 32              -- fraction bits below NT bit 0 (R110)
  edges     : Nat                    -- AON edges since PORST_N
  slew      : Int                    -- NT units still to add (positive) or remove (negative) (R110)
  slewDiv   : Nat                    -- AON cycles since the last slewed unit
  setLoad   : Option (BitVec 64)     -- an accepted TIME_SET, loaded at the next AON edge (R142)
  idLoad    : Option (BitVec 17)     -- a written DIE_ID, applied at the next AON edge (R46)
  dieId     : BitVec 17              -- the DIE_ID in use at the routers and ports
  incrHist  : List Nat               -- TIME_INCR (in 2^-32 units) of the last 16 beacon periods (R121)
  parent    : Parent
  backup    : Parent
  refMissed : Nat                    -- TIMEREF_IN edges missing in a row (R117)
  holdEdge  : Nat                    -- AON edge count at which the holdover began
  holdBase  : Nat                    -- HOLD_US taken over from a parent (R123)
  gates     : Store GateNow          -- the entry in use, key 32 * position + POINT
  stencils  : Store (BitVec 64)      -- entries, key 256 * (32 * (1024 * bank + position) + POINT) + INDEX
  wash      : Option Nat             -- the position of the writer now named (R133, R134)
  washBy    : Bool                   -- it is named by the wash stencil, not by WASH_OWNER
  washPrev  : Option Nat             -- the last writer before it
  washPrevBy : Bool                  -- that writer was named by the wash stencil
  washClose : Nat                    -- NT at which that writer's window closed
  washBeat  : Option Nat             -- NT of the last beat any writer injected
  expired   : Bool                   -- EXPIRED was entered and LOCKED has not been reached since (R126)
deriving DecidableEq, Repr

/-! ### Faults -/

/-- Which kind of block raised a fault (R403). -/
inductive BlockKind where
  | tilePort | reducer | easel (core : Nat) | spineGroup (g : Nat) | memoryPort (side : Nat) | hostPort (side : Nat)
  | router | sketchRouter | die
deriving DecidableEq, Repr

/-- A fault record on its way to, or at, the fault collector (R396, R407). -/
structure FaultRec where
  source : BitVec 8
  unit   : BitVec 8
  temp   : BitVec 8
  lvl    : BitVec 8
  tstamp : BitVec 64
  entry  : BitVec 8
  noStencil : Bool
  ctx    : BitVec 12
  arg0   : BitVec 64
  arg1   : BitVec 64
  pos    : Nat          -- the raising position, in SRC
  block  : BlockKind
deriving DecidableEq, Repr

/-- A record as the collector leaves it: with byte 36 of R407. -/
structure LogRec where
  what      : FaultRec
  sev       : Nat
  escalated : Bool
  pin       : Bool
  blockNa   : Bool
  chipHeld  : Bool
  merged    : Bool
deriving DecidableEq, Repr

/-- One event that counts toward a retirement (R415): kind, part, and the time in ms. -/
structure PartEvent where
  kind : Nat
  part : Nat
  ms   : Nat
  info : Nat           -- a tray bank's row, as TRAY_RETIRE names it (R396)
deriving DecidableEq, Repr

/-- The fault collector and the health records. -/
structure Faults where
  inFlight  : List FaultRec        -- raised, not yet at the collector
  wires     : Store (Nat × Nat)    -- summary wires, key position: (level, AON edge) of the last rise (R398)
  queue     : List LogRec          -- the AON record queue (R407), oldest first
  log       : Store LogRec         -- the fault log, key index (R407)
  lastMinor : Nat                  -- AON edge of the last record of Minor or above (R411)
  pinEdge   : Nat                  -- AON edge of the last ERRPIN reaction (R405)
  pinRelease : Bool                -- a RELEASE is pending (R405)
  chipReset : Option Nat           -- AON edge at which a chip reset request was latched (R404)
  events    : List PartEvent       -- events inside their windows (R415)
  retired   : List (Nat × Nat)     -- retired parts: (kind, part) (R416)
  training  : List (Nat × Nat)     -- on-die links that retrain (R414)
  cerr      : Store Nat            -- error line levels, key position (R399)
  wdtLast   : Store Nat            -- AON edge of each easel core's last watchdog expiry (R39)
  tags      : Store Word           -- temperature bins, key 16 * panel + 8 * kind + bin (R425)
  entryCnt  : Store Word           -- per-entry error counters, key entry (R426)
  ceCount   : Store Nat            -- corrected blocks of each part: key 2^24 * KIND + part (R421)
  reCount   : Store Nat            -- retrains of each part (R421)
  scores    : Store (Nat × Nat)    -- score and worst indicator of each part, key 2^24 * KIND + part (R421)
  wearTold  : List Nat             -- parts for which WEAR_LOW was raised (R422)
  indCfg    : Store Word           -- WEAR_IND_CFG of each indicator (R421)
  soakEnd   : Nat                  -- AON edge at which the soak ends (R427)
deriving DecidableEq, Repr

/-- The fault collector after PORST_N. -/
def Faults.empty : Faults :=
  ⟨[], [], [], [], 0, 0, false, none, [], [], [], [], [], [], [], [], [], [], [], [], 0⟩

/-- Network time after PORST_N: NT 0, FREE, DIE_ID unassigned (R46, R121, R142). -/
def Time.reset : Time :=
  ⟨0, 0, 0, 0, 0, none, none, 0x1FFFF, [], Parent.unknown, Parent.unknown, 0, 0, 0, [], [], none, false, none, false, 0,
    none, false⟩

/-! ### Register requests -/

/-- A register request of a host port, performed by its block and not yet answered at the port (R30, R458, R460). -/
structure HostReq where
  port   : Nat
  tag    : BitVec 16
  addr   : Word
  write  : Bool
  data   : Word
  status : Nat
deriving DecidableEq, Repr

/-! ### Reducers (R232 to R238) -/

/-- A slot of a reducer (R232): its key, merged value and bookkeeping. -/
structure RedSlot where
  tag     : BitVec 16
  group   : Nat           -- slot group: first element, in units of 16 (ELEM_OFFSET)
  first   : Pkt           -- header of the first contribution (R234)
  acc     : List (BitVec 64)   -- merged elements: carry words, or FP32 bits in compact mode
  count   : Nat           -- contributions merged, in CONTRIB units
  sides   : List Nat      -- input sides absorbed (R78)
  deadline : BitVec 16    -- most urgent DEADLINE among the contributions (R137)
  born    : Nat           -- control-clock cycle of its allocation (R235)
deriving DecidableEq, Repr

/-! ### Trays, the processor port, swatches and message rings -/

/-- A response of the tray processor port (R467). -/
structure TppRsp where
  pos  : Nat
  id   : Nat
  data : List Byte
  err  : Bool
deriving DecidableEq, Repr

/-- The trays and what stands around them. -/
structure Trays where
  mem      : Store Byte             -- every tray byte, key 2^20 * position + physical offset; unlisted bytes are 0
  bad      : Store (BitVec 288)     -- error pattern of a stored codeword (R69), key 2^15 * position + word
  tppRsp   : List TppRsp            -- responses given and not yet superseded, newest first (one for each position)
  swRuns   : Store Nat              -- DONEs of a swatch unit since SYSRST_N, key 4 * position + unit (R441)
  swScan   : List Nat               -- swatch units whose scan runs, 4 * position + unit
  lastAlloc : Store (Nat × Nat)     -- a slot's last allocation: base and length, key 64 * position + slot (R187)
  scrubbing : Store Nat             -- 1 + slot being scrubbed, key position (R187)
  wellDone : Store Nat              -- elements applied since EN, key 16 * position + well (R211)
deriving DecidableEq, Repr

/-- Trays as they stand after reset. -/
def Trays.empty : Trays := ⟨[], [], [], [], [], [], [], []⟩

/-! ### Engines, contexts and collectives -/

/-- A walk of the translation tables (R178, R180): the chunk's address, the table to read next, and how it ended. -/
structure Walk where
  va    : Nat
  level : Nat
  port  : Nat       -- memory port of the table to read
  addr  : Nat       -- address of the entry to read
  asked : Bool      -- the READ_REQ has been formed and not yet answered
  kind  : Nat       -- 0 while the walk runs, 7 for a leaf, else the KIND of R182
  leaf  : BitVec 64
deriving DecidableEq, Repr

/-- An entry of the translation cache (R180): page and leaf of a slot's context. -/
structure TlbEntry where
  ctx  : Nat
  page : Nat        -- VA of the page's first byte
  bits : Nat        -- 16 or 21: the page is 2^bits bytes
  leaf : BitVec 64
deriving DecidableEq, Repr

/-- What a collective agent keeps of its command (R245 to R267). Ring fields count ring chunks. -/
structure Coll where
  index  : Nat            -- first index n
  nroot  : Nat
  me     : Nat            -- own member index
  sent   : Nat            -- chunks begun (ring: chunks sent)
  run    : Nat            -- chunks completed in one unbroken run (ring: received)
  got    : Store Nat      -- arrivals of each chunk (ring: bytes landed)
  due    : Store Nat      -- 1 + deadline of each step begun and not completed
  outq   : List Pkt       -- packets formed and not yet injected
  stage  : Store Nat      -- contributions merged, key 2^16 * chunk + group
  stageDue : Store Nat    -- 1 + deadline of each chunk in staging, from its first contribution
  shared : List Nat       -- chunks this sub-root has distributed
  cmplDue : Nat           -- CMPLs expected under CONFIRM
  cmplGot : Nat
  credit : Nat            -- ring: the next member's latest credit
  freed  : Nat            -- ring: chunks freed
  gen    : Nat            -- barrier generation of this command
  wave   : Option Nat     -- barrier: the NT at which it ends
deriving DecidableEq, Repr

/-- The agent's record at the start of a command. -/
def Coll.start (index nroot me : Nat) : Coll := ⟨index, nroot, me, 0, 0, [], [], [], [], [], [], 0, 0, 0, 0, 0, none⟩

/-- A command in service (R157). -/
structure Cmd where
  desc   : BitVec 512     -- the entry as taken
  entry  : Nat            -- queue entry index
  st     : Nat            -- 1 QUEUED, 2 RUNNING, 3 PAUSED
  why    : Nat            -- status code of PAUSED
  issued : Nat            -- words issued: packets sent, and those that an uncorrectable source kept from being sent
  lost   : Nat            -- words among them whose packets were not sent (R198)
  reads  : List (Nat × Nat × Nat)   -- outstanding reads: SEQ, first word, words
  gap    : Option Nat     -- the first word of the lowest read that failed
  fail   : Nat            -- the first failing status of its packets, 0 for none
  stop   : Nat            -- the code with which it is to end, 0 for none
  prog   : Nat            -- PROGRESS last written
  kind   : Nat            -- translation fault kind (R182)
  va     : Nat            -- faulting virtual address
  fire   : Nat            -- FIRE_NT of the trigger it waits for, after the trigger has come
  walk   : Option Walk
  coll   : Option Coll
deriving DecidableEq, Repr

/-- A tile port's copy of a collective index (R244). -/
structure CollCopy where
  id      : Nat
  tree    : Nat
  sub     : Nat
  rootCtx : Nat
  distCtx : Nat
  me      : Nat
  gen     : Nat          -- barrier generation (R260)
deriving DecidableEq, Repr

/-- The registers COLL_ARM_ID, COLL_ARM_TREE, COLL_ARM_CTX and VALID of an index (R243). -/
structure ArmIndex where
  id    : Word
  tree  : Word
  ctx   : Word
  valid : Bool
deriving DecidableEq, Repr

/-- An index as it stands after reset. -/
def ArmIndex.empty : ArmIndex := ⟨0, 0, 0, false⟩

/-- The engines of every tile port. -/
structure Engines where
  cmds    : Store Cmd                -- key 256 * position + 4 * slot + queue
  tlb     : Store (List TlbEntry)    -- key position, most recently used first
  rdOut   : Store Nat                -- RD_OUT, key 64 * position + slot
  inval   : Store Nat                -- 1 while an XLATE_INV of a position runs
  lanes   : Store (List (BitVec 256 × List DataWord))  -- flits at a lane receiver, key 4 * position + side
  laneOff : Store Nat                -- 1 while a lane receiver signals OFF (R170)
  energy  : Store Nat                -- hidden fraction of ENERGY_s, pJ, key 64 * position + slot
  energyDie : Nat                    -- hidden fraction of DIE_E_UNATTR, pJ
  acks    : Store (Nat × Nat)        -- the last ARM_ACK of a position: STARTED and CTX (R172)
  arms    : Store ArmIndex           -- key index (R243)
  copies  : Store CollCopy           -- key 64 * position + index
  records : Store (List (Nat × Nat × Nat))  -- where each collective record lies: position, offset, bytes (R348)
  barSig  : Store Nat                -- 1 + latched signature of a barrier entry, key 64 * position + index
  barNt   : Store Nat                -- latest arrival of a barrier entry
  taps    : Store (List (List DataWord))  -- beats in a drop tap's buffer, key position (R259)
  tapErr  : Store Nat                -- 1 where a landing dropped beats since its last LAST, key 16 * position + landing
deriving DecidableEq, Repr

/-- Engines as they stand after reset. -/
def Engines.empty : Engines := ⟨[], [], [], [], [], [], [], 0, [], [], [], [], [], [], [], []⟩

/-! ### Message units -/

/-- A message reserved in a ring and not yet committed (R204, R205). -/
structure Resv where
  start : Nat             -- reserve position before it, in 32 B units
  units : Nat             -- units of its entry, header included
  skip  : Nat             -- units of the skip marker before it, 0 for none
  pkt   : Pkt
  stamp : BitVec 64       -- TSTAMP of the head's arrival
deriving DecidableEq, Repr

/-- The message unit of every tile port. -/
structure Msgs where
  resv      : Store (List Resv)   -- key 64 * position + ring, oldest first
  waitStamp : Store (BitVec 64)   -- arrival of the waiting head, key position
  stallFrom : Store Nat           -- 1 + AON edge at which the queue-stall timer started, 0 while it is stopped (R213)
deriving DecidableEq, Repr

/-- Message units as they stand after reset. -/
def Msgs.empty : Msgs := ⟨[], [], []⟩

/-! ### Memory ports (R470 to R472) -/

/-- A memory request on its way (R470). -/
structure MemReq where
  pkt  : Pkt
  edge : Nat          -- AON edge at which it was issued
deriving DecidableEq, Repr

/-- The halves of the memory ports. -/
structure MemPorts where
  reqs    : Store MemReq   -- key 1024 * (4 * position + side) + identifier
  quar    : List Nat       -- quarantined identifiers, by the same key
  resetAt : Store Nat      -- 1 + control-clock cycle of a half's last block reset, key 4 * position + side
  hostSeq : Store Nat      -- sequence counters of the host ports (R62), key 4096 * port + context
deriving DecidableEq, Repr

/-- Memory ports as they stand after reset. -/
def MemPorts.empty : MemPorts := ⟨[], [], [], []⟩

/-! ### Spine ports (R269 to R306) -/

/-- A sparing in progress (R292). -/
structure Sparing where
  lane  : Nat          -- the lane to retire
  edge  : Nat          -- AON edge of step 1
  own   : Bool         -- this end asked
  acked : Bool         -- both ends hold
deriving DecidableEq, Repr

/-- A spine port: its training, its sender and its receiver. -/
structure SpPort where
  trainFrom : Nat                 -- AON edge at which it left WAIT_PMA
  lockFrom  : Nat                 -- AON edge at which it entered LOCK
  fails     : Nat                 -- consecutive failed attempts (R290)
  kept      : Bool                -- it trains from ACTIVE: the buffers and the old numbering stand (R290)
  fallback  : Bool                -- FULL framing is forced (R281)
  cap       : Option (BitVec 256) -- the partner's CAP
  agr       : BitVec 256          -- the agreement in force, as an AGREE body (R288)
  exch      : List Int            -- D of the exchanges of TIME
  dist      : Int                 -- D, the mean of the exchanges
  bseq      : Nat                 -- BSEQ of the next reverse beacon
  t1        : Store Nat           -- t1 of the reverse beacons sent, key BSEQ
  txSeq     : Nat                 -- SEQ of the next new frame (R279)
  sent      : List (Nat × List PhizaWord)  -- the replay buffer, oldest frame first (R280)
  replay    : Bool                -- a replay frame is due
  resend    : Option Nat          -- frames from this one on are sent again
  ctl       : List DataWord       -- control words that wait, without their LINK field
  sk        : List SFlit          -- sketch flits that wait for this port
  tx        : List (Pkt × Nat)    -- packets that wait, with the payload words already sent
  txWords   : List PhizaWord      -- the rest of a unit begun
  txVc      : Option Nat          -- VC of the last data word sent
  sketchGap : Nat                 -- words since the last sketch flit began (R277)
  quiet     : Nat                 -- frames since a control word last carried LINK (R278)
  farOff    : Nat                 -- classes OFF at the partner: VC0 to VC5, bit 6 K0
  line      : List PhizaWord      -- the last frame given to the PMA
  ackSeq    : Nat                 -- the next frame expected
  nak       : Bool                -- a frame was rejected: frames are discarded until its replay
  nakDue    : Bool                -- NAK has not been sent yet
  rejects   : Nat                 -- rejections of the frame expected (R281)
  rxVc      : Option Nat          -- VC of the data words that follow
  rxSketch  : Nat                 -- data words of a sketch flit still to come
  rxFirst   : DataWord            -- its first word
  rxPart    : Store (List DataWord)  -- words of the packet in progress on each VC, header first
  ingress   : List Pkt            -- packets rebuilt and not yet injected (R276)
  off       : Nat                 -- classes this end signals OFF (R282)
  drained   : Store Nat           -- bytes drained of a class since its OFF condition ended
  replays   : Nat                 -- replays in the current millisecond (R281)
  replayMs  : Nat                 -- that millisecond
  sparing   : Option Sparing
deriving DecidableEq, Repr

/-- A port that has not trained. -/
def SpPort.empty : SpPort :=
  ⟨0, 0, 0, false, false, none, 0, [], 0, 0, [], 0, [], false, none, [], [], [], [], none, 8, 0, 0, [], 0, false, false, 0,
    none, 0, 0, [], [], 0, [], 0, 0, none⟩

/-- A request of the optical engine management interface (R295). -/
structure OemiReq where
  op    : Nat
  lane  : Nat
  args  : Nat
  tseq  : Nat
  tries : Nat
  edge  : Nat
deriving DecidableEq, Repr

/-- A spine port group: its lanes and its optical engine. -/
structure SpGroup where
  width    : Nat           -- WIDTH_LOG in use: taken over at the next training (R301)
  sig     : Nat            -- lanes with signal detect and clock-recovery lock
  locked  : Nat            -- lanes with codeword lock (R284)
  ident   : Nat            -- lanes whose IDENT passed
  seen    : Nat            -- lanes on which the partner has received ours
  rxLane  : Store Nat      -- 1 + physical lane of the partner received on each lane (R286)
  marked  : Nat            -- lanes marked for retirement (R291)
  spread  : Nat            -- the port used last by egress value 8 (R312), plus 1
  oemi    : List OemiReq   -- outstanding transaction first
  tseq    : Nat
  wlLock  : Nat            -- lanes whose wavelength lock was last reported 1
  txWl    : Store Nat      -- wavelength on which each lane transmits, plus 1
  relock  : Store Nat      -- 1 + AON edge of a RELOCK under way, key lane (R294)
  assigned : Nat           -- lanes that were given a spare wavelength
  biasAt  : Store Nat      -- 1 + AON edge of the last BIAS_REQ of each lane (R298)
  symNow  : Store Nat      -- symbols corrected on each lane in this millisecond (R291)
  symMs   : Store Nat      -- those of the last whole millisecond (R421)
  peer    : Option (Nat × Nat)  -- partner access outstanding: port and AON edge (R304)
  shut    : Bool           -- EYE_SHUT was reported and not released
deriving DecidableEq, Repr

/-- A group as it stands after reset. -/
def SpGroup.empty : SpGroup := ⟨3, 0, 0, 0, 0, [], 0, 0, [], 0, 0, [], [], 0, [], [], [], none, false⟩

/-- What a circuit group keeps of its window (R322, R323). -/
structure CircNow where
  from'  : Nat     -- NT at which the window began
  cached : Bool    -- CACHED was 1 at its start
  closed : Bool    -- the effective cutoff has passed
  lost   : Bool    -- training was abandoned
deriving DecidableEq, Repr

/-- The spine ports of the die. -/
structure Spine where
  ports  : Store SpPort         -- key 8 * group + port
  groups : Store SpGroup        -- key group
  peerIn : List (Nat × SFlit)   -- partner accesses and their responses, received and not yet acted on, by 8 * group + port
  circ   : Store CircNow        -- windows in progress, key group
deriving DecidableEq, Repr

/-- The spine ports as they stand after reset. -/
def Spine.empty : Spine := ⟨[], [], [], []⟩

/-! ### Power and clocks (R366 to R395) -/

/-- A slack round that a coordinator collects (R387): its ROUND, the AON edge of its first flit, and (die, SLACK, SHIFT) of
each member that reported. -/
structure SlackRound where
  round : Nat
  edge  : Nat
  got   : List (Nat × Nat × Int)
deriving DecidableEq, Repr

/-- What the panels' clock units, the rail limiters and the power steward keep. -/
structure Power where
  entering : Store (Nat × Nat)     -- panel: the state it enters and the NT at which it is there (R370)
  waking   : Store (Nat × Bool)    -- panel: the NT at which it is in Run, and whether the wake was planned (R373)
  idleFrom : Store Nat             -- panel: 1 + AON edge since which it is idle (R371)
  tppAt    : Store Nat             -- position: 1 + AON edge of its processor port's last access (R371)
  droop    : Store (Nat × Nat)     -- panel: droop level and the cycle of the last firing (R376)
  warm     : Store Nat             -- panel: 1 + eighths by which its budgets are lowered (R378); 0 below WARN
  hot      : List Nat              -- panels at thermal level 7 (R378)
  rail     : Store Nat             -- rail: the level its members are raised to (R382)
  railI    : Store (List Nat)      -- rail: its current in each of the last microseconds, 0.1 A (R381)
  railLow  : Store Nat             -- rail: microseconds in a row below 0.9 × LIMIT
  powSum   : Store Nat             -- position: POWER reports of the 10 µs in progress, and
  excess   : Store Nat             -- periods in a row in which its average exceeded BUDGET by more than 10 % (R379)
  viol     : Store Nat             -- position: THROTTLE that its excess has raised
  violAt   : Store Nat             -- position: 1 + the period in which it was last raised
  base     : Store Nat             -- position: BUDGET as the cap's division gave it, 0xFFFF before (R385)
  sumAt    : Nat                   -- AON edge at which the 10 µs in progress began
  computeSum : Nat                 -- POWER reports of all clients since the last division (R383)
  memWords : Store Nat             -- memory port: words of its unscheduled requests since then (R384)
  xFlits   : Store Nat             -- spine group: unscheduled flits that left since then
  memAll   : Nat                   -- every memory word, and
  xAll     : Nat                   -- every flit that left the die, since then
  capAt    : Nat                   -- AON edge of that division
  rounds   : List SlackRound       -- rounds that are not complete (R387)
  members  : List Nat              -- dies of the group that have reported
  lastRound : Option Nat           -- ROUND of the last DIE_SHIFT applied (R388)
  barOwn   : Store Nat             -- latest arrival from this die of a barrier entry, key 64 * position + index (R386)
  jobs     : Store Nat             -- energy of each job of the table, plus 1, key JOB_ID (R390)
  seen     : Store Nat             -- ENERGY_s at the last visit, key 64 * position + slot
deriving DecidableEq, Repr

/-- Power as it stands after PORST_N. -/
def Power.empty : Power :=
  ⟨[], [], [], [], [], [], [], [], [], [], [], [], [], [], [], 0, 0, [], [], 0, 0, 0, [], [], none, [], [], []⟩

/-! ### Observation (R430 to R450) -/

/-- A record in a capture FIFO (R442, R443): whether it was captured at or before the trigger's cycle, and its units. -/
structure TraceRec where
  early : Bool
  units : List (BitVec 128)
deriving DecidableEq, Repr

/-- The trace unit (R442 to R450). -/
structure Trace where
  on     : Bool                      -- capture runs
  armed  : Nat                       -- conditions that were armed and have not fired
  trigAt : Nat                       -- control-clock cycle of the trigger
  fifos  : Store (List TraceRec)     -- capture FIFOs: 0 to 7 the probes, 8 the events, 16 + n the instructions of core n
  gaps   : Store (Nat × BitVec 128)  -- source: records lost in its gap, and the first unit of the first of them
  part   : Option Nat                -- the source whose record is half way over the observation path
  lost   : Store (Nat × BitVec 128)  -- CAUSE 2 and 3: records lost since the last crumb, and the first of them
  buf    : Store (BitVec 128)        -- the buffer, key unit
  window : Nat                       -- units written to the window
  main   : Nat                       -- units written to the main area
  stream : List (Bool × BitVec 64)   -- beats that wait for the trace port, with TRACE_CTL
  port   : List (Bool × BitVec 64)   -- the beats of the last AON cycle (R448)
  syncAt : Nat                       -- AON edge of the last SYNC record
deriving DecidableEq, Repr

/-- The trace unit after reset. -/
def Trace.empty : Trace := ⟨false, 0, 0, [], [], none, [], [], 0, 0, [], [], 0⟩

/-- The live activity counters of every tile port (R430 to R433). -/
structure Activity where
  cycles : Nat            -- control-clock cycles counted
  asleep : Store Nat      -- panel: those in which it was not in Run
  busy   : Store Nat      -- key 4 * position + engine: live BUSY,
  stall  : Store Nat      -- live STALL,
  work   : Store Nat      -- cycles that were not IDLE, and
  idle   : Store Int      -- what a write added to IDLE
  sleep  : Store Int      -- position: what a write added to TP_SLEEP
  rsn    : Store Nat      -- live ENG_RSN_CNT
  moved  : List (Nat × Nat)   -- engines that moved data in the cycle in progress: (key, slot)
deriving DecidableEq, Repr

/-- Activity counters after reset. -/
def Activity.empty : Activity := ⟨0, [], [], [], [], [], [], [], []⟩

/-- The window of congestion maps that the panel easel cores copy (R435, R436). -/
structure Cmap where
  snap   : Store Word     -- the snapshot's UTIL and histogram registers, key the register's address
  cycles : Word           -- its cycles
  win    : Word           -- its WINDOW_ID
  endNt  : Nat            -- NT of its end boundary
  left   : List Nat       -- panels whose records are not written yet
deriving DecidableEq, Repr

/-- No window copied yet. -/
def Cmap.empty : Cmap := ⟨[], 0, 0, 0, []⟩

/-! ### Easel cores and the TAP (R37 to R39, R452 to R455) -/

/-- What EASEL_DBG reaches of the easel cores. -/
structure Cores where
  regs   : Store Word     -- key 64 * core + n: x1 to x31, and PC at n = 0
  breaks : Store Word     -- key 4 * core + k: 1 in bit 0 where breakpoint k is set, its address above
  mem    : Store Byte     -- key 2^20 * core + offset, data memory from 2^19 on
  fw     : List Nat       -- cores that a FIRMWARE record reached (R347)
deriving DecidableEq, Repr

/-- Cores as they stand after PORST_N. -/
def Cores.empty : Cores := ⟨[], [], [], []⟩

/-- The TAP (R452 to R454). -/
structure Tap where
  ir     : BitVec 8
  dr     : BitVec 128     -- what the last capture returned
  unit   : Nat            -- TRACE_READ's unit address
  done   : Bool           -- REG_ACCESS: the last operation completed,
  err    : Bool           -- its ERR,
  addr   : Word           -- its address, and
  data   : Word           -- what it read
deriving DecidableEq, Repr

/-- The TAP in Test-Logic-Reset. -/
def Tap.reset : Tap := ⟨1, 0, 0, false, false, 0, 0⟩

/-! ### The canvas loader (R334 to R363) -/

/-- A claim entry (R350), and where it stands in the image (16 B units). -/
structure Claim where
  feature  : Nat
  resource : Nat
  winner   : Bool
  pos      : Nat
  first    : Nat
  count    : Nat
  place    : Nat
deriving DecidableEq, Repr

/-- A glaze descriptor (R353). -/
structure GlazeDesc where
  diag    : Bool
  runtime : Bool
  drain   : Nat
deriving DecidableEq, Repr

/-- The canvas loader. -/
structure Loader where
  glazeSel : BitVec 4           -- GLAZE_SEL as sampled (R354)
  fuses    : List (BitVec 128)  -- the fuse words as read (R334)
  reading  : Bool               -- a copy is being read
  image    : List Byte          -- the bytes of that copy so far
  place    : Nat                -- bytes of it that have been processed
  len      : Nat                -- IMAGE_LEN
  count    : Nat                -- GLAZE_COUNT
  policy   : Nat                -- GLAZE_POLICY
  defaults : Nat                -- DEFAULT_GLAZES
  spineMs  : Nat                -- SPINE_WAIT
  timeMs   : Nat                -- TIME_WAIT
  order    : Nat                -- 2^16 * (GLAZE + 1, 0 for the base) + TYPE of the last record (R342)
  descs    : Store GlazeDesc
  set      : Option Nat         -- the glaze set, once it is fixed
  claims   : List Claim         -- the merged claims table (R350, R355)
  colmap   : Bool               -- a COLMAP record has come
  wrote    : List Nat           -- keys of the registers written (R339)
  stencils : List Nat           -- keys of the stencil entries written
  since    : Nat                -- AON edge at which the phase began
  colls    : List Nat           -- collective records read: 2^32 * (GLAZE + 1, 0 for the base) + index
  storeAt  : Nat                -- bytes of COLL_STORE in use
  oldSet   : Nat                -- the glaze set a runtime switch leaves (R362)
  held     : Nat                -- the VCs it holds
  switchAt : Nat                -- its SWITCH_AT
  drained  : Bool               -- its drain has begun
deriving DecidableEq, Repr

/-- The loader after PORST_N. -/
def Loader.empty : Loader :=
  ⟨0, [], false, [], 0, 0, 0, 0, 0, 0, 0, 0, [], none, [], false, [], [], 0, [], 0, 0, 0, 0, false⟩

/-- The state of the block. -/
structure State where
  config  : Word                 -- the fused CONFIG word (R334)
  regs    : Store Word           -- every register, key its 32-bit address (R8)
  arbLive : Store Word           -- arbitration values in use, key the register's address (R14, R102)
  latch   : Store (Option Word)  -- high-half latches, key 2^32 * path + address (R10)
  stage   : Store (Option Word)  -- staged high halves, key 2^32 * path + address (R10)
  mesh    : Mesh
  sketch  : Sketch
  time    : Time
  flt     : Faults
  trays   : Trays
  eng     : Engines
  msgs    : Msgs
  mem     : MemPorts
  spine   : Spine
  power   : Power
  trace   : Trace
  act     : Activity
  cmap    : Cmap
  core    : Cores
  tap     : Tap
  load    : Loader
  release : Bool                 -- RELEASE is 1 at every active position (R359, R466)
  easel   : Store Nat            -- how a core stands, key core: 1 halted by its watchdog, 2 halted by debug, 4 not started
                                 -- (R39, R347, R453)
  redSlots : Store RedSlot       -- reducer slots in use, key 32 * position + slot (R232)
  msgWait : Store (List Pkt)     -- the MSG head that a message unit holds waiting, key position (R207)
  hostReqs : List HostReq        -- outstanding requests of the host ports (R30)
  lastRsp : Store (Word × Nat)   -- the last response given on each path: data and status (R458, R473)
  frozen  : Bool                 -- FREEZE holds (R455)
  ticks   : Nat                  -- control-clock cycles that have passed (log entry 1)
  fresh   : Nat                  -- the model's own counter that free values are applied to
  pending : List Instr           -- the commands that wait, first in, first out
deriving DecidableEq, Repr

/-- The easel cores of an instance before FIRMWARE: none is started (R347, R356). -/
def coresIdle (c : Word) : Store Nat := (List.range (Config.panels c + 1)).map fun n => (n, 4)

/-- The block right after PORST_N: PHASE is RESET, MODE is START_UP, every register has its reset value (R13, R330, R331),
and no command waits. The instance is the A-configuration (R334, log entry 2). -/
def State.reset : State :=
  { config := Config.aConfig
    regs := []
    arbLive := []
    latch := []
    stage := []
    mesh := Mesh.empty
    sketch := Sketch.empty
    time := Time.reset
    flt := Faults.empty
    trays := Trays.empty
    eng := Engines.empty
    msgs := Msgs.empty
    mem := MemPorts.empty
    spine := Spine.empty
    power := Power.empty
    trace := Trace.empty
    act := Activity.empty
    cmap := Cmap.empty
    core := Cores.empty
    tap := Tap.reset
    load := Loader.empty
    release := false
    easel := coresIdle Config.aConfig
    redSlots := []
    msgWait := []
    hostReqs := []
    lastRsp := []
    frozen := false
    ticks := 0
    fresh := 0
    pending := [] }

end Sys2Proof.Machine
end

