-- ==== Sys2Proof/Machine/Regs.lean ====
section
/-! DEFINITION. Register addresses and the register file: one home for every register, reached by its address (R8). -/
namespace Sys2Proof.Machine

/-- A register address: region, position (`32 * ROW + COL`) and offset (R8). -/
structure RegAddr where
  region : Nat
  pos    : Nat
  off    : Nat
deriving DecidableEq, Repr

/-- The key of an address: the 32-bit register address of R8. -/
def RegAddr.key (a : RegAddr) : Nat := a.region * 2 ^ 26 + a.pos * 2 ^ 16 + a.off

/-- The address that a 32-bit word spells (R8). -/
def RegAddr.ofWord (w : Word) : RegAddr := ⟨fld w 31 26, fld w 25 16, fld w 15 0⟩

/-- A router register (region 0x00). -/
abbrev rtrA (pos off : Nat) : RegAddr := ⟨0, pos, off⟩
/-- A tile-port register (region 0x01). -/
abbrev tileA (pos off : Nat) : RegAddr := ⟨1, pos, off⟩
/-- An edge-port register (region 0x02, SIDE at 0x4000, R300). -/
abbrev edgeA (pos side off : Nat) : RegAddr := ⟨2, pos, 0x4000 * side + off⟩
/-- A die-level register (region 0x03). -/
abbrev dieA (off : Nat) : RegAddr := ⟨3, 0, off⟩

/-- The row of a position. -/
def rowOf (pos : Nat) : Nat := pos / 32
/-- The physical column of a position. -/
def colOf (pos : Nat) : Nat := pos % 32
/-- The position of a row and column. -/
def mkPos (row col : Nat) : Nat := 32 * row + col

/-- The register specification that covers an address; an edge side's registers lie at 0x4000 times the side (R300). -/
def specOf (a : RegAddr) : Option RegSpec :=
  findSpec (regionTable a.region) (if a.region = 2 then a.off % 0x4000 else a.off)

/-- The reset value of a register: its table's, with the resets the spec gives by source, kind and indicator. -/
def resetNat (region off : Nat) : Nat :=
  if region = 3 ∧ 0x2400 ≤ off ∧ off < 0x2800 then srcCfgReset ((off - 0x2400) / 4)
  else if region = 3 ∧ 0x2100 ≤ off ∧ off < 0x2120 then retireReset ((off - 0x2100) / 4)
  else match findSpec (regionTable region) (if region = 2 then off % 0x4000 else off) with
    | some r => r.reset
    | none => 0

/-- The reset value of the register at an address. -/
def resetOf (a : RegAddr) : Word := BitVec.ofNat 32 (resetNat a.region a.off)

/-- The value a register holds. -/
def State.reg (s : State) (a : RegAddr) : Word := s.regs.get (resetOf a) a.key

/-- The state with a register holding a value. -/
def State.setReg (s : State) (a : RegAddr) (v : Word) : State :=
  { s with regs := s.regs.set (resetOf a) a.key v }

/-- A die-level register. -/
def State.die (s : State) (off : Nat) : Word := s.reg (dieA off)
/-- The state with a die-level register holding a value. -/
def State.setDie (s : State) (off : Nat) (v : Word) : State := s.setReg (dieA off) v
/-- A field of a die-level register. -/
def State.dieF (s : State) (off hi lo : Nat) : Nat := fld (s.die off) hi lo
/-- The state with a field of a die-level register replaced. -/
def State.setDieF (s : State) (off hi lo v : Nat) : State := s.setDie off (setFld (s.die off) hi lo v)
/-- The state with one field of any register replaced. -/
def State.setRegF (s : State) (a : RegAddr) (hi lo v : Nat) : State := s.setReg a (setFld (s.reg a) hi lo v)
/-- The state with a saturating counter raised (R106). -/
def State.count (s : State) (a : RegAddr) (n : Nat) : State := s.setReg a (satAdd (s.reg a) n)
/-- A 64-bit quantity in two adjacent registers, low half first (R10). -/
def State.reg64 (s : State) (a : RegAddr) : Nat := join64 (s.reg a) (s.reg { a with off := a.off + 4 })
/-- The state with a 64-bit quantity written (R10). -/
def State.setReg64 (s : State) (a : RegAddr) (n : Nat) : State :=
  (s.setReg a (lo32 n)).setReg { a with off := a.off + 4 } (hi32 n)

/-- Whether a position lies in the implemented mesh (R461). -/
def State.inMesh (s : State) (pos : Nat) : Bool :=
  decide (rowOf pos < Config.rows s.config) && decide (colOf pos < Config.cols s.config)

/-- Every position of the implemented mesh. -/
def State.positions (s : State) : List Nat :=
  (List.range (Config.rows s.config)).flatMap fun r => (List.range (Config.cols s.config)).map fun c => mkPos r c

/-- The edge port on a side of a position. -/
def State.edgePort (s : State) (pos side : Nat) : Config.EdgePort :=
  Config.edgePort s.config (rowOf pos) (colOf pos) side

/-- The panel of a position. -/
def State.panelOf (s : State) (pos : Nat) : Nat := Config.panelOf s.config (rowOf pos) (colOf pos)

/-- The column map of a row: bit p set where physical column p is a spare (R48). -/
def State.spareMask (s : State) (row : Nat) : Nat := (s.die (Reg.COLMAP_SPARE row)).toNat

/-- Whether a position is a spare. -/
def State.isSpare (s : State) (pos : Nat) : Bool := (s.spareMask (rowOf pos)).testBit (colOf pos)

/-- The physical columns that carry logical columns of a row, in ascending order (R47). -/
def State.activeCols (s : State) (row : Nat) : List Nat :=
  (List.range (Config.cols s.config)).filter fun p => !(s.spareMask row).testBit p

/-- The physical column of a logical column, none where the row has too few (R47). -/
def State.physical (s : State) (row col : Nat) : Option Nat :=
  if row < Config.rows s.config then (s.activeCols row)[col]? else none

/-- The logical column of a position; none at a spare. -/
def State.logical (s : State) (pos : Nat) : Option Nat :=
  if s.isSpare pos then none
  else some (((s.activeCols (rowOf pos)).filter fun p => p < colOf pos).length)

end Sys2Proof.Machine
end

