-- ==== Sys2Proof/Machine/Ops.lean ====
section
/-! DEFINITION. Shared operations: time-stamps, panel states, raising a fault (R396 to R398), and the rules that every
register access passes before it has its effect (R9, R12, R15, R16, R333, R392, R455, R464). -/
namespace Sys2Proof.Machine

/-! ### Outcomes -/

/-- What a command answers. -/
abbrev Out := Host.Outcome State Fault Refusal

/-- The next state, as an outcome. -/
def done (s : State) : Out := .next s

/-- A step that applies only where a condition holds. -/
def State.when (s : State) (c : Bool) (f : State → State) : State := if c then f s else s

/-! ### Panels and time -/

/-- PANEL_STAT.STATE of a panel: 0 Run, 1 Gated, 2 Parked, 3 Off (R370). -/
def State.panelState (s : State) (n : Nat) : Nat := s.dieF (Reg.PANEL_STAT n) 31 30

/-- Whether the clock of a position's panel runs. -/
def State.panelRuns (s : State) (pos : Nat) : Bool := s.panelState (s.panelOf pos) == 0

/-- TIME_INCR as a number of 2^-32 NT units (R110). -/
def State.timeIncr (s : State) : Nat := (s.dieF Reg.TIME_INCR_HI 7 0) * 2 ^ 32 + (s.die Reg.TIME_INCR_LO).toNat

/-- Coarse NT as a number (R111). -/
def State.ntNat (s : State) : Nat := s.time.nt.toNat

/-- NOW_DL: NT bits [24:9] (R98). -/
def State.nowDl (s : State) : Nat := bitsOf s.ntNat 24 9

/-- STENCIL_CTRL.RUN. -/
def State.stencilRun (s : State) : Bool := bit (s.die Reg.STENCIL_CTRL) 0

/-- TIME_STAT.STATE (R121). -/
def State.timeState (s : State) : Nat := s.dieF Reg.TIME_STAT 31 28

/-- F in MHz: CLK_STAT's, and 2,000 before the PLL has locked (R366). -/
def State.fMhz (s : State) : Nat := let f := s.dieF 0x1800 15 0; if f = 0 then 2000 else f

/-- The control-clock cycle: F ÷ 100 MHz to an AON cycle, and the cycles that passed on an empty queue (log entry 1). -/
def State.cycle (s : State) : Nat := max s.ticks (s.fMhz * s.time.edges / 100)

/-- The state with one more free value drawn. -/
def State.draw (s : State) : State := { s with fresh := s.fresh + 1 }

/-- The TSTAMP captured at a position: NT[63:1] with COARSE in bit 0; the fine part of a running panel's capture is
free (R111 to R113, log entry 3). -/
def State.stamp (s : State) (pos : Nat) : BitVec 64 :=
  if s.panelRuns pos then BitVec.ofNat 64 ((s.ntNat + Config.fine s.fresh) / 2 * 2)
  else BitVec.ofNat 64 (s.ntNat / 2 * 2 + 1)

/-- NT captured on the control clock, whose branch never stops (R28): coarse plus a fine part. -/
def State.capture (s : State) : BitVec 64 := BitVec.ofNat 64 (s.ntNat + Config.fine s.fresh)

/-! ### Raising a fault -/

/-- Configured severity of a source: its SEV field (R401). -/
def State.srcSev (s : State) (c : Nat) : Nat := s.dieF (Reg.FAULT_SRC_CFG c) 31 30

/-- The index of the stencil entry current at POINT 14 of a position; none where it has no stencil or RUN is 0. -/
def State.tileEntry (s : State) (pos : Nat) : Option Nat :=
  if s.stencilRun then (s.time.gates.find? (32 * pos + 14)).map (·.index) else none

/-- The record a block forms at a position (R396); what lies at no position of the mesh is named at row 0, column 0, where
the fault collector is (R9). -/
def State.faultRec (s : State) (src pos : Nat) (block : BlockKind) (unit ctx arg0 arg1 lvl : Nat) : FaultRec :=
  { source := BitVec.ofNat 8 src
    unit := BitVec.ofNat 8 unit
    temp := BitVec.ofNat 8 (s.dieF (Reg.PANEL_STAT (s.panelOf pos)) 23 16)
    lvl := BitVec.ofNat 8 lvl
    tstamp := s.stamp pos
    entry := BitVec.ofNat 8 ((s.tileEntry pos).getD 0)
    noStencil := (s.tileEntry pos).isNone
    ctx := BitVec.ofNat 12 ctx
    arg0 := BitVec.ofNat 64 arg0
    arg1 := BitVec.ofNat 64 arg1
    pos := if s.inMesh pos then pos else 0
    block := block }

/-- The summary wire of a position after a fault of a severity: the highest of Minor or above within 2 µs (R398). -/
def wireAfter (wires : Store (Nat × Nat)) (pos sev edge : Nat) : Store (Nat × Nat) :=
  let old := wires.get (0, 0) pos
  let kept := if edge ≤ old.2 + 200 then old.1 else 0
  if sev = 0 then wires else wires.set (0, 0) pos (max kept sev, edge)

/-- A block raises a fault: the FAULT flit leaves and the summary wire rises (R396, R398). -/
def State.raiseFull (s : State) (src pos : Nat) (block : BlockKind) (unit ctx arg0 arg1 lvl : Nat) : State :=
  { s with
    flt := { s.flt with
      inFlight := s.flt.inFlight ++ [s.faultRec src pos block unit ctx arg0 arg1 lvl]
      wires := wireAfter s.flt.wires pos (s.srcSev src) s.time.edges }
    fresh := s.fresh + 1 }

/-- A fault of a block with two items (R396). -/
def State.raise (s : State) (src pos : Nat) (block : BlockKind) (unit ctx arg0 arg1 : Nat) : State :=
  s.raiseFull src pos block unit ctx arg0 arg1 0

/-- A fault of a die-level block, named at row 0, column 0. -/
def State.raiseDie (s : State) (src arg0 arg1 : Nat) : State := s.raise src 0 .die 0 0 arg0 arg1

/-- A CFG_ADJUSTED Note about a write to a register, where the rule names no item (R400, log entry 43). -/
def State.cfgNote (s : State) (a : RegAddr) : State := s.raise Src.CFG_ADJUSTED a.pos .die 0 0 0 0

/-! ### Access rules -/

/-- A number for each path, under which it keeps its latches and stages (R10). -/
def pathCode : Path → Nat
  | .host k => k
  | .tap => 2
  | .canvas => 3
  | .easel c => 16 + c
  | .tile p => 64 + p
  | .peer p => 2048 + p

/-- The key of a path's latch or stage of a register (R10). -/
def pairKey (p : Path) (a : RegAddr) : Nat := 2 ^ 32 * pathCode p + a.key

/-- The high half that a path has staged for a register pair, named by its high half; before the path's first high
write, the high half's reset value (R10). -/
def State.staged (s : State) (p : Path) (hi : RegAddr) : Word :=
  (s.stage.get none (pairKey p hi)).getD (resetOf hi)

/-- A path stages a high half (R10). -/
def State.stageHigh (s : State) (p : Path) (hi : RegAddr) (data : Word) : State :=
  { s with stage := s.stage.set none (pairKey p hi) (some data) }

/-- A path latches a high half as it reads the low half (R10). -/
def State.latchHigh (s : State) (p : Path) (hi : RegAddr) (v : Word) : State :=
  { s with latch := s.latch.set none (pairKey p hi) (some v) }

/-- The high half as a path reads it: what its last read of the low half latched, else the live value (R10). -/
def State.latched (s : State) (p : Path) (hi : RegAddr) (live : Word) : Word :=
  (s.latch.get none (pairKey p hi)).getD live

/-- BRINGUP_STAT.MODE (R331). -/
def State.mode (s : State) : Nat := s.dieF Reg.BRINGUP_STAT 27 25
/-- BRINGUP_STAT.PHASE (R330). -/
def State.phase (s : State) : Nat := s.dieF Reg.BRINGUP_STAT 31 28

/-- Whether the coolant stop or a FREEZE halts the clocks of a block (R392, R455). -/
def State.stopped (s : State) : Bool := bit (s.die Reg.COOLANT_STAT) 31 || s.frozen

/-- Edge ports: whether a side carries a port of a register's kind (R463). -/
def kindPresent (p : Config.EdgePort) (k : EdgeKind) : Bool :=
  match k, p with
  | _, .none => false
  | .any, .ax _ => false
  | .any, _ => true
  | .memory, .memory _ _ => true
  | .host, .host _ => true
  | .spine, .spine _ => true
  | .policed, .spine _ => true
  | .policed, .host _ => true
  | _, _ => false

/-- Whether an address names an implemented register (R9, R461 to R464): its position lies in the mesh, its side
carries such a port, its panel exists, and a data path exists where the register belongs to one (R309). -/
def State.mapped (s : State) (a : RegAddr) : Bool :=
  a.off % 4 == 0 && a.region ≤ 4 &&
  (if a.region = 3 then a.pos == 0 else s.inMesh a.pos) &&
  (if a.region = 4 then true
   else match specOf a with
    | none => false
    | some r =>
      if a.region = 2 then
        decide (a.off / 0x4000 < 4) && kindPresent (s.edgePort a.pos (a.off / 0x4000)) r.kind &&
          ((a.off % 0x4000 != 0x114 && a.off % 0x4000 != 0x118) || Config.spineRole s.config)
      else if a.region = 3 then
        if 0x980 ≤ a.off ∧ a.off < 0xB80 then decide ((a.off - 0x980) / 8 < Config.panels s.config)
        else if 0x1A00 ≤ a.off ∧ a.off < 0x1B00 then decide ((a.off - 0x1A00) / 16 < Config.panels s.config)
        else true
      else true)

/-- The slot that a Tenant-marked register of region 0x01 belongs to (R156, R177, R202, R391, R433). -/
def State.tenantSlot (s : State) (a : RegAddr) : Nat :=
  if 0x0800 ≤ a.off ∧ a.off < 0x1800 then (a.off - 0x0800) / 64
  else if 0x1800 ≤ a.off ∧ a.off < 0x2000 then fld (s.reg (tileA a.pos (Reg.RING_CFG ((a.off - 0x1800) / 32)))) 29 24
  else if 0x2000 ≤ a.off ∧ a.off < 0x6000 then (a.off - 0x2000) / 256
  else if 0x6000 ≤ a.off ∧ a.off < 0x6200 then (a.off - 0x6000) / 8
  else if 0x6200 ≤ a.off ∧ a.off < 0x6400 then (a.off - 0x6200) / 8
  else (a.off - 0x6A00) / 8

/-- Word `w` of the context record of a slot (R151). -/
def State.ctxWord (s : State) (pos slot w : Nat) : Word := s.reg ⟨64, pos, Reg.W_CTX w slot⟩
/-- The state with a word of a context record written. -/
def State.setCtxWord (s : State) (pos slot w : Nat) (v : Word) : State := s.setReg ⟨64, pos, Reg.W_CTX w slot⟩ v
/-- Whether a slot binds a context (R151). -/
def State.slotValid (s : State) (pos slot : Nat) : Bool := bit (s.ctxWord pos slot 0) 31
/-- The context a slot binds. -/
def State.slotCtx (s : State) (pos slot : Nat) : Nat := fld (s.ctxWord pos slot 0) 11 0

/-- Whether an access may reach a register (R15, R464, R469): a Tenant reaches the registers of its own slot alone,
and the tile register path its own position's region 0x01 alone. -/
def State.mayReach (s : State) (acc : Access) (a : RegAddr) (write : Bool) : Bool :=
  let reach := match specOf a with | some r => r.reach | none => .supervisor
  (match acc.path with
    | .tile p => a.region == 1 && a.pos == p
    | _ => true) &&
  (match acc.priv with
    | .tenant =>
      match reach with
      | .all => !write
      | .tenant =>
        let slot := s.tenantSlot a
        !(write && 0x6200 ≤ a.off && a.off < 0x6400) && s.slotValid a.pos slot &&
        (match acc.path with
          | .tile _ => slot == acc.slot.toNat
          | _ => s.slotCtx a.pos slot == acc.ctx.toNat)
      | .supervisor => false
    | _ => true)

/-- What an access meets before it has an effect (R458). -/
inductive Verdict where
  | ok | unmapped | priv | stopped | startup
deriving DecidableEq, Repr

/-- The status a REG_RSP carries (R458). -/
def Verdict.status : Verdict → Nat
  | .ok => 0 | .unmapped => 1 | .priv => 2 | .stopped => 3 | .startup => 0

/-- In START_UP, software writes only BRINGUP_CTRL and DIE_ID (R333); the canvas loader and the TAP are not held. -/
def State.startupHolds (s : State) (acc : Access) (a : RegAddr) (write : Bool) : Bool :=
  write && s.mode == 0 && (match acc.path with | .host _ => true | .peer _ => true | .tile _ => true | _ => false) &&
  a != dieA Reg.BRINGUP_CTRL && a != dieA Reg.DIE_ID

/-- Whether the block that holds a register has no running clock: die-level AON blocks always answer. -/
def State.blockStopped (s : State) (acc : Access) (a : RegAddr) : Bool :=
  s.stopped && a.region != 3 && (match acc.path with | .tap => false | _ => true)

/-- The order of the access checks. -/
def State.verdict (s : State) (acc : Access) (a : RegAddr) (write : Bool) : Verdict :=
  if s.blockStopped acc a then .stopped
  else if !s.mapped a then .unmapped
  else if !s.mayReach acc a write then .priv
  else if s.startupHolds acc a write then .startup
  else .ok

/-- The number by which an UNMAPPED_ACCESS Note names the accessing port (R9). -/
def accessPort (acc : Access) : Nat := pathCode acc.path

/-- The record an access leaves that has no effect (R9, R16, R333). -/
def State.refuse (s : State) (acc : Access) (a : RegAddr) (v : Verdict) : State :=
  match v with
  | .unmapped => s.raise Src.ACCESS_UNMAPPED a.pos .die 0 0 a.key (accessPort acc)
  | .priv =>
    let ctx := match acc.path with
      | .tile p => s.slotCtx p acc.slot.toNat
      | _ => acc.ctx.toNat
    s.raise Src.ACCESS_PRIV a.pos .die 0 ctx ctx 0
  | .startup => s.raise Src.BRINGUP_WRITE a.pos .die 0 0 0 0
  | _ => s

/-- Outstanding register requests of a host port (R30). -/
def State.outstanding (s : State) (port : Nat) : List HostReq := s.hostReqs.filter fun r => r.port == port

/-- The status code as the tile register path and the host port carry it: data and status of the response (R458). -/
def State.respond (s : State) (acc : Access) (a : RegAddr) (write : Bool) (data : Word) (status : Nat) : State :=
  match acc.path with
  | .host k =>
    { s with hostReqs := s.hostReqs ++ [⟨k, acc.tag, BitVec.ofNat 32 a.key, write, data, status⟩] }
  | p => { s with lastRsp := s.lastRsp.set (0, 0) (pathCode p) (data, status) }

/-- Whether a host port can take another request: each holds at most 8 (R30), and the sketch network carries it once the
clocks run (R333). -/
def State.canIssue (s : State) (acc : Access) : Bool :=
  match acc.path with
  | .host k => decide ((s.outstanding k).length < 8) && bit (s.die Reg.CLK_STAT) 31
  | _ => true

/-- What a write leaves in a register by its access types (R11, R12): RW bits replaced, W1C bits cleared by 1,
every other bit as it was. W1S, WO and RSVD bits store nothing. -/
def maskedValue (r : RegSpec) (old data : Word) : Word :=
  let rw := BitVec.ofNat 32 r.rw; let w1c := BitVec.ofNat 32 r.w1c
  (old &&& ~~~(rw ||| w1c)) ||| (data &&& rw) ||| (old &&& w1c &&& ~~~data)

/-- A write by access types alone (R11). -/
def State.plainWrite (s : State) (a : RegAddr) (data : Word) : State :=
  match specOf a with
  | some r => s.setReg a (maskedValue r (s.reg a) data)
  | none => s

/-- A register write: the port takes the request, the block checks it and applies its effect, and the response
leaves only after that (R460). A request that finds no free K1 slot waits at the host port. -/
def guardedWrite (acc : Access) (a : RegAddr) (effect : State → State) (s : State) : State :=
  if s.canIssue acc then
    let v := s.verdict acc a true
    (if v = .ok then effect s else s.refuse acc a v).respond acc a true 0 v.status
  else s

/-- A register read: its value where the checks pass, else 0 (R9, R16). -/
def guardedRead (acc : Access) (a : RegAddr) (read : State → Word × State) (s : State) : State :=
  if s.canIssue acc then
    let v := s.verdict acc a false
    if v = .ok then (read s).2.respond acc a false (read s).1 0
    else (s.refuse acc a v).respond acc a false 0 v.status
  else s

end Sys2Proof.Machine
end

