-- ==== Sys2Proof/Machine/Trace.lean ====
section
/-! DEFINITION. Claimed resources (R350 to R352) and trace (R442 to R450): capture FIFOs, crumbs, triggers, the buffer and
the trace port. -/
namespace Sys2Proof.Machine

/-! ### Claims -/

/-- Whether an entry covers a unit of its resource. -/
def Claim.covers (c : Claim) (u : Nat) : Bool := decide (c.first ≤ u) && decide (u < c.first + c.count)

/-- Whether a feature gives way to STENCIL without a WINNER (R351). -/
def yields (feature : Nat) : Bool := feature == 2 || feature == 3 || feature == 4

/-- Whether an entry takes the units that it shares with another feature's (R351): STENCIL against TRACE, SWATCH and
CMAP, else the only one of the two with WINNER. -/
def Claim.beats (a b : Claim) : Bool :=
  if a.feature = 1 ∧ yields b.feature then true
  else if b.feature = 1 ∧ yields a.feature then false
  else a.winner && !b.winner

/-- Whether two entries name units of one resource, at one position (R351). -/
def Claim.sameKind (a b : Claim) : Bool := a.resource == b.resource && (a.resource != 3 || a.pos == b.pos)

/-- Whether a claim holds one of its units: no entry of another feature that covers it takes it (R352). -/
def State.claimHolds (s : State) (c : Claim) (u : Nat) : Bool :=
  c.covers u && !s.load.claims.any fun d => d.feature != c.feature && d.sameKind c && d.covers u && d.beats c

/-- Whether a feature holds a unit of a resource that has no position; features have their resources from READY on
(R352, R359). -/
def State.holds (s : State) (feature resource u : Nat) : Bool :=
  s.phase == 9 && s.mode != 0 && s.load.claims.any fun c => c.feature == feature && c.resource == resource && s.claimHolds c u

/-- A feature's tray claim: the first of its entries, at a position where one is named (R436, R441, log entry 34). -/
def State.trayClaim (s : State) (feature : Nat) (pos : Option Nat) : Option Claim :=
  if s.phase = 9 ∧ s.mode ≠ 0 then
    s.load.claims.find? fun c => c.feature == feature && c.resource == 3 && (match pos with | some p => c.pos == p | none => true)
  else none

/-! ### Records (R443, R444) -/

/-- The first unit of a record; SRC is a position or 0. -/
def traceUnit (stamp : BitVec 64) (ty : Nat) (ext : Bool) (src payload : Nat) : BitVec 128 :=
  BitVec.ofNat 128 (stamp.toNat + ty * 2 ^ 64 + b2n ext * 2 ^ 72 + src % 1024 * 2 ^ 73 + payload * 2 ^ 83)

/-- A crumb for a gap (R446): LOST, CAUSE, and SRC and TSTAMP of the first lost record. -/
def crumb (lost cause : Nat) (first : BitVec 128) : BitVec 128 :=
  traceUnit (BitVec.ofNat 64 first.toNat) 1 false (bitsOf first.toNat 82 73) (min lost 0xFFFFFFFF + cause * 2 ^ 32)

/-- The PKT record of a head that crosses an output (R444). -/
def pktRecord (stamp : BitVec 64) (pos out vc probe : Nat) (p : Pkt) : List (BitVec 128) :=
  [traceUnit stamp 3 true pos (out % 16 + vc * 2 ^ 4 + p.ty.toNat * 2 ^ 7 + p.len.toNat * 2 ^ 11 + p.ctx.toNat * 2 ^ 17 +
      probe * 2 ^ 29),
   BitVec.ofNat 128 (p.dest.toNat + p.src.toNat * 2 ^ 32 + p.seq.toNat * 2 ^ 64 + p.deadline.toNat * 2 ^ 88 +
      p.tag.toNat * 2 ^ 104)]

/-- A SYNC record (R444). -/
def State.syncUnit (s : State) : BitVec 128 :=
  traceUnit s.capture 6 false 0
    (s.time.dieId.toNat + s.timeState * 2 ^ 17 + s.dieF Reg.TIME_STAT 27 24 * 2 ^ 21 + s.dieF Reg.TIME_STAT 15 0 * 2 ^ 25)

/-- The beats of a record on the trace port: TRACE_CTL is 1 on its first (R448). -/
def beatsOf (units : List (BitVec 128)) : List (Bool × BitVec 64) :=
  (units.flatMap fun u => [BitVec.ofNat 64 u.toNat, BitVec.ofNat 64 (u.toNat >>> 64)]).mapIdx fun i b => (i == 0, b)

/-! ### The buffer (R447) -/

/-- The granules of an area that TRACE holds. -/
def State.granules (s : State) (lo n : Nat) : List Nat :=
  ((List.range n).map fun g => lo + g).filter fun g => s.holds 2 2 g
/-- The granules of the pre-trigger window. -/
def State.windowGranules (s : State) : List Nat := s.granules 48 16
/-- The granules of the main area. -/
def State.mainGranules (s : State) : List Nat := s.granules 0 48
/-- The buffer unit at a place of an area, which wraps. -/
def areaUnit (gs : List Nat) (i : Nat) : Nat := 256 * gs.getD (i / 256 % max 1 gs.length) 0 + i % 256

/-- MODE. -/
def State.traceMode (s : State) : Nat := s.dieF Reg.TRACE_CTRL 1 0
/-- TRIGGERED. -/
def State.triggered (s : State) : Bool := s.dieF Reg.TRACE_STAT 31 31 == 1

/-- PRE_PTR: the next unit of the window; after the freeze its oldest. -/
def State.prePtr (s : State) : Nat :=
  let gs := s.windowGranules
  if gs.isEmpty then 0
  else areaUnit gs (if s.triggered && decide (s.trace.window < 256 * gs.length) then 0 else s.trace.window) - 12288

/-- Units written into an area, one after the other. -/
def bufPut (buf : Store (BitVec 128)) (gs : List Nat) (i : Nat) : List (BitVec 128) → Store (BitVec 128)
  | [] => buf
  | u :: us => bufPut (buf.set 0 (areaUnit gs i) u) gs (i + 1) us

/-- A record lost for a cause of the trace unit: counted, and kept for its crumb (R446). -/
def State.traceLose (s : State) (cause : Nat) (first : BitVec 128) : State :=
  let s := s.count (dieA Reg.TRACE_LOST_CNT) 1
  let old := s.trace.lost.find? cause
  { s with trace := { s.trace with lost := s.trace.lost.put cause (match old with
      | some (n, f) => (n + 1, f)
      | none => (1, first)) } }

/-- The crumb of a cause that waits, and the state without it. -/
def State.takeCrumb (s : State) (cause : Nat) : List (BitVec 128) × State :=
  match s.trace.lost.find? cause with
  | some (n, f) => ([crumb n cause f], { s with trace := { s.trace with lost := s.trace.lost.del cause } })
  | none => ([], s)

/-- A record goes to the pre-trigger window. -/
def State.toWindow (s : State) (units : List (BitVec 128)) : State :=
  let gs := s.windowGranules
  if gs.isEmpty then s.traceLose 2 (units.headD 0)
  else
    let (c, s) := s.takeCrumb 2
    let all := c ++ units
    let s := { s with trace := { s.trace with
      buf := bufPut s.trace.buf gs (s.trace.window % (256 * gs.length)) all, window := s.trace.window + all.length } }
    s.setDieF Reg.TRACE_STAT 25 14 s.prePtr

/-- Units written to the main area, with POST_COUNT. -/
def State.mainPut (s : State) (units : List (BitVec 128)) : State :=
  let gs := s.mainGranules
  let s := { s with trace := { s.trace with
    buf := bufPut s.trace.buf gs (s.trace.main % (256 * max 1 gs.length)) units, main := s.trace.main + units.length } }
  s.when s.triggered fun t => t.setDieF Reg.TRACE_STAT 13 0 (t.dieF Reg.TRACE_STAT 13 0 + units.length)

/-- CAPTURE ends: DONE. -/
def State.traceDone (s : State) : State :=
  { s.setDieF Reg.TRACE_STAT 30 30 1 with trace := { s.trace with on := false, fifos := [], gaps := [], part := none } }

/-- A record after the trigger in CAPTURE: until POST_LEN units or the area is full. -/
def State.toMain (s : State) (units : List (BitVec 128)) : State :=
  let cap := 256 * s.mainGranules.length
  if cap < s.trace.main + units.length then
    (if cap = 0 then s.traceLose 2 (units.headD 0) else s).traceDone
  else
    let s := s.mainPut units
    if s.dieF Reg.TRACE_POST 13 0 ≤ s.trace.main ∨ cap ≤ s.trace.main then s.traceDone else s

/-- A record in STREAM: into the main area, which is the trace port's FIFO; a loss is followed by its crumb and a SYNC
record (R448). -/
def State.toStream (s : State) (units : List (BitVec 128)) : State :=
  let cap := 2 * 256 * s.mainGranules.length
  let before := if (s.trace.lost.find? 3).isSome then 2 else 0
  if cap < s.trace.stream.length + 2 * (units.length + before) then s.traceLose 3 (units.headD 0)
  else
    let (c, s) := s.takeCrumb 3
    let extra := if c.isEmpty then [] else [c, [s.syncUnit]]
    let s := (extra ++ [units]).foldl (fun t us =>
      { t.mainPut us with trace := { (t.mainPut us).trace with stream := t.trace.stream ++ beatsOf us } }) s
    if c.isEmpty then s else s.draw

/-- A record reaches the trace unit (R447). -/
def State.traceStore (s : State) (r : TraceRec) : State :=
  if !s.trace.on then s
  else
    let s := if r.early then s.toWindow r.units else s
    if s.traceMode = 2 then s.toStream r.units
    else if r.early then s
    else s.toMain r.units

/-! ### Capture FIFOs and the observation path (R442) -/

/-- A source captures a record, or drops it where its FIFO is full. -/
def State.traceCapture (s : State) (src : Nat) (units : List (BitVec 128)) : State :=
  if !s.trace.on || s.stopped then s
  else
    let early := !s.triggered || decide (s.cycle ≤ s.trace.trigAt)
    let q := s.trace.fifos.get [] src
    if q.length < 4 then { s with trace := { s.trace with fifos := s.trace.fifos.set [] src (q ++ [⟨early, units⟩]) } }
    else
      let s := s.count (dieA Reg.TRACE_LOST_CNT) 1
      { s with trace := { s.trace with gaps := s.trace.gaps.put src (match s.trace.gaps.find? src with
          | some (n, f) => (n + 1, f)
          | none => (1, units.headD 0)) } }

/-- The front record of a source has crossed: its FIFO has room, where a crumb goes first (R442, R446). -/
def State.traceLeave (s : State) (src : Nat) : State :=
  match s.trace.fifos.get [] src with
  | [] => s
  | r :: rest =>
    let (more, gaps) := match s.trace.gaps.find? src with
      | some (n, f) => ([(⟨!s.triggered, [crumb n 1 f]⟩ : TraceRec)], s.trace.gaps.del src)
      | none => ([], s.trace.gaps)
    ({ s with trace := { s.trace with
        fifos := s.trace.fifos.set [] src (rest ++ more), gaps := gaps, part := none } }).traceStore r

/-- One unit crosses the observation path: the second of a record begun, else the first of the lowest source's front. -/
def State.traceUnitMove (s : State) : State :=
  match s.trace.part with
  | some src => s.traceLeave src
  | none =>
    match s.trace.fifos with
    | [] => s
    | (src, q) :: _ =>
      if ((q.headD ⟨false, []⟩).units.length) ≤ 1 then s.traceLeave src
      else { s with trace := { s.trace with part := some src } }

/-- Some units cross the observation path, one for each cycle. -/
def State.traceDrain (s : State) : (n : Nat) → State
  | 0 => s
  | n + 1 => if s.trace.fifos.isEmpty then s else s.traceUnitMove.traceDrain n

/-- The trace port sends the beats of one AON cycle: five at 500 MHz; an idle beat is zero (R448). -/
def State.traceSend (s : State) : State :=
  { s with trace := { s.trace with
      port := (List.range 5).map fun i => s.trace.stream.getD i (false, 0), stream := s.trace.stream.drop 5 } }

/-! ### Triggers (R449) -/

/-- KIND of a condition. -/
def State.trigKind (s : State) (k : Nat) : Nat := s.dieF (Reg.TRIG_CFG k) 31 29
/-- TRIG_ARG of a condition. -/
def State.trigArg (s : State) (k : Nat) : Word := s.die (Reg.TRIG_ARG k)

/-- A condition fires: only the first firing after an ARM counts. The TRIGGER record is the first unit after the window
(R447). -/
def State.traceFire (s : State) (k : Nat) : State :=
  if s.trace.on && s.trace.armed.testBit k then
    let u := traceUnit s.capture 5 false 0 k
    let s := (s.setDieF Reg.TRACE_STAT 31 31 1).setDieF Reg.TRACE_STAT 28 26 k
    let s := { s with trace := { s.trace with armed := 0, trigAt := s.cycle } }
    let s := s.setDieF Reg.TRACE_STAT 25 14 s.prePtr
    (if s.traceMode = 2 then s.toStream [u] else s.toMain [u]).draw
  else s

/-- Every condition that a test names fires, the lowest first. -/
def State.traceFireIf (s : State) (p : Nat → Bool) : State :=
  (List.range 4).foldl (fun t k => if p k then t.traceFire k else t) s

/-- An EVENT record is made where its code is enabled, and KIND 1 conditions see it (R445, R449). -/
def State.traceEvent (s : State) (code arg : Nat) : State :=
  if s.trace.on && s.die Reg.TRACE_EVT_EN != 0 && bit (s.die Reg.TRACE_EVT_EN) code then
    let s := (s.traceCapture 8 [traceUnit s.capture 4 false 0 (code + arg % 2 ^ 37 * 2 ^ 8)]).draw
    s.traceFireIf fun k =>
      s.trigKind k == 1 && fld (s.trigArg k) 31 24 == code && (arg &&& fld (s.trigArg k) 23 12) % 4096 == fld (s.trigArg k) 11 0
  else s

/-- A fault record is handled (R406, R445): the event, and KIND 2 conditions. -/
def State.traceFault (s : State) (source sev : Nat) (merged escalated : Bool) : State :=
  let s := s.traceEvent 1 (source + sev * 2 ^ 8 + b2n merged * 2 ^ 10 + b2n escalated * 2 ^ 11)
  if s.trace.on then
    s.traceFireIf fun k =>
      s.trigKind k == 2 && fld (s.trigArg k) 7 0 == source && decide (fld (s.trigArg k) 9 8 ≤ sev)
  else s

/-- Whether a probe's filter takes a head at an output (R450). -/
def State.probeTakes (s : State) (p pos out vc : Nat) (pkt : Pkt) : Bool :=
  let c := s.die (Reg.PROBE_CFG p)
  let m := s.die (Reg.PROBE_MATCH p)
  bit c 31 && mkPos (fld c 30 26) (fld c 25 21) == pos && fld c 20 17 == out && bit c (11 + vc) &&
    bit m (16 + pkt.ty.toNat) && (fld m 11 0 == 0 || fld m 11 0 == pkt.ctx.toNat)

/-- A probe's match: counted, recorded, and KIND 3 conditions see it. -/
def State.probeHit (s : State) (p pos out vc : Nat) (pkt : Pkt) : State :=
  let s := s.count (dieA (Reg.PROBE_HIT_CNT p)) 1
  if s.trace.on then
    let s := (s.traceCapture p (pktRecord (s.stamp pos) pos out vc p pkt)).draw
    s.traceFireIf fun k => s.trigKind k == 3 && fld (s.trigArg k) 2 0 == p
  else s

/-- A head crosses a router output: every probe that names it (R442). -/
def State.traceHead (s : State) (pos out vc : Nat) (pkt : Pkt) : State :=
  (List.range 8).foldl (fun t p => if s.probeTakes p pos out vc pkt then t.probeHit p pos out vc pkt else t) s

/-- TRIG_NT of a condition. -/
def State.trigNt (s : State) (k : Nat) : Nat := s.reg64 (dieA (Reg.TRIG_NT_LO k))

/-- Timer channels that TRACE holds (R449). -/
def State.timerChannels (s : State) : Nat := ((List.range 32).filter fun c => s.holds 2 1 c).length

/-- Whether a condition can be armed: KIND 4 needs a channel, one for each such condition. -/
def State.canArm (s : State) (k : Nat) : Bool :=
  match s.trigKind k with
  | 1 | 2 | 3 | 5 => true
  | 4 => decide (((List.range k).filter fun j => s.trigKind j == 4).length < s.timerChannels)
  | _ => false

/-- ARM: both areas are emptied and capture starts (R449, R450). A KIND 4 condition without its channel stays unarmed,
with ERR and a CAUSE 4 crumb. -/
def State.traceStart (s : State) : State :=
  let armed := ((List.range 4).filter fun k => s.canArm k).foldl (fun m k => m + 2 ^ k) 0
  let running := s.traceMode == 1 || s.traceMode == 2
  let s := { s with trace := { s.trace with
    on := running, armed := armed, trigAt := 0, fifos := [], gaps := [], part := none, lost := []
    window := 0, main := 0, stream := [], syncAt := s.time.edges } }
  let s := s.setDie Reg.TRACE_STAT (setFld (setFld (setFld (s.die Reg.TRACE_STAT) 31 30 0) 28 26 0) 25 0 0)
  let s := s.setDieF Reg.TRACE_STAT 25 14 s.prePtr
  let s := if s.trace.on && s.traceMode == 2 then (s.toStream [s.syncUnit]).draw else s
  ((List.range 4).filter fun k => s.trace.on && s.trigKind k == 4 && !s.canArm k).foldl (fun t _ =>
    ((t.setDieF Reg.TRACE_STAT 29 29 1).count (dieA Reg.TRACE_LOST_CNT) 1
      |>.toWindow [crumb 1 4 (traceUnit t.capture 5 false 0 0)]).draw) s

/-- MODE takes a new value: refused for STREAM without the trace port's claim (R447); during capture the new mode starts
at once (R456). -/
def State.traceSetMode (s : State) (m : Nat) : State :=
  if m = s.traceMode then s
  else if m = 2 ∧ !s.holds 2 5 5 then s.setDieF Reg.TRACE_STAT 29 29 1
  else
    let on := s.trace.on
    let s := s.setDieF Reg.TRACE_CTRL 1 0 m
    let s := s.when (m == 3) fun t => t.cfgNote (dieA Reg.TRACE_CTRL)
    if on then s.traceStart else s

/-- A TRACE_CTRL write (R450): MODE, then ARM, then TRIG. -/
def State.traceCtrlWrite (s : State) (data : Word) : State :=
  let s := s.traceSetMode (fld data 1 0)
  let s := if bit data 31 then s.traceStart else s
  if bit data 30 then s.traceFireIf fun k => s.trigKind k == 5 else s

/-- TRACE_ARM (R450). -/
def execTraceArm (acc : Access) (data : Word) (s : State) : Out :=
  done (guardedWrite acc (dieA Reg.TRACE_CTRL) (fun t => t.traceCtrlWrite data) s)

/-- TRACE_TRIG (R449). -/
def execTraceTrig (acc : Access) (data : Word) (s : State) : Out :=
  done (guardedWrite acc (dieA Reg.TRACE_CTRL) (fun t => t.traceCtrlWrite data) s)

/-- TRACE_MODE (R447). -/
def execTraceMode (acc : Access) (data : Word) (s : State) : Out :=
  done (guardedWrite acc (dieA Reg.TRACE_CTRL) (fun t => t.traceCtrlWrite data) s)

/-- A TRACE_MARK write makes a CODE 0x0B event (R445). -/
def State.traceMark (s : State) (data : Word) : State := s.traceEvent 0x0B data.toNat

/-- TRACE_MARK (R445). -/
def execTraceMark (acc : Access) (data : Word) (s : State) : Out :=
  done (guardedWrite acc (dieA Reg.TRACE_MARK) (fun t => t.traceMark data) s)

/-- TRACE_TRIGGER: NT has reached a KIND 4 condition's TRIG_NT; the other kinds fire with their cause (R449). -/
def execTraceTrigger (k : Nat) (s : State) : Out :=
  done (s.when (decide (k < 4) && s.trigKind k == 4 && decide (s.trigNt k ≤ s.ntNat) && !s.stopped) fun t => t.traceFire k)

/-- Edges between SYNC records: SYNC_US, 0 acting as 1. -/
def State.syncEdges (s : State) : Nat := 100 * max 1 (s.dieF Reg.TRACE_SYNC 15 0)

/-- TRACE_SYNC (R448). -/
def execTraceSync (s : State) : Out :=
  done (s.when (s.trace.on && s.traceMode == 2 && !s.stopped && decide (s.trace.syncAt + s.syncEdges ≤ s.time.edges)) fun t =>
    ({ t with trace := { t.trace with syncAt := t.time.edges } }.toStream [t.syncUnit]).draw)

/-- Word `w` of the unit that TRACE_RD_SEL names; the read of word 3 advances UNIT (R450). -/
def State.traceRead (s : State) (w : Nat) : Word × State :=
  let u := s.dieF Reg.TRACE_RD_SEL 13 0
  (lo32 ((s.trace.buf.get 0 u).toNat >>> (32 * w)), s.when (w == 3) fun t => t.setDieF Reg.TRACE_RD_SEL 13 0 (u + 1))

/-- TRACE_RD_DATA: a read of TRACE_RD_DATA_3 (R450). -/
def execTraceRdData (acc : Access) (s : State) : Out :=
  done (guardedRead acc (dieA (Reg.TRACE_RD_DATA 3)) (fun t => t.traceRead 3) s)

/-! ### Engine activity (R430) -/

/-- An engine moves data in the cycle in progress, on a command of a slot; slot 64 stands for no command. -/
def State.busy (s : State) (pos slot q : Nat) : State :=
  if s.act.moved.contains (4 * pos + q, slot) then s
  else { s with act := { s.act with moved := (4 * pos + q, slot) :: s.act.moved } }

end Sys2Proof.Machine
end

