-- ==== Sys2Proof/Machine/Packets.lean ====
section
/-! DEFINITION. Endpoint addresses (R44 to R49), the packet header bit by bit (R54 to R58), the packets the block
creates as answers (R57, R64, R137, R495), and deadlines (R137). -/
namespace Sys2Proof.Machine

/-! ### Endpoint addresses -/

/-- Die id of an endpoint address (R44). -/
def dieOf (a : BitVec 32) : BitVec 17 := BitVec.ofNat 17 (a.toNat >>> 15)
/-- ROW of an endpoint address (R44). -/
def adRow (a : BitVec 32) : Nat := bitsOf a.toNat 14 10
/-- COL of an endpoint address (R44). -/
def adCol (a : BitVec 32) : Nat := bitsOf a.toNat 9 5
/-- PORT of an endpoint address (R44). -/
def adPort (a : BitVec 32) : Nat := bitsOf a.toNat 4 0
/-- GROUP of a die id. -/
def idGroup (d : BitVec 17) : Nat := bitsOf d.toNat 16 10
/-- RACK of a die id. -/
def idRack (d : BitVec 17) : Nat := bitsOf d.toNat 9 5
/-- SLOT of a die id. -/
def idSlot (d : BitVec 17) : Nat := bitsOf d.toNat 4 0

/-- The endpoint address of a die, row, column and port (R44). -/
def endpoint (die : BitVec 17) (row col port : Nat) : BitVec 32 :=
  BitVec.ofNat 32 (die.toNat * 2 ^ 15 + (row % 32) * 2 ^ 10 + (col % 32) * 2 ^ 5 + port % 32)

/-- The local-die alias (R45). -/
def aliasId : BitVec 17 := 0x1FFFF

/-- Whether a die id names this die: its own id or the alias (R45). -/
def State.ownDie (s : State) (d : BitVec 17) : Bool := d == aliasId || d == s.time.dieId

/-- The endpoint of a tile port's PORT 0 to 4: logical column (R49); at a spare the physical column stands in. -/
def State.tileEndpoint (s : State) (pos port : Nat) : BitVec 32 :=
  endpoint s.time.dieId (rowOf pos) ((s.logical pos).getD (colOf pos)) port

/-- The endpoint of an edge port, or of a router with PORT 31: physical column (R49, R495). -/
def State.physEndpoint (s : State) (pos port : Nat) : BitVec 32 :=
  endpoint s.time.dieId (rowOf pos) (colOf pos) port

/-! ### Answers -/

/-- DL_BUDGET of a VC at a port (R138): a tile port below PORT 16, else an edge side. -/
def State.dlBudget (s : State) (pos port vc : Nat) : Nat :=
  let lo := if port < 16 then tileA pos Reg.DL_BUDGET_LO else edgeA pos (port - 16) Reg.E_DL_BUDGET_LO
  let hi := if port < 16 then tileA pos Reg.DL_BUDGET_HI else edgeA pos (port - 16) Reg.E_DL_BUDGET_HI
  if vc < 4 then fld (s.reg lo) (8 * vc + 7) (8 * vc) else fld (s.reg hi) (8 * (vc - 4) + 7) (8 * (vc - 4))

/-- The requester endpoint of a packet (R64). -/
def requester (p : Pkt) : BitVec 32 :=
  if adPort p.src < 16 then endpoint (dieOf p.src) (adRow p.src) (adCol p.src) 0 else p.src

/-- The CMPL that answers a packet with a status (R57, R64, R137, R154, R495), formed by a port at a position. -/
def State.cmplOf (s : State) (pos port : Nat) (srcEp : BitVec 32) (p : Pkt) (status : Nat) : Pkt :=
  { Pkt.zero with
    dest := requester p
    src := srcEp
    ctx := BitVec.ofNat 12 p.rspCtx
    vc := 5
    cls := Config.answerClass s.fresh
    ty := BitVec.ofNat 4 tyCMPL
    deadline := BitVec.ofNat 16 (s.nowDl + s.dlBudget pos (if port = 31 then 0 else port) 5)
    seq := p.seq
    ccnt := p.ccnt
    tag := p.tag
    cnt := if p.ty.toNat = tyREAD_REQ then p.cmplReq else true
    tw := BitVec.ofNat 64 (status + p.seq.toNat * 2 ^ 16 + p.ty.toNat * 2 ^ 40)
    payload := [0] }

/-- SRC of what a port creates (R495). -/
def State.creatorEp (s : State) (pos port : Nat) : BitVec 32 :=
  if port < 16 then s.tileEndpoint pos port else s.physEndpoint pos port

/-- Packets formed at a port and waiting for injection. -/
def State.answersAt (s : State) (pos port : Nat) : List Pkt := s.mesh.answers.get [] (32 * pos + port)

/-- A port forms a packet; it waits there for injection. -/
def State.pushAnswer (s : State) (pos port : Nat) (p : Pkt) : State :=
  { s with mesh := { s.mesh with answers := s.mesh.answers.set [] (32 * pos + port) (s.answersAt pos port ++ [p]) } }

/-- The queue of answers of a position's tile side, of an edge side (PORT 16 to 19), or of its router (PORT 31). -/
def answerPort (port : Nat) : Nat := if port < 16 then 0 else port

/-- Where an answer is due, one CMPL is formed (R64). -/
def State.answer (s : State) (pos port : Nat) (p : Pkt) (status : Nat) : State :=
  if p.answered then
    (s.pushAnswer pos (answerPort port) (s.cmplOf pos port (s.creatorEp pos port) p status)).draw
  else s

/-- The READ_RSP that answers a READ_REQ with data (R57). -/
def State.readRspOf (s : State) (pos port : Nat) (p : Pkt) (ws : List DataWord) : Pkt :=
  let ret := (p.payload.headD 0).toNat % 2 ^ 48
  Pkt.withPayload
    { Pkt.zero with
      dest := requester p
      src := s.creatorEp pos port
      ctx := BitVec.ofNat 12 p.rspCtx
      vc := 5
      cls := Config.answerClass s.fresh
      ty := BitVec.ofNat 4 tyREAD_RSP
      deadline := BitVec.ofNat 16 (s.nowDl + s.dlBudget pos port 5)
      seq := p.seq
      ccnt := p.ccnt
      tag := p.tag
      cnt := p.cmplReq
      tw := BitVec.ofNat 64 ret } ws

/-! ### Stencil gates and deadlines (R127 to R131, R137) -/

/-- Whether a VC is gated (R127). -/
def State.gated (s : State) (vc : Nat) : Bool :=
  vc == 0 || (vc == 2 && bit (s.die Reg.STENCIL_CTRL) 5) || (vc == 3 && bit (s.die Reg.STENCIL_CTRL) 6)

/-- STENCIL_BANK.ACTIVE. -/
def State.stencilBank (s : State) : Nat := s.dieF Reg.STENCIL_BANK 0 0

/-- The key of a stencil entry. -/
def stencilKey (bank pos point index : Nat) : Nat := 256 * (32 * (1024 * bank + pos) + point) + index

/-- A stencil entry (R128). -/
def State.stencilEntry (s : State) (bank pos point index : Nat) : BitVec 64 :=
  s.time.stencils.get 0 (stencilKey bank pos point index)

/-- DUR of an entry. -/
def entDur (e : BitVec 64) : Nat := e.toNat % 65536
/-- DUR as the sequencer takes it: 0 acts as 1 (R129). -/
def entDurEff (e : BitVec 64) : Nat := max 1 (entDur e)
/-- GATE of an entry. -/
def entGate (e : BitVec 64) : Nat := bitsOf e.toNat 19 16
/-- AWAKE. -/
def entAwake (e : BitVec 64) : Bool := e.toNat.testBit 20
/-- BYP_EN. -/
def entByp (e : BitVec 64) : Bool := e.toNat.testBit 21
/-- LAST. -/
def entLast (e : BitVec 64) : Bool := e.toNat.testBit 22
/-- DL_ADD. -/
def entDlAdd (e : BitVec 64) : Nat := bitsOf e.toNat 31 24
/-- The writer a wash entry names. -/
def entWriter (e : BitVec 64) : Option Nat :=
  if e.toNat.testBit 42 then some (mkPos (bitsOf e.toNat 41 37) (bitsOf e.toNat 36 32)) else none

/-- Whether a point has a stencil: entry 0 of the active bank has DUR other than 0 (R129). -/
def State.hasStencil (s : State) (pos point : Nat) : Bool :=
  entDur (s.stencilEntry s.stencilBank pos point 0) != 0

/-- Whether a VC may start at a point (R129, R131, R126): open unless a running stencil's entry closes it, and
closed at every stencil after expiry. -/
def State.gateOpen (s : State) (pos point vc : Nat) : Bool :=
  if !s.gated vc || !s.hasStencil pos point then true
  else if s.stencilRun then
    match s.time.gates.find? (32 * pos + point) with
    | some g => (entGate g.entry).testBit vc
    | none => false
  else s.timeState != 4

/-- NT at which the entry in use at a point ends. -/
def GateNow.closes (g : GateNow) : Nat := (g.opens + (32 * entDurEff g.entry : Nat)).toNat

/-- NT at which the open window of a VC at a point ends: entries that follow on with the same VC open belong to the
same entry only by their own close, so the close is the entry's (R137). -/
def State.windowClose (s : State) (pos point : Nat) : Option (Nat × Nat) :=
  if s.stencilRun && s.hasStencil pos point then
    (s.time.gates.find? (32 * pos + point)).map fun g => (g.closes, entDlAdd g.entry)
  else none

/-- The deadline bound of R137: no stamp lies more than 2^14 units after NOW_DL. -/
def clampDl (now d : Nat) : BitVec 16 :=
  let ahead := (d + 65536 - now % 65536) % 65536
  if 16384 < ahead ∧ ahead < 32768 then BitVec.ofNat 16 (now + 16384) else BitVec.ofNat 16 d

/-- The DEADLINE a port stamps on a packet it injects (R137). -/
def State.deadlineFor (s : State) (pos port point vc : Nat) : BitVec 16 :=
  match (if s.gated vc then s.windowClose pos point else none) with
  | some (close, add) =>
    let ahead := close / 512 + add - s.ntNat / 512
    if 16384 < ahead then BitVec.ofNat 16 (s.nowDl + 16384) else BitVec.ofNat 16 (close / 512 + add)
  | none => clampDl s.nowDl ((s.nowDl + s.dlBudget pos port vc) % 65536)

end Sys2Proof.Machine
end

