-- ==== Sys2Proof/Machine/Router.lean ====
section
/-! DEFINITION. The data-mesh router: buffers and on/off signals (R88 to R91), discards (R50, R106), the route-entry
and spray-set checks (R80, R81), multicast legs (R83 to R87), the head lookup (R72 to R82), arbitration
(R98 to R103) and the crossing of a flit (R86, R88). -/
namespace Sys2Proof.Machine

/-! ### Buffers and outputs -/

/-- The key of an input buffer. -/
def vcKey (pos input vc : Nat) : Nat := 84 * pos + 6 * input + vc
/-- The key of an output. -/
def outKey (pos output : Nat) : Nat := 14 * pos + output

/-- An input buffer of a router. -/
def State.vcb (s : State) (pos input vc : Nat) : VcBuf := s.mesh.vcs.get VcBuf.empty (vcKey pos input vc)
/-- The state with an input buffer replaced. -/
def State.setVcb (s : State) (pos input vc : Nat) (b : VcBuf) : State :=
  { s with mesh := { s.mesh with vcs := s.mesh.vcs.set VcBuf.empty (vcKey pos input vc) b } }
/-- An output of a router. -/
def State.outp (s : State) (pos output : Nat) : OutPort := s.mesh.outs.get OutPort.empty (outKey pos output)
/-- The state with an output replaced. -/
def State.setOutp (s : State) (pos output : Nat) (o : OutPort) : State :=
  { s with mesh := { s.mesh with outs := s.mesh.outs.set OutPort.empty (outKey pos output) o } }

/-- ONOFF thresholds in use: the written ones where 4 ≤ OFF_FREE < ON_FREE ≤ 8, else 4 and 6 (R90). -/
def State.onOff (s : State) (pos : Nat) : Nat × Nat :=
  let w := s.reg (rtrA pos Reg.ONOFF_CFG)
  let offF := fld w 3 0; let onF := fld w 7 4
  if 4 ≤ offF ∧ offF < onF ∧ onF ≤ 8 then (offF, onF) else (4, 6)

/-- The on/off signal after the occupancy changed (R89). -/
def offAfter (th : Nat × Nat) (old : Bool) (used : Nat) : Bool :=
  let free := 8 - used
  if free ≤ th.1 then true else if th.2 ≤ free then false else old

/-- The buffer after its flits changed: the port's own flits move in while there is room, and the signal follows. -/
def VcBuf.settle (b : VcBuf) (th : Nat × Nat) : VcBuf :=
  let room := 8 - b.buf.length
  let left := b.feed.drop room
  let b := { b with buf := b.buf ++ b.feed.take room, feed := left, shut := if left.isEmpty then none else b.shut }
  { b with off := offAfter th b.off b.buf.length }

/-- Whether a flit is its packet's tail. -/
def Flit.tail (f : Flit) : Bool := decide (f.idx = f.pkt.len.toNat)

/-- A flit is latched into an input buffer; the rest of a discarded packet is thrown away as it arrives (R79). -/
def State.latch' (s : State) (pos input vc : Nat) (f : Flit) : State :=
  let b := s.vcb pos input vc
  if b.dropping then s.setVcb pos input vc { b with dropping := !f.tail }
  else s.setVcb pos input vc ({ b with buf := b.buf ++ [f] }.settle (s.onOff pos))

/-- The flits of the first packet of a buffer, and those after them. -/
def splitFront : List Flit → List Flit × List Flit
  | [] => ([], [])
  | f :: rest =>
    if f.tail then ([f], rest)
    else
      let (mine, left) := splitFront rest
      (f :: mine, left)

/-- The packet at the front of a buffer is thrown away: its flits already here at once, the rest as they arrive. -/
def VcBuf.dropFront (b : VcBuf) : VcBuf :=
  match b.buf with
  | [] => b
  | _ :: _ =>
    let (mine, left) := splitFront b.buf
    if mine.any Flit.tail then { b with buf := left, route := none, dropping := false }
    else
      let (more, feedLeft) := splitFront b.feed
      { b with buf := [], feed := feedLeft, route := none, dropping := !more.any Flit.tail }

/-- The side of an input: 0 north, 1 east, 2 south, 3 west; none for LOCAL and REDUCER (R70). -/
def sideOf (index : Nat) : Option Nat :=
  if 1 ≤ index ∧ index ≤ 12 then some ((index - 1) % 4) else none

/-- LOCAL, REDUCER and edge inputs are injection inputs (R77). -/
def isInjection (index : Nat) : Bool := index == 0 || index == 13 || (9 ≤ index && index ≤ 12)

/-- Whether an output exists at a position (R70). -/
def State.hasOutput (s : State) (pos out : Nat) : Bool :=
  let r := rowOf pos; let c := colOf pos
  if out = 0 ∨ out = 13 then true
  else if out ≤ 4 then Config.hasLink s.config r c (out - 1)
  else if out ≤ 8 then Config.dualLane s.config r c (out - 5)
  else if out ≤ 12 then s.edgePort pos (out - 9) != .none
  else false

/-- Whether a side's mesh link has two lanes. -/
def State.dual (s : State) (pos side : Nat) : Bool := Config.dualLane s.config (rowOf pos) (colOf pos) side

/-- The router on the far side of a mesh link. -/
def neighbour (pos side : Nat) : Nat :=
  match side with
  | 0 => pos - 32
  | 1 => pos + 1
  | 2 => pos + 32
  | _ => pos - 1

/-- The far router's input that a mesh output feeds: the opposite side, the same lane. -/
def farInput (out : Nat) : Nat :=
  let side := (out - 1) % 4
  let lane := (out - 1) / 4
  1 + (side + 2) % 4 + 4 * lane

/-- A part kind and number under which a mesh link lane is retired (R416): kind 0, key 14 * position + output. -/
def State.laneRetired (s : State) (pos out : Nat) : Bool := s.flt.retired.contains (0, 14 * pos + out)

/-- Whether the downstream VC of an output is On (R88, R89). LOCAL VC4 is Off while the message unit holds a waiting
head (R207); an edge or local endpoint otherwise takes what arrives (log entry 5). -/
def State.downOn (s : State) (pos out vc : Nat) : Bool :=
  if out = 0 then !(vc == 4 && (!(s.msgWait.get [] pos).isEmpty ||
    (s.mesh.intake.get [] (32 * pos + 4)).any fun p => p.ty.toNat == tyMSG))
  else if out = 13 then !(vc == 2 && !(s.mesh.intake.get [] (32 * pos + 13)).isEmpty)
  else if out ≤ 8 then
    !(s.vcb (neighbour pos ((out - 1) % 4)) (farInput out) vc).off && !s.flt.training.contains (0, 14 * pos + out) &&
      s.panelRuns (neighbour pos ((out - 1) % 4))
  else true

/-! ### Discards (R50, R79, R106) -/

/-- A discard that DISC_BAD_CNT counts, and its record (R50, R106). -/
def State.noteBad (s : State) (pos : Nat) (p : Pkt) : State :=
  (s.count (rtrA pos Reg.DISC_BAD_CNT) 1).raise Src.PKT_DISCARD pos .router 0 p.ctx.toNat p.src.toNat p.ctx.toNat

/-- A packet or share that a router discards as R50 states: counted, reported and answered. -/
def State.discardBad (s : State) (pos port : Nat) (p : Pkt) : State := (s.noteBad pos p).answer pos port p stBAD_CMD

/-- A packet or share addressed to a fenced tile port (R106, R418). -/
def State.discardFenced (s : State) (pos port : Nat) (p : Pkt) : State :=
  (s.count (rtrA pos Reg.DISC_FENCE_CNT) 1).answer pos port p stFENCED

/-- A packet lost to an uncorrectable block or a retired part (R106). -/
def State.discardLoss (s : State) (pos port : Nat) (p : Pkt) : State :=
  (s.count (rtrA pos Reg.DISC_LOSS_CNT) 1).answer pos port p stDATA_LOSS

/-- ROUTE_FLAG_INFO takes the first event after ROUTE_FLAG_STAT was last zero (R107). -/
def State.routeFlag (s : State) (pos bitNo : Nat) (input vc bank index : Nat) : State :=
  let st := s.reg (rtrA pos Reg.ROUTE_FLAG_STAT)
  let s := if st = 0 then
      s.setReg (rtrA pos Reg.ROUTE_FLAG_INFO)
        (BitVec.ofNat 32 (input * 2 ^ 16 + vc * 2 ^ 12 + bank * 2 ^ 11 + index % 2048))
    else s
  s.setReg (rtrA pos Reg.ROUTE_FLAG_STAT) (setBit st bitNo true)

/-- A packet that took a forbidden turn: none of it is forwarded (R79). -/
def State.discardTurn (s : State) (pos input vc bank index : Nat) (p : Pkt) : State :=
  let s := s.routeFlag pos 1 input vc bank index
  ((s.count (rtrA pos Reg.DISC_TURN_CNT) 1).raise Src.ROUTE_TURN pos .router input p.ctx.toNat p.src.toNat
    p.ctx.toNat).answer pos 31 p stBAD_CMD

/-! ### Route tables (R71 to R75, R80, R81) -/

/-- ROUTE_BANK.ACTIVE. -/
def State.routeBank (s : State) : Nat := s.dieF Reg.ROUTE_BANK 0 0
/-- The address of a route entry. -/
def entryA (pos bank index : Nat) : RegAddr :=
  rtrA pos (if bank = 0 then Reg.ROUTE_ENTRY_A index else Reg.ROUTE_ENTRY_B index)
/-- The address of a spray set. -/
def sprayA (pos bank n : Nat) : RegAddr := rtrA pos (if bank = 0 then Reg.SPRAY_A n else Reg.SPRAY_B n)
/-- A route entry. -/
def State.entry (s : State) (pos bank index : Nat) : Word := s.reg (entryA pos bank index)
/-- A spray set. -/
def State.spray (s : State) (pos bank n : Nat) : Word := s.reg (sprayA pos bank n)

/-- The side an output value of R74 names; none for NONE, SPRAY, BYPASS and unused values. -/
def valueSide (v : Nat) : Option Nat := if 1 ≤ v ∧ v ≤ 8 then some ((v - 1) % 4) else none
/-- The output index an output value names, lane 0: 1 to 4 mesh, 9 to 12 edge. -/
def valueOut (v : Nat) : Nat := if v ≤ 4 then v else v + 4

/-- Whether an output value names something this router has (R80): a mesh link, or a spine port group. -/
def State.valueExists (s : State) (pos v : Nat) : Bool :=
  if 1 ≤ v ∧ v ≤ 4 then Config.hasLink s.config (rowOf pos) (colOf pos) (v - 1)
  else if 5 ≤ v ∧ v ≤ 8 then (match s.edgePort pos (v - 5) with | .spine _ => true | _ => false)
  else false

/-- The members of a spray set, in member order, NONE left out (R81). -/
def sprayMembers (w : Word) : List (Nat × Nat) :=
  ((List.range 8).map fun i => (i, fld w (4 * i + 3) (4 * i))).filter fun m => m.2 != 0

/-- A spray set that makes every entry naming it invalid (R81). -/
def State.sprayInvalid (s : State) (pos : Nat) (w : Word) : Bool :=
  let ms := sprayMembers w
  ms.isEmpty || ms.any fun m => m.2 == 9 || decide (9 < m.2) || !s.valueExists pos m.2

/-- Bypass map `n` of a bank (R320). -/
def State.bypMap (s : State) (pos bank n : Nat) : Word := s.reg ⟨64, pos, Reg.W_BYP_MAP n bank⟩

/-- SP_CTRL of the spine group on a side, and whether it is a circuit group (R319). -/
def State.isCircuit (s : State) (pos side : Nat) : Bool :=
  (match s.edgePort pos side with | .spine _ => true | _ => false) && bit (s.reg (edgeA pos side Reg.SP_CIRC_CFG)) 31

/-- A bypass map that makes an entry invalid (R320). -/
def State.bypInvalid (s : State) (pos : Nat) (w : Word) : Bool :=
  let c := fld w 7 4; let f := fld w 3 0
  !bit w 16 || !(decide (5 ≤ c ∧ c ≤ 8) && s.isCircuit pos (c - 5)) || f == 0 || decide (8 < f) || !s.valueExists pos f

/-- The dimension-order direction toward an on-die destination; none at the position itself (R80). -/
def dimOrder (pos dest : Nat) : Option Nat :=
  if colOf pos < colOf dest then some 2
  else if colOf dest < colOf pos then some 4
  else if rowOf dest < rowOf pos then some 1
  else if rowOf pos < rowOf dest then some 3
  else none

/-- The write check of an entry with VALID = 1 (R80): `true` where it fails. -/
def State.entryInvalid (s : State) (pos bank index : Nat) (e : Word) : Bool :=
  let o := fld e 3 0; let q := fld e 7 4; let lane := fld e 9 8; let set := fld e 15 10
  let loc := decide (index < 1024)
  let outOk :=
    if o = 9 then !s.sprayInvalid pos (s.spray pos bank set)
    else if o = 10 then Config.spineRole s.config && !s.bypInvalid pos (s.bypMap pos bank set)
    else s.valueExists pos o && !(loc && decide (5 ≤ o))
  let sprayEdge := o == 9 && loc && (sprayMembers (s.spray pos bank set)).any fun m => decide (5 ≤ m.2)
  let qOk := s.valueExists pos q && !(loc && decide (5 ≤ q))
  let single := match o with
    | 9 => false
    | 10 => false
    | _ => match valueSide o with
      | some side => !(decide (o ≤ 4) && s.dual pos side)
      | none => true
  let laneBad := lane == 3 || (lane == 2 && single)
  let dimBad := loc && (match dimOrder pos index with
    | some d => q != d
    | none => false)
  !outOk || sprayEdge || !qOk || laneBad || dimBad

/-- The entry index of a destination (R71, R72); an MC_WRITE for another die looks its die id up (R87). -/
def State.entryIndex (s : State) (d : BitVec 17) (row col : Nat) : Nat :=
  let own := s.time.dieId
  if s.ownDie d then 32 * row + col
  else if idGroup d ≠ idGroup own then 1024 + idGroup d
  else if idRack d ≠ idRack own then 1152 + idRack d
  else 1184 + idSlot d

/-! ### Turn rules (R77) -/

/-- Whether a packet on a VC may not go from an input to an output side. -/
def forbiddenTurn (vc input outSide : Nat) : Bool :=
  if isInjection input then false
  else match sideOf input with
    | none => false
    | some i =>
      i == outSide ||
      (if vc = 4 then (i == 0 || i == 2) && (outSide == 1 || outSide == 3)
       else (i == 0 || i == 2) && outSide == 3)

/-! ### Multicast legs (R83 to R87) -/

/-- The leg out of a mesh side; a dual-lane side leaves the lane open (R86). -/
def State.sideLeg (s : State) (pos side : Nat) (p : Pkt) : Leg := ⟨1 + side, s.dual pos side, 0, p⟩
/-- The delivery to the tile port. -/
def localLeg (p : Pkt) : Leg := ⟨0, false, 0, p⟩

/-- The physical columns of the members of a row multicast that exist (R83). -/
def State.rowMembers (s : State) (p : Pkt) : List Nat :=
  (setBits 32 p.mask.toNat).filterMap fun c => s.physical (adRow p.dest) c

/-- The rows of a column multicast's members inside the mesh (R84). -/
def State.colMembers (s : State) (mask : Nat) : List Nat := setBits (Config.rows s.config) mask

/-- Lowest element of a list of numbers (0 for none). -/
def lowest (l : List Nat) : Nat := l.foldl min (l.headD 0)
/-- Highest element of a list of numbers (0 for none). -/
def highest (l : List Nat) : Nat := l.foldl max 0

/-- Legs of a column multicast that has reached its column, or starts there: branches north and south (R84). -/
def State.colSplit (s : State) (pos : Nat) (north south : Bool) (p : Pkt) : List Leg :=
  let ms := s.colMembers p.mask.toNat
  let r := rowOf pos
  (if north && ms.any (fun m => m < r) then [s.sideLeg pos 0 p] else []) ++
  (if south && ms.any (fun m => r < m) then [s.sideLeg pos 2 p] else [])

/-- Whether a row multicast's member here launches a relay copy, and the copy (R85). -/
def State.relayCopy (s : State) (pos : Nat) (p : Pkt) : Option Pkt :=
  if p.relay && !p.mcCol then
    let m := (s.reg (rtrA pos (Reg.RELAY_MASK (p.tword 63 60)))).toNat
    let row := adRow p.dest
    let m' := if m.testBit row then m - 2 ^ row else m
    if m' = 0 then none
    else some { p with
      mcCol := true
      relay := false
      mask := BitVec.ofNat 32 m'
      dest := endpoint (dieOf p.dest) row (colOf pos) (adPort p.dest) }
  else none

/-- What a router does with a multicast on its destination die: legs, the copies whose shares it discards, and
whether the share of this position is delivered. -/
structure McPlan where
  legs  : List Leg
  bad   : List Pkt     -- shares discarded as R50 states, one for each
  share : Bool         -- this position's tile port is a member
  none' : Bool         -- the packet is discarded whole, once, unanswered (MASK 0)
deriving DecidableEq, Repr

/-- The plan of a row multicast at a router (R83). -/
def State.rowPlan (s : State) (pos input : Nat) (entryHere : Bool) (p : Pkt) : McPlan :=
  let r := rowOf pos; let c := colOf pos; let dr := adRow p.dest
  let ms := s.rowMembers p
  let badBits := (setBits 32 p.mask.toNat).filter fun b => (s.physical dr b).isNone
  let bad := if entryHere then badBits.map fun _ => p else []
  if p.mask = 0 then ⟨[], [], false, true⟩
  else if ms.isEmpty then ⟨[], bad, false, false⟩
  else
    let cW := lowest ms; let cE := highest ms
    let west := s.sideLeg pos 3 p; let east := s.sideLeg pos 1 p
    let vert := s.sideLeg pos (if dr < r then 0 else 2) p
    if r = dr then
      let goW := if entryHere then cW < c else sideOf input == some 1 && cW < c
      let goE := if entryHere then c < cE else sideOf input != some 1 && c < cE
      ⟨(if goW then [west] else []) ++ (if goE then [east] else []), bad, ms.contains c, false⟩
    else
      let fromSide := sideOf input
      let vertical := !entryHere && (fromSide == some 0 || fromSide == some 2)
      if vertical then ⟨[vert], bad, false, false⟩
      else if cW < c then ⟨[west], bad, false, false⟩
      else ⟨[vert], bad, false, false⟩

/-- The plan of a column multicast at a router (R84). -/
def State.colPlan (s : State) (pos input : Nat) (entryHere : Bool) (p : Pkt) : McPlan :=
  let r := rowOf pos; let c := colOf pos; let dc := adCol p.dest
  let beyond := (setBits 32 p.mask.toNat).filter fun b => Config.rows s.config ≤ b
  if p.mask = 0 then ⟨[], [], false, true⟩
  else if Config.cols s.config ≤ dc then
    ⟨[], (setBits 32 p.mask.toNat).map fun _ => p, false, false⟩
  else
    let fromSide := sideOf input
    let vertical := !entryHere && (fromSide == some 0 || fromSide == some 2)
    let member := p.mask.toNat.testBit r
    if vertical then
      ⟨s.colSplit pos (fromSide == some 2) (fromSide == some 0) p, [], member, false⟩
    else if c = dc then
      ⟨s.colSplit pos true true p, beyond.map fun _ => p, member, false⟩
    else ⟨[s.sideLeg pos (if c < dc then 1 else 3) p], [], false, false⟩

/-! ### The head lookup (R72) -/

/-- What a lookup decides. -/
inductive Decision where
  | legs (l : List Leg)
  | bad                       -- R50: invalid destination, unused port, refused type, invalid entry
  | fenced                    -- a fenced tile port (R106)
  | loss                      -- a retired lane (R416)
  | turn (bank index : Nat)   -- a forbidden turn (R79)
  | wait                      -- no member of the spray set is On yet (R82)
deriving DecidableEq, Repr

/-- Whether a tile port is fenced (R417). -/
def State.fenced (s : State) (pos : Nat) : Bool := bit (s.reg (tileA pos Reg.TP_FENCE)) 30

/-- The types each port accepts (R49). -/
def State.portAccepts (s : State) (pos port ty : Nat) : Bool :=
  match port with
  | 0 => ty == tyWRITE || ty == tyREAD_RSP || ty == tyMC_WRITE || ty == tyCMPL || ty == tyRING_BLOCK || ty == tyREAD_REQ
  | 1 | 2 => ty == tyREAD_REQ
  | 3 => ty == tyPARTIAL
  | 4 => ty == tyMSG || ty == tyWELL_ADD
  | 16 | 17 | 18 | 19 =>
    match s.edgePort pos (port - 16) with
    | .memory _ _ => ty == tyWRITE || ty == tyREAD_REQ
    | .host _ => !Config.spineRole s.config && (ty == tyWRITE || ty == tyREAD_REQ || ty == tyREAD_RSP || ty == tyCMPL)
    | _ => false
  | _ => false

/-- Delivery by PORT at the destination position (R49, R50, R72). -/
def State.deliverByPort (s : State) (pos : Nat) (p : Pkt) : Decision :=
  let port := adPort p.dest
  if !s.portAccepts pos port p.ty.toNat then .bad
  else if port < 16 then (if s.fenced pos then .fenced else .legs [localLeg p])
  else .legs [⟨port - 7, false, 0, p⟩]

/-- The spray member a packet takes: the first after the last used whose downstream VC is On; VC2 takes MEMBER0
(R82). A dual-lane member is On where some lane is. -/
def State.sprayPick (s : State) (pos bank set vc : Nat) : Option (Nat × Nat) :=
  let ms := sprayMembers (s.spray pos bank set)
  if vc = 2 then (sprayMembers (s.spray pos bank set)).find? fun m => m.1 == 0
  else
    let last := s.mesh.sprayAt.get 0 (128 * pos + 64 * bank + set)
    let order := (ms.filter fun m => last ≤ m.1) ++ (ms.filter fun m => m.1 < last)
    order.find? fun m =>
      let o := valueOut m.2
      s.downOn pos o vc || (decide (m.2 ≤ 4) && s.dual pos (m.2 - 1) && s.downOn pos (o + 4) vc)

/-- The run of consecutive entries with BYP_EN from an index on, in NT units, at most one period (R322). -/
def State.bypRun (s : State) (bank pos point : Nat) : (fuel index : Nat) → Nat
  | 0, _ => 0
  | fuel + 1, i =>
    let e := s.stencilEntry bank pos point i
    if entByp e then
      32 * entDurEff e + s.bypRun bank pos point fuel (if entLast e || i == 255 then 0 else i + 1)
    else 0

/-- NT left to the end of the circuit window at a side's output; none outside a window (R321, R322). -/
def State.windowLeft (s : State) (pos side : Nat) : Option Nat :=
  let point := 9 + side
  if s.stencilRun && s.hasStencil pos point then
    match s.time.gates.find? (32 * pos + point) with
    | some g =>
      if entByp g.entry then
        let rest := s.bypRun s.stencilBank pos point 255 (if entLast g.entry || g.index == 255 then 0 else g.index + 1)
        some (g.closes + rest - s.ntNat)
      else none
    | none => none
  else none

/-- The effective cutoff of a circuit group in NT units: the larger of CUTOFF and SP_LOOP plus the time of 8,256 B at
the port's rate of 25 × W GB/s, in whole stencil units (R323). W is the agreed width of a port in service, else 8. -/
def State.effCutoff (s : State) (pos side : Nat) : Nat :=
  let cut := 32 * fld (s.reg (edgeA pos side Reg.SP_CIRC_CFG)) 15 0
  let loop := (s.reg (edgeA pos side (Reg.SP_LOOP 0))).toNat
  let stat := s.reg (edgeA pos side (Reg.SP_PORT_STAT 0))
  let rate := 25 * (if fld stat 31 28 = 8 then 2 ^ fld stat 27 26 else 8)
  max cut (32 * ceilDiv (loop + ceilDiv (8256 * 16) rate) 32)

/-- The output value a BYPASS entry takes (R321). -/
def State.bypassValue (s : State) (pos bank n vc : Nat) : Nat :=
  let w := s.bypMap pos bank n
  let circuit := fld w 7 4
  let side := circuit - 5
  let up := bit (s.reg (edgeA pos side Reg.SP_CIRC_STAT)) 27
  match s.windowLeft pos side with
  | some left => if vc ≠ 2 ∧ s.effCutoff pos side < left ∧ up then circuit else fld w 3 0
  | none => fld w 3 0

/-- The leg of an output value under a lane policy (R75, R76): lane 0, lane 1, or open. -/
def State.valueLeg (s : State) (pos v lane entryIdx : Nat) (p : Pkt) : Leg :=
  if v ≤ 4 ∧ s.dual pos (v - 1) then
    if s.laneRetired pos v && !s.laneRetired pos (v + 4) && lane == 0 then ⟨v + 4, false, entryIdx, p⟩
    else if s.laneRetired pos (v + 4) && lane == 0 then ⟨v, false, entryIdx, p⟩
    else if lane = 0 then ⟨v, true, entryIdx, p⟩
    else if lane = 2 then ⟨v + 4, false, entryIdx, p⟩
    else ⟨v, false, entryIdx, p⟩
  else ⟨valueOut v, false, entryIdx, p⟩

/-- The inputs whose sides a head must be allowed from: its own, or those that an emitted partial absorbed (R78). -/
def State.turnInputs (s : State) (pos input : Nat) : List Nat :=
  if input = 13 then (s.mesh.redOut.get [] pos).headD [] else [input]

/-- The sides of the front emitted partial are dropped with its lookup. -/
def State.popSides (s : State) (pos input : Nat) : State :=
  s.when (input == 13) fun t =>
    { t with mesh := { t.mesh with redOut := t.mesh.redOut.set [] pos ((t.mesh.redOut.get [] pos).drop 1) } }

/-- The lookup of a unicast head in the active bank (R72 to R82). -/
def State.lookupEntry (s : State) (pos input vc : Nat) (index : Nat) (p : Pkt) : Decision × Option (Nat × Nat) :=
  let bank := s.routeBank
  let e := s.entry pos bank index
  if !bit e 16 || s.flt.retired.contains (6, 4096 * pos + 2048 * bank + index) || s.entryInvalid pos bank index e then
    (.bad, none)
  else
    let lane := fld e 9 8
    let pick : Option (Nat × Option (Nat × Nat)) :=
      if vc = 4 then some (fld e 7 4, none)
      else if fld e 3 0 = 9 then (s.sprayPick pos bank (fld e 15 10) vc).map fun m => (m.2, some (fld e 15 10, m.1))
      else if fld e 3 0 = 10 then some (s.bypassValue pos bank (fld e 15 10) vc, none)
      else some (fld e 3 0, none)
    match pick with
    | none => (.wait, none)
    | some (v, used) =>
      match valueSide v with
      | none => (.bad, none)
      | some side =>
        if (s.turnInputs pos input).any (fun i => forbiddenTurn vc i side) then (.turn bank index, none)
        else
          let lane' := if vc = 4 ∧ !(decide (v ≤ 4) && s.dual pos side) then 0 else lane
          let leg := s.valueLeg pos v lane' index p
          if !leg.free && s.laneRetired pos leg.out then (.loss, used) else (.legs [leg], used)

/-- Whether the reducer of a position takes a PARTIAL: its tree entry TAG[15:10] is valid and it is not retired. -/
def State.reducerTakes (s : State) (pos : Nat) (p : Pkt) : Bool :=
  p.ty.toNat == tyPARTIAL && bit (s.reg ⟨64, pos, Reg.W_RED_TREE (bitsOf p.tag.toNat 15 10)⟩) 31 &&
    !s.flt.retired.contains (5, pos)

/-- The decision for a head: delivery by PORT, a table lookup, or the multicast plan (R72, R231). -/
def State.decide' (s : State) (pos input vc : Nat) (p : Pkt) : Decision × Option (Nat × Nat) :=
  let d := dieOf p.dest
  let port := adPort p.dest
  let base : Decision × Option (Nat × Nat) :=
    if s.ownDie d then
      let col : Option Nat := if port < 16 ∧ !p.mcCol then s.physical (adRow p.dest) (adCol p.dest)
        else if adRow p.dest < Config.rows s.config ∧ adCol p.dest < Config.cols s.config then some (adCol p.dest) else none
      match col with
      | none => (.bad, none)
      | some c =>
        if mkPos (adRow p.dest) c = pos then (s.deliverByPort pos p, none)
        else s.lookupEntry pos input vc (s.entryIndex d (adRow p.dest) c) p
    else s.lookupEntry pos input vc (s.entryIndex d 0 0) p
  match base with
  | (.legs l, used) =>
    if input ≠ 13 ∧ s.reducerTakes pos p then (.legs [⟨13, false, (l.headD (localLeg p)).out, p⟩], used) else (.legs l, used)
  | x => x

/-- The shares a multicast's plan leaves at this router: delivered, fenced, or discarded at a spare or a PORT that takes no
MC_WRITE (R20, R50, R84, R418). -/
def State.shareLegs (s : State) (pos : Nat) (p : Pkt) : List Leg × Option (Bool) :=
  if s.isSpare pos || !s.portAccepts pos (adPort p.dest) tyMC_WRITE then ([], some false)
  else if s.fenced pos then ([], some true)
  else ([localLeg p], none)

/-- Relay branches of a member router (R85): the launch enters here as a column multicast. -/
def State.relayPlan (s : State) (pos : Nat) (p : Pkt) : McPlan :=
  match s.relayCopy pos p with
  | some q => { s.colPlan pos 0 true q with share := false }
  | none => ⟨[], [], false, false⟩

/-- The route a router sets for the packet at the front of a buffer. -/
def State.setRoute (s : State) (pos input vc : Nat) (legs : List Leg) : State :=
  s.setVcb pos input vc { s.vcb pos input vc with route := some ⟨legs, 0, false, false, []⟩ }

/-- The front packet of a buffer is dropped. -/
def State.dropFront (s : State) (pos input vc : Nat) : State :=
  s.setVcb pos input vc ((s.vcb pos input vc).dropFront.settle (s.onOff pos))

/-- Discards one share for each listed copy. -/
def State.discardShares (s : State) (pos port : Nat) : List Pkt → State
  | [] => s
  | p :: ps => (s.discardBad pos port p).discardShares pos port ps

/-- Whether a leg leads over a retired lane, with no other lane to take (R416). -/
def State.legRetired (s : State) (pos : Nat) (l : Leg) : Bool :=
  decide (1 ≤ l.out ∧ l.out ≤ 8) && s.laneRetired pos l.out && (!l.free || s.laneRetired pos (l.out + 4))

/-- The multicast at a router of its destination die (R83 to R86). -/
def State.lookupMc (s : State) (pos input vc : Nat) (f : Flit) : State :=
  let p := f.pkt
  let entryHere := !f.mc || isInjection input
  let plan := if p.mcCol then s.colPlan pos input entryHere p else s.rowPlan pos input entryHere p
  if plan.none' then (s.noteBad pos p).dropFront pos input vc
  else
    let relay := if plan.share && !p.mcCol then s.relayPlan pos p else ⟨[], [], false, false⟩
    let (own, refused) := if plan.share then s.shareLegs pos p else ([], none)
    let (cut, legs) := (own ++ plan.legs ++ relay.legs).partition (s.legRetired pos)
    let s := s.discardShares pos 31 (plan.bad ++ relay.bad)
    let s := cut.foldl (fun t l => t.discardLoss pos 31 l.pkt) s
    let s := match refused with
      | some true => s.discardFenced pos 31 p
      | some false => s.discardBad pos 31 p
      | none => s
    if legs.isEmpty then s.dropFront pos input vc else s.setRoute pos input vc legs

/-- ROUTE_LOOKUP: a head at the front of a buffer is checked by the first router (R56) and looked up (R72). -/
def State.routeLookup (s : State) (pos input vc : Nat) : State :=
  let b := s.vcb pos input vc
  match b.buf, b.route with
  | f :: _, none =>
    if f.idx ≠ 0 then s
    else if isInjection input && input != 13 && f.pkt.malformed then
      (s.discardBad pos 31 f.pkt).dropFront pos input vc
    else if f.pkt.ty.toNat = tyMC_WRITE && s.ownDie (dieOf f.pkt.dest) then s.lookupMc pos input vc f
    else
      match s.decide' pos input vc f.pkt with
      | (.legs l, used) =>
        let s := match used with
          | some (set, m) =>
            if vc = 2 then s
            else { s with mesh := { s.mesh with
              sprayAt := s.mesh.sprayAt.set 0 (128 * pos + 64 * s.routeBank + set) (m + 1) } }
          | none => s
        (s.setRoute pos input vc l).popSides pos input
      | (.bad, _) => ((s.discardBad pos 31 f.pkt).dropFront pos input vc).popSides pos input
      | (.fenced, _) => ((s.discardFenced pos 31 f.pkt).dropFront pos input vc).popSides pos input
      | (.loss, _) => ((s.discardLoss pos 31 f.pkt).dropFront pos input vc).popSides pos input
      | (.turn bank index, _) => ((s.discardTurn pos input vc bank index f.pkt).dropFront pos input vc).popSides pos input
      | (.wait, _) => s
  | _, _ => s

/-! ### Arbitration (R98 to R103) -/

/-- An arbitration value in use: the value last committed, the register's reset before any commit (R14, R102). -/
def State.arbReg (s : State) (pos off : Nat) : Word :=
  s.arbLive.get (resetOf (rtrA pos off)) (rtrA pos off).key

/-- DL_OFFSET[v][k] in use, signed (R102). -/
def State.dlOffset (s : State) (pos vc cls : Nat) : Int :=
  let w := s.arbReg pos (if cls < 4 then Reg.ARB_DLOFF_LO vc else Reg.ARB_DLOFF_HI vc)
  let k := cls % 4
  signed 8 (fld w (8 * k + 7) (8 * k))

/-- PRIO of a VC in use. -/
def State.vcPrio (s : State) (pos vc : Nat) : Nat := fld (s.arbReg pos Reg.ARB_PRIO) (3 * vc + 2) (3 * vc)

/-- Urgency u(P) (R98): DEADLINE + DL_OFFSET − NOW_DL modulo 2^16, as a signed 16-bit value. -/
def State.urgency (s : State) (pos vc : Nat) (p : Pkt) : Int :=
  signed 16 (encodeInt 16 ((p.deadline.toNat : Int) + s.dlOffset pos vc p.cls.toNat - (s.nowDl : Int)))

/-- The lane an open leg takes now: the lane that is On; of two, the one after the lane chosen last (R75). -/
def State.chooseLane (s : State) (pos out vc : Nat) : Option Nat :=
  let side := (out - 1) % 4
  let on0 := s.downOn pos out vc && !s.laneRetired pos out
  let on1 := s.downOn pos (out + 4) vc && !s.laneRetired pos (out + 4)
  let last := s.mesh.lastLane.get 0 (24 * pos + 6 * side + vc)
  if on0 && on1 then some (if last = 1 then 1 else 0)
  else if on0 then some 0
  else if on1 then some 1
  else none

/-- Fixes the open lanes of a packet's legs where some lane is On, and remembers the lane chosen. -/
def State.fixLanes (s : State) (pos input vc : Nat) : State :=
  let b := s.vcb pos input vc
  match b.route with
  | none => s
  | some r =>
    let step (acc : State × List Leg) (l : Leg) : State × List Leg :=
      if l.free then
        match acc.1.chooseLane pos l.out vc with
        | some k =>
          let side := (l.out - 1) % 4
          ({ acc.1 with mesh := { acc.1.mesh with
              lastLane := acc.1.mesh.lastLane.set 0 (24 * pos + 6 * side + vc) (k + 1) } },
            acc.2 ++ [{ l with out := l.out + 4 * k, free := false }])
        | none => (acc.1, acc.2 ++ [l])
      else (acc.1, acc.2 ++ [l])
    let (s', legs) := r.legs.foldl step (s, [])
    s'.setVcb pos input vc { b with route := some { r with legs := legs } }

/-- Whether a VC of an output is claimed by another input's packet (R88). -/
def OutPort.claimedByOther (o : OutPort) (vc input : Nat) : Bool :=
  o.claims.any fun c => c.1 == vc && c.2 != input

/-- Whether an (input, VC) pair has a flit that requests an output. -/
def State.requests (s : State) (pos output input vc : Nat) : Bool :=
  let b := s.vcb pos input vc
  match b.buf, b.route with
  | f :: _, some r => r.legs.any (fun l => l.out == output && !l.free) && r.sent == f.idx
  | _, _ => false

/-- Whether the front flit is a head. -/
def State.headAt (s : State) (pos input vc : Nat) : Bool :=
  match (s.vcb pos input vc).buf with
  | f :: _ => f.idx == 0
  | [] => false

/-- A candidate of R99: it requests the output, its downstream VC is On, a head finds it unclaimed, and its gate is
open where it is a head of a gated VC (R131). -/
def State.candidate (s : State) (pos output input vc : Nat) : Bool :=
  s.requests pos output input vc && s.downOn pos output vc &&
    (!s.headAt pos input vc || (!(s.outp pos output).claimedByOther vc input &&
      (output == 13 || s.gateOpen pos output vc)))

/-- The pairs of a router. -/
def allPairs : List (Nat × Nat) := (List.range 14).flatMap fun i => (List.range 6).map fun v => (i, v)

/-- The packet at the front of a pair. -/
def State.frontPkt (s : State) (pos input vc : Nat) : Pkt :=
  match (s.vcb pos input vc).buf with
  | f :: _ => f.pkt
  | [] => Pkt.zero

/-- The place of a pair in the round-robin of an output: input index after the last winner's, then VC index after
that input's last winning VC (R99, rule 4). -/
def OutPort.rrPlace (o : OutPort) (p : Nat × Nat) : Nat :=
  let i := match o.lastIn with | none => p.1 | some l => (p.1 + 14 - l - 1) % 14
  let v := match o.lastVc.find? (fun x => x.1 == p.1) with
    | none => p.2
    | some x => (p.2 + 6 - x.2 - 1) % 6
  6 * i + v

/-- Whether pair `a` ranks before pair `b` (R99, rules 2 to 4). -/
def State.ranksBefore (s : State) (pos : Nat) (o : OutPort) (a b : Nat × Nat) : Bool :=
  let ua := s.urgency pos a.2 (s.frontPkt pos a.1 a.2); let ub := s.urgency pos b.2 (s.frontPkt pos b.1 b.2)
  if ua ≠ ub then decide (ua < ub)
  else
    let pa := s.vcPrio pos a.2; let pb := s.vcPrio pos b.2
    if pa ≠ pb then decide (pb < pa) else decide (o.rrPlace a < o.rrPlace b)

/-- The first-ranked of a list of pairs. -/
def State.bestOf (s : State) (pos : Nat) (o : OutPort) : List (Nat × Nat) → Option (Nat × Nat)
  | [] => none
  | a :: rest =>
    match s.bestOf pos o rest with
    | none => some a
    | some b => some (if s.ranksBefore pos o b a then b else a)

/-- A packet paused mid-way on a VC resumes before any other of that VC (R101): its claim keeps others out. -/
def State.candidates (s : State) (pos output : Nat) : List (Nat × Nat) :=
  allPairs.filter fun p => s.candidate pos output p.1 p.2

/-- The owner chosen for the next cycle (R99). -/
def State.choose (s : State) (pos output : Nat) : Option (Nat × Nat) :=
  let o := s.outp pos output
  let cs := s.candidates pos output
  match o.owner with
  | some w =>
    if cs.contains w then
      let u := s.urgency pos w.2 (s.frontPkt pos w.1 w.2)
      let margin := fld (s.arbReg pos Reg.ARB_MARGIN) 7 0
      let victim := (fld (s.arbReg pos Reg.ARB_MARGIN) 21 16).testBit w.2
      let hot := cs.filter fun c => c.2 != w.2 && decide (s.urgency pos c.2 (s.frontPkt pos c.1 c.2) + margin < u)
      if victim && !hot.isEmpty then s.bestOf pos o hot else some w
    else s.bestOf pos o cs
  | none => s.bestOf pos o cs

/-- STARVE_LIMIT in cycles: LIMIT times 64; 0 disables (R103). -/
def State.starveLimit (s : State) (pos : Nat) : Nat := 64 * fld (s.reg (rtrA pos Reg.STARVE_LIMIT)) 15 0

/-- ROUTER_STARVE: a losing candidate's counter lies above STARVE_LIMIT: the flags are set, STARVE_FIRST is taken where
they were zero, and the first crossing since a win is reported (R103). -/
def State.starve (s : State) (pos input vc output : Nat) : State :=
  let b := s.vcb pos input vc
  let lim := s.starveLimit pos
  if lim ≠ 0 ∧ lim < b.wait ∧ s.candidate pos output input vc ∧ s.choose pos output ≠ some (input, vc) then
    let st := s.reg (rtrA pos Reg.STARVE_STAT)
    let s := if st = 0 then
        s.setReg (rtrA pos Reg.STARVE_FIRST)
          (BitVec.ofNat 32 (min (b.wait / 64) 65535 * 2 ^ 16 + (output % 16) * 2 ^ 12 + (vc % 8) * 2 ^ 4 + input % 16))
      else s
    let s := s.setReg (rtrA pos Reg.STARVE_STAT) (setBit (setBit st (16 + vc) true) input true)
    let s := s.setVcb pos input vc { b with told := true }
    if b.told then s else s.raise Src.ROUTER_STARVE pos .router input 0 (input * 8 + vc) output
  else s

/-- A conformance-monitor event (R141): the flag, the counter, the first record since the flags were last zero, and
the SCHED_NONCONF report (R139). -/
def State.monEvent (s : State) (kind pos point : Nat) : State :=
  let st := s.die Reg.SCHED_MON_STAT
  let idx := match s.time.gates.find? (32 * pos + point) with | some g => g.index | none => 0
  let ts := (s.stamp pos).toNat
  let s := if st = 0 then
      (((s.setDie Reg.SCHED_MON_FIRST (BitVec.ofNat 32
          (kind * 2 ^ 30 + rowOf pos * 2 ^ 25 + colOf pos * 2 ^ 20 + point * 2 ^ 15 + idx))).setDie
        Reg.SCHED_MON_NT_LO (lo32 ts)).setDie Reg.SCHED_MON_NT_HI (hi32 ts)).draw
    else s
  let cnt := if kind = 1 then Reg.SCHED_CLOSED_CNT else if kind = 2 then Reg.SCHED_OVERRUN_CNT else Reg.SCHED_CONTEND_CNT
  let s := (s.setDie Reg.SCHED_MON_STAT (setBit st (kind - 1) true)).count (dieA cnt) 1
  s.raise Src.SCHED_NONCONF pos .router point 0 kind point

/-- Marks a monitor event as counted for the packet of a pair, and counts it (R141). -/
def State.monMark (s : State) (kind pos output input vc : Nat) : State :=
  let b := s.vcb pos input vc
  match b.route with
  | none => s
  | some r =>
    if (if kind = 1 then r.closed else r.contend) then s
    else
      let r' := if kind = 1 then { r with closed := true } else { r with contend := true }
      (s.setVcb pos input vc { b with route := some r' }).monEvent kind pos output

/-- The monitor's view of one decision at an output: closed waits, and contention among gated heads (R141). -/
def State.monitorPair (s : State) (pos output : Nat) (winner : Option (Nat × Nat)) (s0 : State) (p : Nat × Nat) : State :=
  let head := s0.headAt pos p.1 p.2 && s0.requests pos output p.1 p.2 && s0.gated p.2 && output != 13
  if !head then s
  else
    let on := s0.downOn pos output p.2
    let claimed := (s0.outp pos output).claimedByOther p.2 p.1
    let open' := s0.gateOpen pos output p.2
    if on && !claimed && !open' then s.monMark 1 pos output p.1 p.2
    else if claimed || (open' && on && (match winner with
        | some w => w.2 == p.2 && w != p
        | none => false)) then s.monMark 3 pos output p.1 p.2
    else s

/-- A losing candidate's waiting counter counts the cycle, and saturates (R103). -/
def State.bumpLoser (s : State) (pos : Nat) (p : Nat × Nat) : State :=
  let b := s.vcb pos p.1 p.2
  s.setVcb pos p.1 p.2 { b with wait := min (b.wait + 1) (65535 * 64 + 63) }

/-- The branch outputs of the packet of a pair. -/
def State.branches (s : State) (pos : Nat) (p : Nat × Nat) : List Leg :=
  match (s.vcb pos p.1 p.2).route with
  | some r => r.legs
  | none => []

/-- A joint request holds nothing unless it wins at every branch (R86). -/
def State.jointWins (s : State) (pos : Nat) (w : Nat × Nat) : Bool :=
  (s.branches pos w).all fun l => !l.free && (s.choose pos l.out == some w)

/-- ARBITRATE: one decision at an output (R99 to R101, R103, R141). -/
def State.arbitrate (s : State) (pos output : Nat) : State :=
  let s := allPairs.foldl (fun t p =>
    if (t.branches pos p).any (fun l => l.free && (l.out == output || l.out + 4 == output)) then t.fixLanes pos p.1 p.2
    else t) s
  let winner := s.choose pos output
  let granted := match winner with
    | some w => if 1 < (s.branches pos w).length && !s.jointWins pos w then none else some w
    | none => none
  let cs := s.candidates pos output
  let o := s.outp pos output
  let s' := s.setOutp pos output { o with owner := granted }
  let s' := cs.foldl (fun t p => if some p = winner then t else t.bumpLoser pos p) s'
  allPairs.foldl (fun t p => t.monitorPair pos output winner s p) s'

/-! ### A flit crosses (R86, R88, R100) -/

/-- UTIL_CNT of an output counts the cycle (R108). -/
def State.utilCount (s : State) (pos output : Nat) : State :=
  if bit (s.die Reg.CMAP_CTRL) 8 then
    let k := outKey pos output
    { s with mesh := { s.mesh with util := s.mesh.util.set 0 k (satAdd (s.mesh.util.get 0 k) 1) } }
  else s

/-- A packet is complete at a port. -/
def State.arrive (s : State) (pos port : Nat) (p : Pkt) : State :=
  let k := 32 * pos + port
  { s with mesh := { s.mesh with intake := s.mesh.intake.set [] k (s.mesh.intake.get [] k ++ [p]) } }

/-- A packet reaches a spine port group from its router (R312). -/
def State.toSpine (s : State) (pos port entryIdx : Nat) (p : Pkt) : State :=
  let k := 32 * pos + port
  { s with mesh := { s.mesh with egress := s.mesh.egress.set [] k (s.mesh.egress.get [] k ++ [(entryIdx, p)]) } }

/-- A flit of a MSG reaches the tile port: the message unit looks at the head while the rest is still on its way (R204,
R207). -/
def State.msgFlit (s : State) (pos : Nat) (f : Flit) (p : Pkt) : State :=
  let s := s.when (f.idx == 0) fun t => t.arrive pos 4 p
  { s with mesh := { s.mesh with msgIn := s.mesh.msgIn.set [] pos (if f.tail then [] else [p]) } }

/-- One copy of a flit leaves by a leg. -/
def State.sendLeg (s : State) (pos vc : Nat) (f : Flit) (l : Leg) : State :=
  let p := { l.pkt with payload := f.pkt.payload }
  let s := s.utilCount pos l.out
  if l.out = 0 then
    (if p.ty.toNat = tyMSG then s.msgFlit pos f p
     else if f.tail then s.arrive pos (if adPort p.dest < 16 then adPort p.dest else 0) p else s)
  else if l.out = 13 then (if f.tail then s.arrive pos 13 p else s)
  else if l.out ≤ 8 then
    s.latch' (neighbour pos ((l.out - 1) % 4)) (farInput l.out) vc
      ⟨p, f.idx, p.ty.toNat == tyMC_WRITE && s.ownDie (dieOf p.dest)⟩
  else
    let port := l.out + 7
    match s.edgePort pos (l.out - 9) with
    | .spine _ => if f.tail then s.toSpine pos port l.entry p else s
    | _ => if f.tail then s.arrive pos port p else s

/-- The output's claim and round-robin state after a flit of a pair crossed (R88, R99, R100). -/
def OutPort.crossed (o : OutPort) (w : Nat × Nat) (tail : Bool) : OutPort :=
  { owner := if tail then none else some w
    parked := some w
    lastIn := some w.1
    lastVc := (w.1, w.2) :: o.lastVc.filter fun x => x.1 != w.1
    claims := if tail then o.claims.filter (fun c => c.1 != w.2)
      else (w.2, w.1) :: o.claims.filter fun c => c.1 != w.2 }

/-- The pair that crosses an output now: its owner, or the pair a parked grant waits on, for a head that is the only
candidate's (R100); a joint grant never uses a parked grant (R86). -/
def State.crossing (s : State) (pos output : Nat) : Option (Nat × Nat) :=
  let o := s.outp pos output
  match o.owner with
  | some w => if s.candidate pos output w.1 w.2 then some w else none
  | none =>
    match o.parked with
    | some w =>
      if s.headAt pos w.1 w.2 && s.candidates pos output == [w] && (s.branches pos w).length == 1 then some w else none
    | none => none

/-- The injection POINT of a port's own input: 14 for LOCAL, 16 to 19 for the edges (R127). -/
def injectPoint (input : Nat) : Option Nat :=
  if input = 0 then some 14 else if 9 ≤ input ∧ input ≤ 12 then some (input + 7) else none

/-- The close of the window that a gated VC's packet starts in at a point (R137, R141). -/
def State.shutAt (s : State) (pos point vc : Nat) : Option Nat :=
  if s.gated vc then (s.windowClose pos point).map Prod.fst else none

/-- The closes of the windows in which a head crosses to the outputs of its legs (R141). -/
def State.shutsOf (s : State) (pos vc : Nat) (legs : List Leg) : List (Nat × Nat) :=
  legs.filterMap fun l => if l.out = 13 then none else (s.shutAt pos l.out vc).map fun c => (l.out, c)

/-- A tail that leaves a port's injection buffer after its window closed counts as an overrun at the port's POINT
(R131, R141). -/
def State.injectOverrun (s : State) (pos input : Nat) (before after : VcBuf) : State :=
  match injectPoint input, before.shut with
  | some point, some c =>
    s.when ((before.feed.take (before.feed.length - after.feed.length)).any Flit.tail && decide (c < s.ntNat)) fun t =>
      t.monEvent 2 pos point
  | _, _ => s

/-- FLIT_CROSS: the granted pair's front flit crosses to every branch, and leaves its buffer (R76, R86, R88). -/
def State.flitCross (s : State) (pos output : Nat) : State :=
  match s.crossing pos output with
  | none => s
  | some w =>
    let b := s.vcb pos w.1 w.2
    match b.buf, b.route with
    | f :: rest, some r =>
      if r.legs.all (fun l => s.downOn pos l.out w.2) then
        let shuts := if f.idx = 0 then s.shutsOf pos w.2 r.legs else r.shuts
        let b' := { b with buf := rest, wait := 0, told := false
                           route := if f.tail then none else some { r with sent := r.sent + 1, shuts := shuts }
                    }.settle (s.onOff pos)
        let s1 := (s.setVcb pos w.1 w.2 b').injectOverrun pos w.1 b b'
        let s2 := r.legs.foldl (fun t l => t.setOutp pos l.out ((t.outp pos l.out).crossed w f.tail)) s1
        let s3 := r.legs.foldl (fun t l => (t.sendLeg pos w.2 f l).when (l.out == 13 && f.tail) fun u =>
          { u with mesh := { u.mesh with redIn := u.mesh.redIn.set [] pos (u.mesh.redIn.get [] pos ++ [w.1]) } }) s2
        let s4 := if f.idx = 0 then r.legs.foldl (fun t l => t.traceHead pos l.out w.2 l.pkt) s3 else s3
        if f.tail then
          shuts.foldl (fun t x => t.when (decide (x.2 < s.ntNat)) fun u => u.monEvent 2 pos x.1) s4
        else s4
      else s
    | _, _ => s

end Sys2Proof.Machine
end

