-- ==== Sys2Proof/Machine/Mesh.lean ====
section
/-! DEFINITION. The commands of the data mesh: lookup, arbitration, crossing, route tables, drain and swap, starvation
and congestion maps (R72 to R108), and the commit of arbitration values (R102). -/
namespace Sys2Proof.Machine

/-! ### Lookup, arbitration, crossing -/

/-- ROUTE_LOOKUP (R72). -/
def execRouteLookup (pos input vc : Nat) (s : State) : Out := done (s.when (!s.stopped) fun t => t.routeLookup pos input vc)

/-- ARBITRATE (R99). -/
def execArbitrate (pos output : Nat) (s : State) : Out := done (s.when (!s.stopped) fun t => t.arbitrate pos output)

/-- FLIT_CROSS (R88). -/
def execFlitCross (pos output : Nat) (s : State) : Out := done (s.when (!s.stopped) fun t => t.flitCross pos output)

/-- ROUTER_STARVE (R103). -/
def execRouterStarve (pos input vc output : Nat) (s : State) : Out := done (s.when (!s.stopped) fun t => t.starve pos input vc output)

/-! ### Arbitration values (R14, R102) -/

/-- The shadowed registers of a router. -/
def arbOffsets : List Nat :=
  [Reg.ARB_PRIO, Reg.ARB_MARGIN] ++ (List.range 6).flatMap fun v => [Reg.ARB_DLOFF_LO v, Reg.ARB_DLOFF_HI v]

/-- Every staged arbitration value of a router takes effect. -/
def State.arbCommit (s : State) (pos : Nat) : State :=
  { s with arbLive := arbOffsets.foldl (fun m off =>
      m.set (resetOf (rtrA pos off)) (rtrA pos off).key (s.reg (rtrA pos off))) s.arbLive }

/-- A write of ARB_COMMIT: COMMIT = 1 applies, 0 does nothing. -/
def State.arbCommitWrite (s : State) (pos : Nat) (data : Word) : State :=
  if bit data 0 then s.arbCommit pos else s

/-- ARB_COMMIT (R102). -/
def execArbCommit (acc : Access) (pos : Pos) (data : Word) (s : State) : Out :=
  done (guardedWrite acc (rtrA pos Reg.ARB_COMMIT) (fun t => t.arbCommitWrite pos data) s)

/-! ### Route entries and spray sets (R73, R80, R81) -/

/-- A route entry is written; with VALID = 1 it is checked, and stored as written either way (R80). -/
def State.routeEntryWrite (s : State) (pos bank index : Nat) (data : Word) : State :=
  let s := s.plainWrite (entryA pos bank index) data
  if bit data 16 && s.entryInvalid pos bank index (s.entry pos bank index) then s.routeFlag pos 0 0 0 bank index else s

/-- ROUTE_ENTRY_WRITE (R80). -/
def execRouteEntryWrite (acc : Access) (pos : Pos) (bank index : Nat) (data : Word) (s : State) : Out :=
  done (guardedWrite acc (entryA pos bank index) (fun t => t.routeEntryWrite pos bank index data) s)

/-- A spray set is written and checked: INVALID_ENTRY is flagged under index 1,216 + n (R81, R107). -/
def State.spraySetWrite (s : State) (pos bank n : Nat) (data : Word) : State :=
  let s := s.plainWrite (sprayA pos bank n) data
  if s.sprayInvalid pos data then s.routeFlag pos 0 0 0 bank (1216 + n) else s

/-- SPRAY_SET_WRITE (R81). -/
def execSpraySetWrite (acc : Access) (pos : Pos) (bank n : Nat) (data : Word) (s : State) : Out :=
  done (guardedWrite acc (sprayA pos bank n) (fun t => t.spraySetWrite pos bank n data) s)

/-! ### Drain and swap (R93 to R97) -/

/-- DRAIN_CTRL.HOLD. -/
def State.hold (s : State) : Nat := s.dieF Reg.DRAIN_CTRL 5 0

/-- Whether no flit of a VC is on the die (R95). -/
def State.vcEmpty (s : State) (vc : Nat) : Bool :=
  let ofVc (p : Pkt) : Bool := p.vc.toNat == vc
  (s.mesh.vcs.all fun kb => kb.1 % 6 != vc || (kb.2.buf.isEmpty && kb.2.feed.isEmpty)) &&
  (s.mesh.outs.all fun ko => ko.2.claims.all fun c => c.1 != vc) &&
  (s.mesh.intake.all fun kl => kl.2.all fun p => !ofVc p) &&
  (s.mesh.egress.all fun kl => kl.2.all fun ep => !ofVc ep.2) &&
  (vc != 4 || s.msgWait.isEmpty) && (vc != 2 || s.redSlots.isEmpty)

/-- DRAIN_STAT.EMPTY (R95). -/
def State.emptyBits (s : State) : Nat :=
  (List.range 6).foldl (fun n v => if s.vcEmpty v then n + 2 ^ v else n) 0

/-- Every held VC is empty. -/
def State.heldEmpty (s : State) : Bool := (setBits 6 s.hold).all fun v => s.vcEmpty v

/-- DRAIN_CTRL.HOLD is written: the hold of a newly held VC starts now (R94, R97). -/
def State.drainHold (s : State) (data : Word) : State :=
  let old := s.hold
  let s := s.plainWrite (dieA Reg.DRAIN_CTRL) data
  let new := s.hold
  let since := (List.range 6).foldl (fun m v =>
    if new.testBit v && !old.testBit v then m.set 0 v (s.time.edges + 1)
    else if new.testBit v then m else m.set 0 v 0) s.mesh.holdSince
  { s with mesh := { s.mesh with holdSince := since, timedOut := s.mesh.timedOut &&& (old &&& new) } }

/-- DRAIN_HOLD (R94). -/
def execDrainHold (acc : Access) (data : Word) (s : State) : Out :=
  done (guardedWrite acc (dieA Reg.DRAIN_CTRL) (fun t => t.drainHold data) s)

/-- DRAIN_LIMIT in µs: 0 acts as 1 (R93). -/
def State.drainLimit (s : State) : Nat := max 1 (s.dieF Reg.DRAIN_LIMIT 15 0)

/-- A held VC has not emptied within DRAIN_LIMIT of its HOLD (R97); reported once for each hold. -/
def State.drainTimeout (s : State) (vc : Nat) : State :=
  let since := s.mesh.holdSince.get 0 vc
  if s.hold.testBit vc ∧ !s.vcEmpty vc ∧ since ≠ 0 ∧ since - 1 + 100 * s.drainLimit ≤ s.time.edges ∧
      !s.mesh.timedOut.testBit vc then
    let s := { s with mesh := { s.mesh with timedOut := s.mesh.timedOut + 2 ^ vc } }
    (s.setDieF Reg.DRAIN_STAT 8 8 1).raiseDie Src.DRAIN_TIMEOUT vc 0
  else s

/-- DRAIN_TIMEOUT (R97). -/
def execDrainTimeout (vc : Nat) (s : State) : Out := done (s.when (!s.stopped) fun t => t.drainTimeout vc)

/-- A SWAP write: accepted where every held VC is empty, refused otherwise (R96). -/
def State.routeSwap (s : State) (data : Word) : State :=
  if bit data 0 then
    if s.heldEmpty then { s with mesh := { s.mesh with swapPending := true } }
    else s.setDieF Reg.DRAIN_STAT 16 16 1
  else s

/-- ROUTE_SWAP (R96). -/
def execRouteSwap (acc : Access) (data : Word) (s : State) : Out :=
  done (guardedWrite acc (dieA Reg.ROUTE_SWAP) (fun t => t.routeSwap data) s)

/-- Every router switches its active route and spray bank at the boundary of an accepted swap (R96). -/
def State.routeBankSwitch (s : State) : State :=
  if s.mesh.swapPending then
    ({ s.setDieF Reg.ROUTE_BANK 0 0 (1 - s.routeBank) with mesh := { s.mesh with swapPending := false } }).traceEvent 5
      (1 - s.routeBank)
  else s

/-- ROUTE_BANK_SWITCH (R96). -/
def execRouteBankSwitch (s : State) : Out := done s.routeBankSwitch

/-! ### Congestion maps (R108) -/

/-- CMAP window exponent: values outside 14 to 34 act as the nearest end. -/
def State.cmapWin (s : State) : Nat := min 34 (max 14 (s.dieF Reg.CMAP_CTRL 5 0))

/-- Whether a key is a UTIL or histogram register of region 0x00. -/
def isCmapKey (k : Nat) : Bool :=
  decide (k < 2 ^ 26) && ((decide (0x1F00 ≤ k % 65536) && decide (k % 65536 < 0x1F38)) ||
    (decide (0x2000 ≤ k % 65536) && decide (k % 65536 < 0x2540)))

/-- H of a record region (R436): 256 B for each position, rounded up to 4 KiB. -/
def State.cmapHalf (s : State) : Nat := ceilDiv (256 * Config.rows s.config * Config.cols s.config) 4096 * 4096

/-- A window has ended: where CMAP has its claim the panel cores begin to copy it, or skip it while the last one is not
finished (R436). -/
def State.cmapBegin (s : State) (endNt : Nat) : State :=
  match s.trayClaim 4 none with
  | none => s
  | some c =>
    if c.count * 4096 < 2 * s.cmapHalf then s.setDieF Reg.CMAP_STAT 31 31 1
    else if !s.cmap.left.isEmpty then s.setDieF Reg.CMAP_STAT 15 0 (min 65535 (s.dieF Reg.CMAP_STAT 15 0 + 1))
    else { s with cmap := ⟨s.regs.keep isCmapKey, s.mesh.snapCycles, s.mesh.cmapId, endNt,
        List.range (Config.panels s.config)⟩ }

/-- The live counters become the snapshot and are zeroed at every router, and the window counts (R108). -/
def State.cmapSnapshot (s : State) : State :=
  let win := s.ntNat / 2 ^ s.cmapWin
  if bit (s.die Reg.CMAP_CTRL) 8 ∧ s.mesh.cmapLast ≠ win then
    let base := s.regs.keep fun k => !isCmapKey k
    let withUtil := s.mesh.util.foldl (fun m kv =>
      m.set 0 (rtrA (kv.1 / 14) (Reg.UTIL_CNT (kv.1 % 14))).key kv.2) base
    let withHist := s.mesh.hist.foldl (fun m kv =>
      m.set 0 (rtrA (kv.1 / 336) (Reg.HISTOGRAM (kv.1 % 336))).key kv.2) withUtil
    ({ s with
      regs := withHist
      mesh := { s.mesh with util := [], hist := [], cmapLast := win, cmapId := s.mesh.cmapId + 1
                            snapCycles := s.mesh.liveCycles, liveCycles := 0 } }).cmapBegin (win * 2 ^ s.cmapWin)
  else s

/-- CMAP_SNAPSHOT (R108). -/
def execCmapSnapshot (s : State) : Out := done (s.when (!s.stopped) State.cmapSnapshot)

/-- CMAP_CTRL is written; setting EN starts the window count at 0 (R108). -/
def State.cmapCtrlWrite (s : State) (data : Word) : State :=
  let old := bit (s.die Reg.CMAP_CTRL) 8
  let s := s.plainWrite (dieA Reg.CMAP_CTRL) data
  if bit data 8 && !old then
    { s with mesh := { s.mesh with cmapId := 0, util := [], hist := [], liveCycles := 0
                                   cmapLast := s.ntNat / 2 ^ s.cmapWin } }
  else s

/-- A histogram register as it is read: the empty bin is what the other bins leave of the window's cycles (R108). -/
def State.histRead (s : State) (pos j : Nat) : Word :=
  let at' (b : Nat) : Nat := (s.reg (rtrA pos (Reg.HISTOGRAM (4 * (j / 4) + b)))).toNat
  if j % 4 = 0 then BitVec.ofNat 32 (s.mesh.snapCycles.toNat - (at' 1 + at' 2 + at' 3)) else s.reg (rtrA pos (Reg.HISTOGRAM j))

/-- One cycle of the live histograms: every buffer that holds flits counts in its bin (R108). -/
def State.histTick (s : State) : State :=
  if bit (s.die Reg.CMAP_CTRL) 8 then
    let hist := s.mesh.vcs.foldl (fun m kb =>
      let n := kb.2.buf.length
      if n = 0 then m
      else
        let bin := if n < 5 then 1 else if n < 8 then 2 else 3
        let k := 4 * kb.1 + bin
        m.set 0 k (satAdd (m.get 0 k) 1)) s.mesh.hist
    { s with mesh := { s.mesh with hist := hist, liveCycles := satAdd s.mesh.liveCycles 1 } }
  else s

/-! ### The die id (R46) -/

/-- A DIE_ID write is stored at once and taken into use at the next AON edge (R46). -/
def State.dieIdWrite (s : State) (data : Word) : State :=
  let s := s.plainWrite (dieA Reg.DIE_ID) data
  { s with time := { s.time with idLoad := some (BitVec.ofNat 17 data.toNat) } }

/-- DIE_ID_WRITE (R46). -/
def execDieIdWrite (acc : Access) (data : Word) (s : State) : Out :=
  done (guardedWrite acc (dieA Reg.DIE_ID) (fun t => t.dieIdWrite data) s)

/-- The written DIE_ID comes into use at every router and port together (R46). -/
def State.dieIdApply (s : State) : State :=
  match s.time.idLoad with
  | some d => { s with time := { s.time with dieId := d, idLoad := none } }
  | none => s

/-- DIE_ID_APPLY (R46). -/
def execDieIdApply (s : State) : Out := done s.dieIdApply

end Sys2Proof.Machine
end

