-- ==== Sys2Proof/Machine/Time.lean ====
section
/-! DEFINITION. Network time, its states and the time tree (R109 to R126), stencils (R127 to R132), the wash writer
(R133, R134) and the time and stencil registers (R142). -/
namespace Sys2Proof.Machine

/-! ### The wash writer (R133, R134) -/

/-- Whether the wash point runs a stencil (R134). -/
def State.washRuns (s : State) : Bool := s.stencilRun && s.hasStencil 0 31

/-- The position that WASH_OWNER names. -/
def State.washOwner (s : State) : Option Nat :=
  let w := s.die Reg.WASH_OWNER
  if bit w 31 then some (mkPos (fld w 9 5) (fld w 4 0)) else none

/-- The writer named now: by the entry in use at POINT 31, by nobody in EXPIRED, else by WASH_OWNER (R34, R134). -/
def State.washNamed (s : State) : Option Nat :=
  if s.washRuns then ((s.time.gates.find? 31).map fun g => entWriter g.entry).getD none
  else if s.timeState = 4 then none
  else s.washOwner

/-- The record of the writer after anything that may change it: a writer that is no longer named closes its
window at the given NT (R133). -/
def State.washSync (s : State) (close : Nat) : State :=
  let w := s.washNamed
  if w = s.time.wash then { s with time := { s.time with washBy := s.washRuns } }
  else
    match s.time.wash with
    | some p =>
      { s with time := { s.time with wash := w, washBy := s.washRuns, washPrev := some p, washPrevBy := s.time.washBy
                                     washClose := close } }
    | none => { s with time := { s.time with wash := w, washBy := s.washRuns } }

/-- The NT before which a new writer injects nothing: 26 ns, 416 units, after the previous writer's window closed,
or after its last beat where one of the two was named by WASH_OWNER (R133, R134). -/
def State.washFrom (s : State) : Nat :=
  match s.time.washPrev with
  | none => 0
  | some p =>
    if s.time.wash = some p then 0
    else if s.time.washBy && s.time.washPrevBy then s.time.washClose + 416
    else match s.time.washBeat with
      | some b => b + 416
      | none => 0

/-- Whether a tile port may inject wash beats now: it is the named writer, its withholding has passed, and it is
inside the mesh, no spare and not fenced (R34, R133, R134). -/
def State.mayWash (s : State) (pos : Nat) : Bool :=
  s.time.wash == some pos && decide (s.washFrom ≤ s.ntNat) && s.inMesh pos && !s.isSpare pos && !s.fenced pos

/-! ### Stencil sequencing (R128 to R132) -/

/-- The entries of a stencil: entry 0 through the first with LAST (R128). -/
def State.stencilEntries (s : State) (bank pos point : Nat) : (fuel index : Nat) → List (BitVec 64)
  | 0, _ => []
  | fuel + 1, index =>
    let e := s.stencilEntry bank pos point index
    if entLast e then [e] else e :: s.stencilEntries bank pos point fuel (index + 1)

/-- Walks a cycle to the entry that holds an offset in stencil units: its index and its start. -/
def walkEntries (es : List (BitVec 64)) (off index start : Nat) : Nat × Nat :=
  match es with
  | [] => (index - 1, start)
  | e :: rest =>
    if off < start + entDurEff e then (index, start) else walkEntries rest off (index + 1) (start + entDurEff e)

/-- The entry current at an NT, counted from the epoch in cycles of the stencil's period (R130). -/
def State.gateAt (s : State) (bank pos point nt : Nat) : GateNow :=
  let es := s.stencilEntries bank pos point 256 0
  let period := es.foldl (fun n e => n + 32 * entDurEff e) 0
  let epoch := s.reg64 (dieA Reg.STENCIL_EPOCH_LO)
  let off := (((nt : Int) - (epoch : Int)) % (period : Int)).toNat
  let (index, start) := walkEntries es (off / 32) 0 0
  { index := index, entry := s.stencilEntry bank pos point index, opens := (nt : Int) - (off - 32 * start : Nat) }

/-- The points that have a stencil in a bank: (position, POINT). -/
def State.stencilPoints (s : State) (bank : Nat) : List (Nat × Nat) :=
  s.time.stencils.filterMap fun kv =>
    let point := kv.1 / 256 % 32
    let pos := kv.1 / 8192 % 1024
    if kv.1 % 256 = 0 ∧ kv.1 / (8192 * 1024) = bank ∧ entDur kv.2 ≠ 0 then some (pos, point) else none

/-- The gates of every point with a stencil as RUN is set (R130). -/
def State.startGates (s : State) : State :=
  let gates := (s.stencilPoints s.stencilBank).foldl (fun m p =>
    Store.put m (32 * p.1 + p.2) (s.gateAt s.stencilBank p.1 p.2 s.ntNat)) ([] : Store GateNow)
  { s with time := { s.time with gates := gates } }

/-- A sequencer reaches an entry boundary and takes the next entry (R129, R130, R132). -/
def State.stencilAdvance (s : State) (pos point : Nat) : State :=
  if !s.stencilRun then s
  else if !s.hasStencil pos point then
    { s with time := { s.time with gates := s.time.gates.del (32 * pos + point) } }.washSync s.ntNat
  else match s.time.gates.find? (32 * pos + point) with
    | none =>
      { s with time := { s.time with gates := s.time.gates.put (32 * pos + point) (s.gateAt s.stencilBank pos point s.ntNat) } }.washSync
        s.ntNat
    | some g =>
      if s.ntNat < g.closes then s
      else
        let index := if entLast g.entry || g.index == 255 then 0 else g.index + 1
        let e := s.stencilEntry s.stencilBank pos point index
        let s := s.when (index != 0 && entDur e == 0) fun t => t.setDieF Reg.STENCIL_CTRL 7 7 1
        let next : GateNow := ⟨index, e, g.closes⟩
        { s with time := { s.time with gates := s.time.gates.put (32 * pos + point) next } }.washSync g.closes

/-- STENCIL_ENTRY_ADVANCE (R130). -/
def execStencilEntryAdvance (pos point : Nat) (s : State) : Out := done (s.stencilAdvance pos point)

/-! ### The state of time (R121) -/

/-- The state with TIME_STAT.STATE changed; HOLD_US is 0 outside HOLDOVER and EXPIRED (R142). -/
def State.setTimeState (s : State) (v : Nat) : State :=
  let s := if s.timeState = v then s else (s.setDieF Reg.TIME_STAT 31 28 v).traceEvent 3 v
  let s := s.when (v != 3 && v != 4) fun t => t.setDieF Reg.TIME_STAT 15 0 0
  { s with time := { s.time with expired := s.time.expired && v != 2 } }

/-- A depth in the time tree, with DEPTH_OVER above 4 (R116). -/
def State.setDepth (s : State) (d : Nat) : State :=
  (s.setDieF Reg.TIME_STAT 27 24 (min d 15)).setDieF Reg.TIME_STAT 21 21 (b2n (4 < d))

/-- TIME_INCR, written in units of 2^-32 NT. -/
def State.setTimeIncr (s : State) (v : Nat) : State :=
  (s.setDie Reg.TIME_INCR_LO (lo32 v)).setDieF Reg.TIME_INCR_HI 7 0 (v / 2 ^ 32)

/-- The nominal increment: 160.0 (R109). -/
def nominalIncr : Nat := 160 * 2 ^ 32

/-- Whether an increment lies in the loop's range of 200 ppm about 160.0 (R120). -/
def incrInRange (v : Int) : Bool :=
  let d := v - nominalIncr
  decide (d * 1000000 ≤ 200 * (nominalIncr : Int)) && decide (-(200 * (nominalIncr : Int)) ≤ d * 1000000)

/-- The increment held to the loop's range. -/
def clampIncr (v : Int) : Nat :=
  let span : Int := 200 * (nominalIncr : Int) / 1000000
  (max ((nominalIncr : Int) - span) (min ((nominalIncr : Int) + span) v)).toNat

/-- BEACON_LOG: values 7 to 15 act as 6 (R142). -/
def State.beaconLog (s : State) : Nat := min 6 (s.dieF Reg.TIME_CFG 27 24)
/-- The beacon period in NT units. -/
def State.beaconPeriod (s : State) : Nat := 16000 * 2 ^ s.beaconLog

/-- One correction of the loop: a slew that removes the error e, and a quarter of the frequency error it implies
(R119, log entry 6). -/
def State.loopCorrect (s : State) (e : Int) (period : Nat) : State :=
  let incr : Int := (s.timeIncr : Int) + e * 160 * 2 ^ 32 / (4 * period : Int)
  let s := s.when (s.timeState == 1 && !incrInRange incr) fun t => t.raiseDie Src.TIME_LOCK 0 0
  let v := clampIncr incr
  let s := s.setTimeIncr v
  { s with time := { s.time with slew := e, incrHist := (v :: s.time.incrHist).take 16 } }

/-- NT moves at once by a signed offset; only while the stencils are stopped (R121). -/
def State.stepTime (s : State) (e : Int) : State :=
  { s with time := { s.time with nt := BitVec.ofInt 64 ((s.ntNat : Int) + e), slew := 0 } }

/-- The start of a holdover: NT runs at the mean increment of the last 16 beacon periods (R121). -/
def State.enterHoldover (s : State) : State :=
  let h := s.time.incrHist
  let hold := s.dieF Reg.TIME_STAT 15 0
  let s := if h.isEmpty then s else s.setTimeIncr (h.foldl (· + ·) 0 / h.length)
  let s := s.setTimeState 3
  { s with time := { s.time with holdEdge := s.time.edges, holdBase := hold, slew := 0 } }

/-- HOLD_US: the µs of the current holdover, saturating (R123, R142). -/
def State.holdUs (s : State) : Nat := min 65535 (s.time.holdBase + (s.time.edges - s.time.holdEdge) / 100)

/-- The parent is counted as lost, in LOCKED: the die follows its valid backup, or enters HOLDOVER (R121, R122). -/
def State.parentLostActs (s : State) : State :=
  let s := s.setDieF Reg.TIME_STAT 19 19 1
  let onBackup := s.dieF Reg.TIME_STAT 23 23 == 1
  if bit (s.die Reg.TIME_CFG) 14 && s.time.backup.valid && !onBackup then
    let s := (s.setDieF Reg.TIME_STAT 23 23 1).raiseDie Src.TIME_PARENT_LOST 0 0
    let s := s.setDepth (s.time.backup.depth + 1)
    { s with time := { s.time with slew := s.time.backup.lastE } }
  else s.enterHoldover

/-- The spine group that the loop follows: BACKUP while ON_BACKUP, else PARENT. -/
def State.followed (s : State) : Parent :=
  if s.dieF Reg.TIME_STAT 23 23 = 1 then s.time.backup else s.time.parent
/-- The number of the group that the loop follows. -/
def State.followedGroup (s : State) : Nat :=
  if s.dieF Reg.TIME_STAT 23 23 = 1 then s.dieF Reg.TIME_CFG 13 8 else s.dieF Reg.TIME_CFG 5 0

/-- Whether a port of a spine group, no circuit group (R319), is ACTIVE, in data service (R284: STATE 8 in SP_PORT_STAT [31:28]). -/
def State.groupServes (s : State) (g : Nat) : Bool :=
  match Config.spineSite s.config g with
  | some (r, c, side) =>
    !bit (s.reg (edgeA (mkPos r c) side Reg.SP_CIRC_CFG)) 31 && (List.range 8).any fun p => fld (s.reg (edgeA (mkPos r c) side (Reg.SP_PORT_STAT p))) 31 28 == 8
  | none => false

/-- The conditions under which the parent is lost (R119). -/
def State.parentIsLost (s : State) : Bool :=
  let p := s.followed
  decide (5 ≤ p.missed) || !s.groupServes s.followedGroup || p.state == 0 || p.state == 1 || p.state == 4

/-- PARENT_LOST (R119). -/
def execParentLost (s : State) : Out :=
  done (s.when (s.timeState == 2 && s.parentIsLost) State.parentLostActs)

/-- After 5 ms of holdover: EXPIRED (R126). -/
def State.timeExpire (s : State) : State :=
  let s := s.setTimeState 4
  let s := s.setDieF Reg.STENCIL_CTRL 1 0 2
  let s := { s with time := { s.time with gates := [], expired := true } }
  (s.washSync s.ntNat).raiseDie Src.TIME_EXPIRED 0 0

/-! ### TIMEREF_IN (R117) -/

/-- A TIMEREF_IN edge at the root: NT is steered toward the nearest multiple of 16,000,000 (R117). -/
def State.timerefEdge (s : State) : State :=
  if s.timeState = 5 then
    let target := (s.ntNat + 8000000) / 16000000 * 16000000
    let e : Int := (target : Int) - s.ntNat
    let s := { s with time := { s.time with refMissed := 0 } }
    (s.setDie Reg.TIME_PHASE_ERR (BitVec.ofInt 32 e)).loopCorrect e 16000000
  else s

/-- TIMEREF_EDGE (R117). -/
def execTimerefEdge (s : State) : Out := done s.timerefEdge

/-- REF_LOST: four expected edges are missing; the root free-runs on its last TIME_INCR (R117). -/
def execRefLost (s : State) : Out :=
  done (s.when (s.timeState == 5) fun t =>
    { t.setDieF Reg.TIME_STAT 20 20 1 with time := { t.time with refMissed := 4, slew := 0 } })

/-- TIME_BEACON: each slice whose replica an upset changed reloads it and reports TIME_SLICE (R115). -/
def execTimeBeacon (upset : List Pos) (s : State) : Out :=
  done ((upset.filter s.inMesh).foldl (fun t pos => t.raise Src.TIME_SLICE pos .die 0 0 pos 0) s)

/-! ### Register writes of time (R116, R142) -/

/-- A TIME_CFG write (R116, R121, R122). -/
def State.timeCfgWrite (s : State) (data : Word) : State :=
  let old := s.die Reg.TIME_CFG
  let st := s.timeState
  let s := s.plainWrite (dieA Reg.TIME_CFG) data
  let parent := if fld data 5 0 = fld old 5 0 then s.time.parent else Parent.unknown
  let backup := if fld data 13 8 = fld old 13 8 then s.time.backup else Parent.unknown
  let was := s.dieF Reg.TIME_STAT 23 23 == 1
  let s := { s with time := { s.time with parent := parent, backup := backup } }
  let s := s.setDieF Reg.TIME_STAT 23 23 0
  let s := s.when (was && parent.valid && st == 2) fun t => { t with time := { t.time with slew := parent.lastE } }
  if bit data 31 then ((s.setTimeState 5).setDepth 0)
  else if st = 5 then s.setTimeState 0
  else if st = 0 ∧ bit data 6 then s.setTimeState 1
  else s

/-- TIME_CFG_WRITE (R116). -/
def execTimeCfgWrite (acc : Access) (data : Word) (s : State) : Out :=
  done (guardedWrite acc (dieA Reg.TIME_CFG) (fun t => t.timeCfgWrite data) s)

/-- A write of TIME_SET_LO: NT is loaded at the next AON edge, in FREE or ROOT with RUN 0; otherwise the write is
ignored with a Note (R10, R142). -/
def State.timeSetWrite (s : State) (p : Path) (data : Word) : State :=
  if (s.timeState = 0 ∨ s.timeState = 5) ∧ !s.stencilRun then
    { s with time := { s.time with
        setLoad := some (BitVec.ofNat 64 (join64 data (s.staged p (dieA Reg.TIME_SET_HI)))) } }
  else s.cfgNote (dieA Reg.TIME_SET_LO)

/-- TIME_SET (R142). -/
def execTimeSet (acc : Access) (data : Word) (s : State) : Out :=
  done (guardedWrite acc (dieA Reg.TIME_SET_LO) (fun t => t.timeSetWrite acc.path data) s)

/-! ### Register writes of the stencils (R130 to R132, R142) -/

/-- The averaged offset of ACQUIRING: the mean of the last errors (R118, R121). -/
def meanInt (l : List Int) : Int := if l.isEmpty then 0 else l.foldl (· + ·) 0 / (l.length : Int)

/-- The end of ACQUIRING: the averaged offset is applied by a step, by a slew, or not at all while RUN is 1 and it
exceeds 2^20 units (R121). -/
def State.acquireEnd (s : State) : State :=
  let off := meanInt s.time.parent.errs
  if !s.stencilRun then (s.stepTime off).setTimeState 2
  else if off ≤ 2 ^ 20 ∧ -(2 ^ 20) ≤ off then { s.setTimeState 2 with time := { (s.setTimeState 2).time with slew := off } }
  else s.raiseDie Src.TIME_STEP_BLOCKED 0 0

/-- Whether ACQUIRING may end: 8 consecutive beacons within 2 units (R121). -/
def State.acquired (s : State) : Bool := s.timeState == 1 && decide (8 ≤ s.time.parent.good)

/-- A STENCIL_CTRL write: RUN starts or stops every stencil. RUN is not set in EXPIRED, nor after it until LOCKED
(R126, R130, R131, R134, R142, log entry 7). -/
def State.stencilRunWrite (s : State) (data : Word) : State :=
  let was := s.stencilRun
  let blocked := bit data 0 && !was && s.time.expired
  let s := s.plainWrite (dieA Reg.STENCIL_CTRL) (if blocked then setBit data 0 false else data)
  let now := s.stencilRun
  let s := s.when (now && !was) State.startGates
  let s := s.when (was && !now) fun t => { t with time := { t.time with gates := [] } }
  let s := s.washSync s.ntNat
  s.when (was && !now && s.acquired) State.acquireEnd

/-- An EPOCH write: high half staged, both halves taken with the low half while RUN is 0; ignored with a Note while
RUN is 1 (R10, R130). -/
def State.stencilEpochWrite (s : State) (p : Path) (high : Bool) (data : Word) : State :=
  if high then s.stageHigh p (dieA Reg.STENCIL_EPOCH_HI) data
  else if s.stencilRun then s.cfgNote (dieA Reg.STENCIL_EPOCH_LO)
  else (s.plainWrite (dieA Reg.STENCIL_EPOCH_LO) data).setDie Reg.STENCIL_EPOCH_HI
    (s.staged p (dieA Reg.STENCIL_EPOCH_HI))

/-- STENCIL_EPOCH_WRITE (R130). -/
def execStencilEpochWrite (acc : Access) (high : Bool) (data : Word) (s : State) : Out :=
  done (guardedWrite acc (dieA (if high then Reg.STENCIL_EPOCH_HI else Reg.STENCIL_EPOCH_LO))
    (fun t => t.stencilEpochWrite acc.path high data) s)

/-- SWITCH_AT (R132). -/
def State.switchAt (s : State) : Nat := s.reg64 (dieA Reg.STENCIL_SWITCH_LO)

/-- A STENCIL_SWITCH_ARM write: ARM is set where SWITCH_AT is later than NT, else SWITCH_LATE is (R132). -/
def State.stencilSwitchArm (s : State) (data : Word) : State :=
  let s := s.plainWrite (dieA Reg.STENCIL_SWITCH_ARM) data
  if bit data 0 then
    if s.ntNat < s.switchAt then s.setDieF Reg.STENCIL_SWITCH_ARM 0 0 1
    else s.setDieF Reg.STENCIL_SWITCH_ARM 1 1 1
  else s

/-- STENCIL_SWITCH_ARM (R132). -/
def execStencilSwitchArm (acc : Access) (data : Word) (s : State) : Out :=
  done (guardedWrite acc (dieA Reg.STENCIL_SWITCH_ARM) (fun t => t.stencilSwitchArm data) s)

/-- NT reaches SWITCH_AT: every point begins entry 0 of the other bank (R132). -/
def State.stencilBankSwitch (s : State) : State :=
  if bit (s.die Reg.STENCIL_SWITCH_ARM) 0 ∧ s.switchAt ≤ s.ntNat then
    let at' := s.switchAt
    let bank := 1 - s.stencilBank
    let s := ((s.setDieF Reg.STENCIL_BANK 0 0 bank).setDieF Reg.STENCIL_SWITCH_ARM 0 0 0).traceEvent 4 bank
    let s := s.setReg64 (dieA Reg.STENCIL_EPOCH_LO) at'
    let gates := if s.stencilRun then
        (s.stencilPoints bank).foldl (fun m p =>
          Store.put m (32 * p.1 + p.2) ⟨0, s.stencilEntry bank p.1 p.2 0, at'⟩) ([] : Store GateNow)
      else []
    { s with time := { s.time with gates := gates } }.washSync at'
  else s

/-- The stencil entry that STENCIL_SEL names: its key, where its position lies in the mesh and its POINT is used. -/
def State.selectedEntry (s : State) : Option Nat :=
  let w := s.die Reg.STENCIL_SEL
  let pos := mkPos (fld w 25 21) (fld w 20 16)
  let point := fld w 12 8
  if s.inMesh pos && (decide (point ≤ 12) || point == 14 || (decide (16 ≤ point) && decide (point ≤ 19)) ||
      (point == 31 && pos == 0)) then
    some (stencilKey (fld w 31 31) pos point (fld w 7 0))
  else none

/-- INDEX increments modulo 256 after an access of STENCIL_DATA_LO (R142). -/
def State.nextIndex (s : State) : State :=
  s.setDieF Reg.STENCIL_SEL 7 0 (s.dieF Reg.STENCIL_SEL 7 0 + 1)

/-- The selected stencil entry as it reads; 0 where STENCIL_SEL names none. -/
def State.entrySelected (s : State) : BitVec 64 :=
  match s.selectedEntry with
  | some k => s.time.stencils.get 0 k
  | none => 0

/-- A write of STENCIL_DATA_LO commits the entry with the staged high half (R10, R132, R142). -/
def State.stencilDataWrite (s : State) (p : Path) (data : Word) : State :=
  let e := BitVec.ofNat 64 (join64 data (s.staged p (dieA Reg.STENCIL_DATA_HI)))
  let s := match s.selectedEntry with
    | some k => { s with time := { s.time with stencils := s.time.stencils.set 0 k e } }
    | none => s
  (s.nextIndex).washSync s.ntNat

/-- A read of STENCIL_DATA_LO: the entry, with its high half latched (R10, R142). -/
def State.stencilDataRead (s : State) (p : Path) : Word × State :=
  let e := s.entrySelected.toNat
  (lo32 e, (s.latchHigh p (dieA Reg.STENCIL_DATA_HI) (hi32 e)).nextIndex)

/-- STENCIL_DATA_ACCESS (R142). -/
def execStencilDataAccess (acc : Access) (write : Bool) (data : Word) (s : State) : Out :=
  done (if write then guardedWrite acc (dieA Reg.STENCIL_DATA_LO) (fun t => t.stencilDataWrite acc.path data) s
    else guardedRead acc (dieA Reg.STENCIL_DATA_LO) (fun t => t.stencilDataRead acc.path) s)

/-- A WASH_OWNER write: stored, and in effect while no wash stencil runs (R134). -/
def State.washOwnerWrite (s : State) (data : Word) : State :=
  (s.plainWrite (dieA Reg.WASH_OWNER) data).washSync s.ntNat

/-- WASH_OWNER_WRITE (R134). -/
def execWashOwnerWrite (acc : Access) (data : Word) (s : State) : Out :=
  done (guardedWrite acc (dieA Reg.WASH_OWNER) (fun t => t.washOwnerWrite data) s)

end Sys2Proof.Machine
end

