-- ==== Sys2Proof/Machine/Carry.lean ====
section
/-! DEFINITION. In-network reduction arithmetic: carry words, element formats, merging and the final rounding (R58,
R214 to R227). A finite word's value is held as an exact integer in units of 2^-180. -/
namespace Sys2Proof.Machine

/-- The value of a carry word or element (R215). -/
inductive Val where
  | fin (n : Int)    -- n times 2^-180, exact
  | pinf
  | ninf
  | nan
deriving DecidableEq, Repr

/-- Nearest integer to a quotient, ties to even. -/
def roundQ (num den : Nat) : Nat :=
  let q := num / den
  let r := num % den
  if 2 * r < den then q
  else if den < 2 * r then q + 1
  else q + q % 2

/-- Nearest integer to a signed quotient, ties to even. -/
def roundQI (num : Int) (den : Nat) : Int :=
  if num < 0 then -(roundQ num.natAbs den : Int) else (roundQ num.natAbs den : Int)

/-! ### Carry words (R214 to R216) -/

/-- A carry word from its fields. -/
def carryOf (e : Nat) (sig : Int) : BitVec 64 := BitVec.ofNat 64 (e * 2 ^ 56 + encodeInt 56 sig)
/-- E of a carry word. -/
def carryE (w : BitVec 64) : Nat := w.toNat / 2 ^ 56
/-- SIG of a carry word. -/
def carrySig (w : BitVec 64) : Int := signed 56 w.toNat

/-- The value of a carry word, canonical or not (R215, R216). -/
def carryVal (w : BitVec 64) : Val :=
  let e := carryE w; let sig := carrySig w
  if e = 255 then
    if sig = 1 then .pinf else if sig = 2 then .ninf else .nan
  else .fin (sig * 2 ^ (max e 1 - 1))

/-- The canonical encodings of the non-finite values (R215). -/
def carryPinf : BitVec 64 := carryOf 255 1
/-- Minus infinity. -/
def carryNinf : BitVec 64 := carryOf 255 2
/-- Not a number. -/
def carryNan : BitVec 64 := carryOf 255 3

/-- The canonical word of a finite value that a carry word can hold (R216). -/
def carryCanon (n : Int) : BitVec 64 :=
  if -(2 ^ 54) ≤ n ∧ n < 2 ^ 54 then carryOf 0 n
  else
    let m := if n < 0 then n.natAbs - 1 else n.natAbs
    let k := Nat.log2 m - 54
    carryOf (k + 1) (n / 2 ^ k)

/-- The carry word nearest to a quotient, ties to the even SIG; whether it overflowed (R219, R220, R226). -/
def carryRound (n : Int) (den : Nat) : BitVec 64 × Bool :=
  let k := Nat.log2 (n.natAbs / den) - 54
  let q := roundQI n (den * 2 ^ k) * 2 ^ k
  if (2 ^ 55 - 1) * 2 ^ 253 < q then (carryPinf, true)
  else if q < -(2 ^ 55 * 2 ^ 253) then (carryNinf, true)
  else (carryCanon q, false)

/-- The canonical word of a value; finite values are rounded. -/
def carryWord : Val → BitVec 64
  | .fin n => (carryRound n 1).1
  | .pinf => carryPinf
  | .ninf => carryNinf
  | .nan => carryNan

/-- Adds two values exactly; non-finite operands combine in any order (R221). -/
def Val.add : Val → Val → Val
  | .nan, _ => .nan
  | _, .nan => .nan
  | .pinf, .ninf => .nan
  | .ninf, .pinf => .nan
  | .pinf, _ => .pinf
  | _, .pinf => .pinf
  | .ninf, _ => .ninf
  | _, .ninf => .ninf
  | .fin a, .fin b => .fin (a + b)

/-- Whether a value is finite. -/
def Val.isFin : Val → Bool
  | .fin _ => true
  | _ => false

/-- Order by value; infinities are the extremes (R223). NaN is treated before. -/
def Val.le : Val → Val → Bool
  | .ninf, _ => true
  | _, .pinf => true
  | .fin a, .fin b => decide (a ≤ b)
  | _, _ => false

/-- The larger value; NaN where either is (R223). -/
def Val.max (a b : Val) : Val :=
  if a = .nan ∨ b = .nan then .nan else if a.le b then b else a
/-- The smaller value; NaN where either is (R223). -/
def Val.min (a b : Val) : Val :=
  if a = .nan ∨ b = .nan then .nan else if a.le b then a else b

/-! ### Element formats (R58, R217) -/

/-- Bytes of one element of a format. -/
def fmtBytes (fmt : Nat) : Nat :=
  match fmt with
  | 0 | 5 => 4
  | 1 | 2 => 2
  | 3 | 4 | 6 => 1
  | _ => 8

/-- Elements of one 128 B flit. -/
def fmtPerFlit (fmt : Nat) : Nat := 128 / fmtBytes fmt

/-- Floating-point formats (R58). -/
def fmtFloat (fmt : Nat) : Bool := fmt ≤ 4
/-- Integer formats (R58). -/
def fmtInt (fmt : Nat) : Bool := fmt == 5 || fmt == 6

/-- Shape of a floating-point format: exponent bits, significand bits, bias. -/
def fmtShape (fmt : Nat) : Nat × Nat × Nat :=
  match fmt with
  | 0 => (8, 23, 127)
  | 1 => (8, 7, 127)
  | 2 => (5, 10, 15)
  | 3 => (4, 3, 7)
  | _ => (5, 2, 15)

/-- The value of a floating-point element (R217). -/
def floatVal (fmt bits : Nat) : Val :=
  let (eb, mb, bias) := fmtShape fmt
  let m := bits % 2 ^ mb
  let e := (bits / 2 ^ mb) % 2 ^ eb
  let neg := (bits / 2 ^ (eb + mb)) % 2 = 1
  let top := e + 1 = 2 ^ eb
  if fmt = 3 ∧ top ∧ m = 7 then .nan
  else if fmt ≠ 3 ∧ top then (if m = 0 then (if neg then .ninf else .pinf) else .nan)
  else
    let mag : Nat := if e = 0 then m * 2 ^ (181 - bias - mb) else (2 ^ mb + m) * 2 ^ (e + 180 - bias - mb)
    .fin (if neg then -(mag : Int) else mag)

/-- The value of an element of any format; an integer element's is the integer itself in units of 1 (R218). -/
def elemInt (fmt bits : Nat) : Int :=
  match fmt with
  | 5 => signed 32 bits
  | 6 => signed 8 bits
  | _ => signed 56 bits

/-- What a final conversion did to an element (R227). -/
inductive Conv where
  | plain | saturated | nan
deriving DecidableEq, Repr

/-- The infinity and NaN codes of a floating-point format, without sign (R225). -/
def fmtInf (fmt : Nat) : Nat :=
  match fmt with
  | 0 => 0x7F800000 | 1 => 0x7F80 | 2 => 0x7C00 | 3 => 0x7F | _ => 0x7C
/-- The NaN written. -/
def fmtNan (fmt : Nat) : Nat :=
  match fmt with
  | 0 => 0x7FC00000 | 1 => 0x7FC0 | 2 => 0x7E00 | 3 => 0x7F | _ => 0x7E
/-- The code of the largest finite value. -/
def fmtTop (fmt : Nat) : Nat :=
  match fmt with
  | 0 => 0x7F7FFFFF | 1 => 0x7F7F | 2 => 0x7BFF | 3 => 0x7E | _ => 0x7B

/-- Rounds a magnitude (a quotient in units of 2^-180) to a format's code, nearest, ties to even. -/
def floatCode (fmt mag den : Nat) : Nat :=
  let (_, mb, bias) := fmtShape fmt
  let x := Nat.log2 (mag / den) + bias - 180
  let e := Nat.max 1 x
  let q := roundQ mag (den * 2 ^ (e + 180 - bias - mb))
  if q < 2 ^ mb then q else e * 2 ^ mb + (q - 2 ^ mb)

/-- Rounds a value to a floating-point format once; a zero result is +0 (R225). -/
def floatRound (fmt : Nat) (n : Int) (den : Nat) : Nat × Conv :=
  let (eb, mb, _) := fmtShape fmt
  let sign := if n < 0 then 2 ^ (eb + mb) else 0
  let code := floatCode fmt n.natAbs den
  if code = 0 then (0, .plain)
  else if fmtTop fmt < code then
    (sign + (if fmt = 3 then fmtTop fmt else fmtInf fmt), .saturated)
  else (sign + code, .plain)

/-- The final conversion of a value divided by a count (R225, R226). -/
def floatOut (fmt : Nat) (v : Val) (den : Nat) : Nat × Conv :=
  let (eb, mb, _) := fmtShape fmt
  match v with
  | .fin n => floatRound fmt n den
  | .nan => (fmtNan fmt, .nan)
  | .pinf => if fmt = 3 then (0x7F, .nan) else (fmtInf fmt, .plain)
  | .ninf => if fmt = 3 then (0x7F, .nan) else (2 ^ (eb + mb) + fmtInf fmt, .plain)

/-! ### Accumulators and merging (R218 to R224) -/

/-- How a reduction accumulates (R241, R209). -/
inductive AccMode where
  | carry | compact | integer
deriving DecidableEq, Repr

/-- MODE or ACC of a register. -/
def accModeOf (n : Nat) : AccMode :=
  match n with
  | 0 => .carry
  | 1 => .compact
  | _ => .integer

/-- An integer-mode word (R218). -/
def intWord (i : Int) : BitVec 64 := carryOf 0 i

/-- Saturates to 56-bit two's complement (R218). -/
def sat56 (i : Int) : Int × Bool :=
  if 2 ^ 55 - 1 < i then (2 ^ 55 - 1, true) else if i < -(2 ^ 55) then (-(2 ^ 55), true) else (i, false)

/-- The value of an accumulator word. -/
def accVal (m : AccMode) (w : BitVec 64) : Val :=
  match m with
  | .carry => carryVal w
  | .compact => floatVal 0 (w.toNat % 2 ^ 32)
  | .integer => .fin (carrySig w)

/-- Converts an arriving element into an accumulator word (R217, R218, R224). -/
def accOf (m : AccMode) (fmt bits : Nat) : BitVec 64 :=
  match m with
  | .integer => intWord (if fmt = 7 then carrySig (BitVec.ofNat 64 bits) else elemInt fmt bits)
  | .carry => if fmt = 7 then BitVec.ofNat 64 bits else carryWord (floatVal fmt bits)
  | .compact => BitVec.ofNat 64 (floatOut 0 (floatVal fmt bits) 1).1

/-- Writes a value into an accumulator, with one rounding; whether it overflowed (R219, R220, R224). -/
def accPut (m : AccMode) (v : Val) : BitVec 64 × Bool :=
  match m with
  | .carry => match v with
    | .fin n => carryRound n 1
    | v => (carryWord v, false)
  | .compact =>
    let r := floatOut 0 v 1
    (BitVec.ofNat 64 r.1, r.2 == .saturated)
  | .integer => match v with
    | .fin n => let r := sat56 n; (intWord r.1, r.2)
    | _ => (0, false)

/-- Merges two accumulator words under OP (R222, R223). -/
def accMerge (m : AccMode) (op : Nat) (a b : BitVec 64) : BitVec 64 × Bool :=
  match op with
  | 0 | 1 => accPut m ((accVal m a).add (accVal m b))
  | 2 => accPut m ((accVal m a).max (accVal m b))
  | 3 => accPut m ((accVal m a).min (accVal m b))
  | 4 => (BitVec.ofNat 64 ((a &&& b).toNat % 2 ^ 56), false)
  | _ => (BitVec.ofNat 64 ((a ||| b).toNat % 2 ^ 56), false)

/-- The identity of OP in a fresh slot; max and min take the arriving elements (R233). -/
def accIdentity (op : Nat) (arriving : BitVec 64) : BitVec 64 :=
  match op with
  | 0 | 1 => 0
  | 2 | 3 => arriving
  | 4 => BitVec.ofNat 64 (2 ^ 56 - 1)
  | _ => 0

/-- Whether OP may be used with an input format (R222). A carry word may be either class's partial. -/
def opFmtOk (op fmt : Nat) : Bool :=
  if op ≤ 3 then fmt ≤ 7 else if op ≤ 5 then (fmt == 5 || fmt == 6 || fmt == 7) else false

/-- Whether a mode can accumulate a format (R237). -/
def modeTakes (m : AccMode) (fmt : Nat) : Bool :=
  match m with
  | .carry => fmtFloat fmt || fmt == 7
  | .compact => fmtFloat fmt
  | .integer => fmtInt fmt || fmt == 7

/-- The final conversion of an integer-mode result (R226). -/
def intOut (fmt : Nat) (i : Int) : Nat × Conv :=
  let w := if fmt = 5 then 32 else 8
  let hi : Int := 2 ^ (w - 1) - 1
  let lo : Int := -(2 ^ (w - 1))
  if hi < i then (encodeInt w hi, .saturated)
  else if i < lo then (encodeInt w lo, .saturated)
  else (encodeInt w i, .plain)

/-- The output element of a finished accumulator: OP 1 divides by the count, every other OP by 1 (R225, R226). -/
def accOut (m : AccMode) (op outFmt count : Nat) (w : BitVec 64) : Nat × Conv :=
  let den := if op = 1 then max 1 count else 1
  match m with
  | .integer =>
    let q := roundQI (carrySig w) den
    if outFmt = 7 then ((intWord q).toNat, .plain) else intOut outFmt q
  | m =>
    let v := accVal m w
    if outFmt = 7 then
      match v with
      | .fin n =>
        let r := if den = 1 then (carryWord (.fin n), false) else carryRound n den
        (r.1.toNat, if r.2 then .saturated else .plain)
      | .nan => ((carryWord .nan).toNat, .nan)
      | v => ((carryWord v).toNat, .plain)
    else floatOut outFmt v den

/-- The elements of a byte string, little-endian, in order. -/
def elemsOf (fmt : Nat) (bs : List Byte) : List Nat :=
  let n := fmtBytes fmt
  (List.range (bs.length / n)).map fun i => ofBytes ((bs.drop (n * i)).take n)

/-- The bytes of elements. -/
def elemBytes (fmt : Nat) (xs : List Nat) : List Byte := xs.flatMap fun x => bytesOf (fmtBytes fmt) x

end Sys2Proof.Machine
end

