-- ==== Sys2Proof/Machine/Health.lean ====
section
/-! DEFINITION. What every channel counts (R412): corrected blocks, replays, the temperature and entry tags (R425,
R426), and the events that count toward a retirement (R415). -/
namespace Sys2Proof.Machine

/-- The master easel core's number: it follows the panel cores (R37). -/
def State.masterCore (s : State) : Nat := Config.panels s.config
/-- Whether an easel core runs. -/
def State.coreRuns (s : State) (n : Nat) : Bool := s.easel.get 0 n == 0
/-- Whether the master easel core runs (R40, R408). -/
def State.masterRuns (s : State) : Bool := s.coreRuns s.masterCore

/-- A panel's temperature, signed (R378). -/
def State.panelTemp (s : State) (n : Nat) : Int := signed 8 (s.dieF (Reg.PANEL_STAT n) 23 16)

/-- The temperature bin of a panel (R425). -/
def State.tempBin (s : State) (panel : Nat) : Nat :=
  let base := signed 8 (s.dieF Reg.ERR_TEMP_CFG 15 8)
  let step : Int := max 1 (s.dieF Reg.ERR_TEMP_CFG 7 0)
  let t := s.panelTemp panel
  if t < base then 0 else min 7 ((t - base) / step).toNat

/-- One event in a panel's histogram: kind 0 CE, 1 RETRY (R425). -/
def State.tagEvent (s : State) (pos kind : Nat) : State :=
  let panel := s.panelOf pos
  let k := 16 * panel + 8 * kind + s.tempBin panel
  { s with flt := { s.flt with tags := s.flt.tags.set 0 k (satAdd (s.flt.tags.get 0 k) 1) } }

/-- One event in the counters per stencil entry of the position ERR_ENTRY_SEL names (R426). -/
def State.entryEvent (s : State) (pos : Nat) : State :=
  let w := s.die Reg.ERR_ENTRY_SEL
  if mkPos (fld w 25 21) (fld w 20 16) = pos then
    match s.time.gates.find? (32 * pos + fld w 12 8) with
    | some g => { s with flt := { s.flt with entryCnt := s.flt.entryCnt.set 0 g.index (satAdd (s.flt.entryCnt.get 0 g.index) 1) } }
    | none => s
  else s

/-- Corrected blocks of a part, for its wear score (R421). -/
def State.partCe (s : State) (kind part : Nat) : State :=
  let k := 2 ^ 24 * kind + part
  { s with flt := { s.flt with ceCount := s.flt.ceCount.set 0 k (s.flt.ceCount.get 0 k + 1) } }

/-- Retrains of a part, for its wear score (R421). -/
def State.partRetrain (s : State) (kind part : Nat) : State :=
  let k := 2 ^ 24 * kind + part
  { s with flt := { s.flt with reCount := s.flt.reCount.set 0 k (s.flt.reCount.get 0 k + 1) } }

/-- The current time in ms of AON edges. -/
def State.nowMs (s : State) : Nat := s.time.edges / 100000

/-- An event that counts toward a retirement, kept by the master easel core while it runs (R408, R415). -/
def State.partEvent (s : State) (kind part info : Nat) : State :=
  if s.masterRuns then { s with flt := { s.flt with events := ⟨kind, part, s.nowMs, info⟩ :: s.flt.events } } else s

/-- Whether an on-die link retrains (R414). -/
def State.partTraining (s : State) (kind part : Nat) : Bool := s.flt.training.contains (kind, part)

/-- Whether a part is retired (R416). -/
def State.partRetired (s : State) (kind part : Nat) : Bool := s.flt.retired.contains (kind, part)

end Sys2Proof.Machine
end

