-- ==== Sys2Proof/Machine/Rs.lean ====
section
/-! DEFINITION. The Reed-Solomon codes RS(36,32) and RS(20,16) over GF(2^8) (R66, R67) and the outcomes of a decoder
(R69), with CRC-32C as the canvas and the swatches use it. -/
namespace Sys2Proof.Machine

/-- One doubling in GF(2^8) with the polynomial 0x11D (R66). -/
def gfDouble (a : Nat) : Nat := if 128 ≤ a then (2 * a) ^^^ 0x11D else 2 * a

/-- Multiplication in GF(2^8), by the bits of the second operand. -/
def gfMulAux : (fuel a b acc : Nat) → Nat
  | 0, _, _, acc => acc
  | fuel + 1, a, b, acc => gfMulAux fuel (gfDouble a) (b / 2) (if b % 2 = 1 then acc ^^^ a else acc)

/-- Multiplication in GF(2^8) (R66). -/
def gfMul (a b : Nat) : Nat := gfMulAux 8 a b 0

/-- Powers of alpha = 0x02. -/
def gfPow : Nat → Nat
  | 0 => 1
  | n + 1 => gfDouble (gfPow n)

/-- A power of any element. -/
def gfExp (a : Nat) : Nat → Nat
  | 0 => 1
  | n + 1 => gfMul a (gfExp a n)

/-- The inverse of an element other than 0. -/
def gfInv (a : Nat) : Nat :=
  let a2 := gfMul a a
  let a4 := gfMul a2 a2
  let a8 := gfMul a4 a4
  let a16 := gfMul a8 a8
  let a32 := gfMul a16 a16
  let a64 := gfMul a32 a32
  let a128 := gfMul a64 a64
  gfMul (gfMul (gfMul a2 a4) (gfMul a8 a16)) (gfMul (gfMul a32 a64) a128)

/-- One step of the division by g(x) = x^4 + 0x0F x^3 + 0x36 x^2 + 0x78 x + 0x40. -/
def rsStep (p : Nat × Nat × Nat × Nat) (d : Nat) : Nat × Nat × Nat × Nat :=
  let f := d ^^^ p.1
  (p.2.1 ^^^ gfMul f 0x0F, p.2.2.1 ^^^ gfMul f 0x36, p.2.2.2 ^^^ gfMul f 0x78, gfMul f 0x40)

/-- The parity bytes p0 to p3 of data bytes (R66, R67). -/
def rsParity (data : List Nat) : List Nat :=
  let r := data.foldl rsStep (0, 0, 0, 0)
  [r.1, r.2.1, r.2.2.1, r.2.2.2]

/-- A codeword: data, then parity. -/
def rsEncode (data : List Nat) : List Nat := data ++ rsParity data

/-- The value of a received block at a point. -/
def rsEval (block : List Nat) (x : Nat) : Nat := block.foldl (fun acc b => gfMul acc x ^^^ b) 0

/-- The syndromes S0 to S3 (R66). -/
def rsSyndromes (block : List Nat) : List Nat := (List.range 4).map fun i => rsEval block (gfPow i)

/-- What a decoder returns (R69). -/
inductive Decoded where
  | clean
  | corrected (data : List Nat)
  | uncorrectable
deriving DecidableEq, Repr

/-- A block with one symbol changed; `p` is the power of x, counted from the block's end. -/
def rsFlip (block : List Nat) (p y : Nat) : List Nat :=
  let j := block.length - 1 - p
  block.set j ((block.getD j 0) ^^^ y)

/-- Decoding of a block: an error locator of degree 1 or 2 whose roots fall inside the block (R69). -/
def rsDecode (block : List Nat) : Decoded :=
  let n := block.length
  match rsSyndromes block with
  | [s0, s1, s2, s3] =>
    if s0 = 0 ∧ s1 = 0 ∧ s2 = 0 ∧ s3 = 0 then .clean
    else
      let det := gfMul s1 s1 ^^^ gfMul s0 s2
      if det = 0 then
        match (List.range n).find? fun p =>
            s0 != 0 && gfMul s0 (gfPow p) == s1 && gfMul s1 (gfPow p) == s2 && gfMul s2 (gfPow p) == s3 with
        | some p => .corrected ((rsFlip block p s0).take (n - 4))
        | none => .uncorrectable
      else
        let b := gfMul s1 s2 ^^^ gfMul s0 s3
        let c := gfMul s2 s2 ^^^ gfMul s1 s3
        match (List.range n).filter fun p =>
            let x := gfPow p
            (gfMul det (gfMul x x) ^^^ gfMul b x ^^^ c) == 0 with
        | [p, q] =>
          let x1 := gfPow p; let x2 := gfPow q
          let y1 := gfMul (s1 ^^^ gfMul s0 x2) (gfInv (x1 ^^^ x2))
          let y2 := s0 ^^^ y1
          if y1 = 0 ∨ y2 = 0 then .uncorrectable
          else .corrected ((rsFlip (rsFlip block p y1) q y2).take (n - 4))
        | _ => .uncorrectable
  | _ => .uncorrectable

/-! ### CRC -/

/-- One bit of a reflected CRC. -/
def crcBit (poly c : Nat) : Nat := if c % 2 = 1 then (c / 2) ^^^ poly else c / 2

/-- One byte of a reflected CRC. -/
def crcByte (poly c : Nat) (b : Byte) : Nat :=
  let c := c ^^^ b.toNat
  crcBit poly (crcBit poly (crcBit poly (crcBit poly (crcBit poly (crcBit poly (crcBit poly (crcBit poly c)))))))

/-- CRC-32C (Castagnoli), reflected, initial value and final XOR all ones. -/
def crc32c (bs : List Byte) : Nat := (bs.foldl (crcByte 0x82F63B78) 0xFFFFFFFF) ^^^ 0xFFFFFFFF

end Sys2Proof.Machine
end

