-- ==== Sys2Proof/Machine/Tray.lean ====
section
/-! DEFINITION. The trays: bytes, words and banks (R188, R189), errors (R198), bank states (R199), and the swatch units
that watch what lands (R437 to R440). -/
namespace Sys2Proof.Machine

/-! ### Bytes -/

/-- The bytes of one tray. -/
def State.traySize (s : State) : Nat := Config.trayBytes s.config

/-- The key of a tray byte. -/
def byteKey (pos off : Nat) : Nat := 2 ^ 20 * pos + off
/-- The key of a tray word. -/
def wordKey (pos k : Nat) : Nat := 2 ^ 15 * pos + k

/-- One byte of a tray; a byte that nothing has written reads 0 (log entry 8). -/
def State.trayByte (s : State) (pos off : Nat) : Byte := s.trays.mem.get 0 (byteKey pos off)

/-- The state with one tray byte written. -/
def State.setByte (s : State) (pos off : Nat) (b : Byte) : State :=
  { s with trays := { s.trays with mem := s.trays.mem.set 0 (byteKey pos off) b } }

/-- A run of tray bytes. -/
def State.trayBytes (s : State) (pos off n : Nat) : List Byte := (List.range n).map fun i => s.trayByte pos (off + i)

/-- The state with a run of tray bytes written. -/
def State.setBytes (s : State) (pos off : Nat) : List Byte → State
  | [] => s
  | b :: bs => (s.setByte pos off b).setBytes pos (off + 1) bs

/-- Word `k` of a tray. -/
def State.trayWord (s : State) (pos k : Nat) : DataWord := bytesWord (s.trayBytes pos (32 * k) 32)

/-- A stored word replaced, its codeword written afresh. -/
def State.putWord (s : State) (pos k : Nat) (w : DataWord) : State :=
  let s := s.setBytes pos (32 * k) (wordBytes w)
  { s with trays := { s.trays with bad := s.trays.bad.set 0 (wordKey pos k) 0 } }

/-! ### Banks (R199) -/

/-- The bank of a word (R188). -/
def bankOf (k : Nat) : Nat := k % 16
/-- The row of a word within its bank (R188). -/
def rowOfWord (k : Nat) : Nat := k / 16

/-- The state field of a bank: 0 On, 1 Retain, 2 Off. -/
def State.bankState (s : State) (pos b : Nat) : Nat := fld (s.reg (tileA pos Reg.TRAY_BANK_CTRL)) (2 * b + 1) (2 * b)
/-- RETIRED of a bank. -/
def State.bankRetired (s : State) (pos b : Nat) : Bool := bit (s.reg (tileA pos Reg.TRAY_BANK_STAT)) (16 + b)
/-- INIT_BUSY of a bank. -/
def State.bankBusy (s : State) (pos b : Nat) : Bool := bit (s.reg (tileA pos Reg.TRAY_BANK_STAT)) b
/-- Whether a bank acts as Off (R199). -/
def State.bankOff (s : State) (pos b : Nat) : Bool := s.bankState pos b == 2 || s.bankRetired pos b

/-- An access wakes a bank in Retain to On (R199). -/
def State.wakeBank (s : State) (pos b : Nat) : State :=
  s.when (s.bankState pos b == 1) fun t => t.setRegF (tileA pos Reg.TRAY_BANK_CTRL) (2 * b + 1) (2 * b) 0

/-- The words that a run of bytes touches. -/
def wordsTouched (off n : Nat) : List Nat :=
  if n = 0 then [] else (List.range ((off + n - 1) / 32 - off / 32 + 1)).map fun i => off / 32 + i

/-- Whether some bank that a run touches is being zeroed: its accesses wait (R199). -/
def State.banksBusy (s : State) (pos off n : Nat) : Bool :=
  (wordsTouched off n).any fun k => s.bankBusy pos (bankOf k)

/-! ### Errors (R198) -/

/-- The outcome of decoding a stored word (R69). -/
def State.wordDecode (s : State) (pos k : Nat) : Decoded :=
  let bad := s.trays.bad.get 0 (wordKey pos k)
  if bad = 0 then .clean
  else
    let code := rsEncode ((wordBytes (s.trayWord pos k)).map (·.toNat))
    rsDecode ((List.range 36).map fun j => (code.getD j 0) ^^^ (bad.toNat >>> (8 * j)) % 256)

/-- A corrected word is counted, reported and written back (R198). -/
def State.trayCe (s : State) (pos k : Nat) : State :=
  let s := s.count (tileA pos Reg.TRAY_CE_CNT) 1
  let s := s.raise Src.TRAY_CE pos .tilePort (bankOf k) 0 (bankOf k + 16 * rowOfWord k) 0
  ((s.tagEvent pos 0).entryEvent pos).partCe 4 pos

/-- An uncorrectable word is counted, recorded and reported (R198). -/
def State.trayUe (s : State) (pos k : Nat) : State :=
  let s := s.count (tileA pos Reg.TRAY_UE_CNT) 1
  let info := tileA pos Reg.TRAY_UE_INFO
  let s := if bit (s.reg info) 31 then s
    else s.setReg info (BitVec.ofNat 32 (2 ^ 31 + bankOf k * 2 ^ 12 + rowOfWord k))
  (s.raise Src.TRAY_UE pos .tilePort (bankOf k) 0 (bankOf k + 16 * rowOfWord k) 0).partEvent 4 (16 * pos + bankOf k)
    (rowOfWord k)

/-- What a read of a word by anyone but the processor port gives: the word, whether it is uncorrectable, and the
state with its counts (R198, R199). -/
def State.readWord (s : State) (pos k : Nat) : DataWord × Bool × State :=
  let s := s.wakeBank pos (bankOf k)
  if s.bankOff pos (bankOf k) then (0, true, s.trayUe pos k)
  else match s.wordDecode pos k with
    | .clean => (s.trayWord pos k, false, s)
    | .corrected d => (bytesWord (d.map fun x => BitVec.ofNat 8 x), false, (s.trayCe pos k).putWord pos k (s.trayWord pos k))
    | .uncorrectable => (s.trayWord pos k, true, s.trayUe pos k)

/-- Reads consecutive words; whether any was uncorrectable. -/
def State.readWords (s : State) (pos k : Nat) : (n : Nat) → List DataWord × Bool × State
  | 0 => ([], false, s)
  | n + 1 =>
    let (w, ue, s1) := s.readWord pos k
    let (ws, ue', s2) := s1.readWords pos (k + 1) n
    (w :: ws, ue || ue', s2)

/-! ### Swatches (R437 to R440) -/

/-- A swatch register. -/
def swA (pos off : Nat) : RegAddr := tileA pos off

/-- The value of an element as a swatch reads it (R439). -/
def swVal (fmt bits : Nat) : Val :=
  if fmtFloat fmt then floatVal fmt bits
  else if fmtInt fmt then .fin (elemInt fmt bits)
  else carryVal (BitVec.ofNat 64 bits)

/-- The raw bits MIN and MAX hold: zero is +0 (R439). -/
def swBits (fmt bits : Nat) : Nat := if swVal fmt bits = .fin 0 then 0 else bits % 2 ^ 32

/-- The accumulation of SUM and SUMABS (R217 to R221). -/
def swMode (fmt : Nat) : AccMode := if fmtInt fmt then .integer else .carry

/-- The magnitude of a value. -/
def Val.abs : Val → Val
  | .fin n => .fin n.natAbs
  | .ninf => .pinf
  | v => v

/-- One element in a unit's statistics (R439). -/
def State.swElem (s : State) (pos u fmt bits : Nat) : State :=
  let v := swVal fmt bits
  let first := s.reg (swA pos (Reg.SW_COUNT u)) = s.reg (swA pos (Reg.SW_NAN u))
  let s := s.count (swA pos (Reg.SW_COUNT u)) 1
  let s := s.when (v == .nan) fun t => t.count (swA pos (Reg.SW_NAN u)) 1
  let s := s.when (v == .pinf || v == .ninf) fun t => t.count (swA pos (Reg.SW_INF u)) 1
  let s := s.when (v == .fin 0) fun t => t.count (swA pos (Reg.SW_ZERO u)) 1
  let old (r : RegAddr) : Val := swVal fmt (s.reg r).toNat
  let lower (a b : Val) : Bool := a.le b && !b.le a
  let s := s.when (v != .nan && (first || lower v (old (swA pos (Reg.SW_MIN u))))) fun t =>
    t.setReg (swA pos (Reg.SW_MIN u)) (BitVec.ofNat 32 (swBits fmt bits))
  let s := s.when (v != .nan && (first || lower (old (swA pos (Reg.SW_MAX u))) v)) fun t =>
    t.setReg (swA pos (Reg.SW_MAX u)) (BitVec.ofNat 32 (swBits fmt bits))
  let m := swMode fmt
  let acc (r : RegAddr) : BitVec 64 := BitVec.ofNat 64 (s.reg64 r)
  let sum := (accPut m ((accVal m (acc (swA pos (Reg.SW_SUM_LO u)))).add v)).1
  let abs := (accPut m ((accVal m (acc (swA pos (Reg.SW_SUMABS_LO u)))).add v.abs)).1
  (s.setReg64 (swA pos (Reg.SW_SUM_LO u)) sum.toNat).setReg64 (swA pos (Reg.SW_SUMABS_LO u)) abs.toNat

/-- One word contributes to a unit (R438, R439). -/
def State.swWord (s : State) (pos u k : Nat) (w : DataWord) : State :=
  let fmt := fld (s.reg (swA pos (Reg.SW_CTRL u))) 23 20
  let o := bytesOf 4 (32 * k - (s.reg (swA pos (Reg.SW_BASE u))).toNat)
  let bs := wordBytes w
  let s := s.count (swA pos (Reg.SW_WORDS u)) 1
  let s := s.setReg (swA pos (Reg.SW_DIG_LO u)) (wrapAdd (s.reg (swA pos (Reg.SW_DIG_LO u))) (crc32c (o ++ bs)))
  let s := s.setReg (swA pos (Reg.SW_DIG_HI u)) (wrapAdd (s.reg (swA pos (Reg.SW_DIG_HI u))) (crc32c (bs ++ o)))
  (elemsOf fmt bs).foldl (fun t x => t.swElem pos u fmt x) s

/-- Whether a unit watches a word in LANDING mode. -/
def State.swCovers (s : State) (pos u k src ctx : Nat) : Bool :=
  let c := s.reg (swA pos (Reg.SW_CTRL u))
  let base := (s.reg (swA pos (Reg.SW_BASE u))).toNat
  let len := (s.reg (swA pos (Reg.SW_LEN u))).toNat
  bit (s.reg (swA pos (Reg.SW_STAT u))) 31 && !s.trays.swScan.contains (4 * pos + u) && bit c (24 + src) &&
    (fld c 11 0 == 0 || fld c 11 0 == ctx) && decide (base ≤ 32 * k) && decide (32 * k < base + len)

/-- A word landed: every unit that watches it takes it (R437). -/
def State.swatchLand (s : State) (pos k src ctx : Nat) (w : DataWord) : State :=
  (List.range 4).foldl (fun t u => if t.swCovers pos u k src ctx then t.swWord pos u k w else t) s

/-- A word was lost to an uncorrectable block: the units that watch it set UE (R437). -/
def State.swatchLost (s : State) (pos k src ctx : Nat) : State :=
  (List.range 4).foldl (fun t u =>
    if t.swCovers pos u k src ctx then t.setRegF (swA pos (Reg.SW_STAT u)) 28 28 1 else t) s

/-- Sources of landed words (R437). -/
abbrev swMesh : Nat := 0
/-- Neighbour lanes. -/
abbrev swLane : Nat := 1
/-- The wash drop tap. -/
abbrev swWash : Nat := 2
/-- Collective agent output. -/
abbrev swAgent : Nat := 3
/-- Processor port writes. -/
abbrev swTpp : Nat := 4
/-- No swatch source: the engines' own status words, records and headers. -/
abbrev swNone : Nat := 5

/-! ### Writes -/

/-- One whole word written; into a bank that is Off the word is lost (R198, R199). Whether it was lost. -/
def State.writeWord (s : State) (pos k src ctx : Nat) (w : DataWord) : Bool × State :=
  let s := s.wakeBank pos (bankOf k)
  if s.bankOff pos (bankOf k) then (true, (s.trayUe pos k).swatchLost pos k src ctx)
  else (false, (s.putWord pos k w).swatchLand pos k src ctx w)

/-- Consecutive whole words written; whether any was lost. -/
def State.writeWords (s : State) (pos k src ctx : Nat) : List DataWord → Bool × State
  | [] => (false, s)
  | w :: ws =>
    let (l, s1) := s.writeWord pos k src ctx w
    let (l', s2) := s1.writeWords pos (k + 1) src ctx ws
    (l || l', s2)

/-- A word with its bytes from `lo` on replaced. -/
def mergeBytes (w : DataWord) (lo : Nat) (bs : List Byte) : DataWord :=
  let old := wordBytes w
  bytesWord (old.take lo ++ bs ++ old.drop (lo + bs.length))

/-- A read-modify-write of part of one word; an uncorrectable word stays as it is (R189, R198). -/
def State.modifyWord (s : State) (pos k src ctx : Nat) (f : DataWord → DataWord) : Bool × State :=
  let (w, ue, s1) := s.readWord pos k
  if ue then (true, s1.swatchLost pos k src ctx)
  else
    let w' := f w
    (false, (s1.putWord pos k w').swatchLand pos k src ctx w')

/-- A few bytes inside one word, written by an engine: one read-modify-write. -/
def State.writeBytesIn (s : State) (pos off src ctx : Nat) (bs : List Byte) : Bool × State :=
  s.modifyWord pos (off / 32) src ctx fun w => mergeBytes w (off % 32) bs

/-- Whether a bank is zeroed of its contents as it leaves the On or Retain states: all its rows read 0 (R199). -/
def State.clearBank (s : State) (pos b : Nat) : State :=
  { s with trays := { s.trays with
      mem := s.trays.mem.keep fun key => !(key / 2 ^ 20 == pos && key / 32 % 16 == b)
      bad := s.trays.bad.keep fun key => !(key / 2 ^ 15 == pos && key % 16 == b) } }

/-- A write of one bank's state: 3 is unused and leaves it (R199). Leaving Off zeroes every row, with INIT_BUSY. -/
def State.setBank (s : State) (pos b new : Nat) : State :=
  let old := s.bankState pos b
  let ctrl := tileA pos Reg.TRAY_BANK_CTRL
  let stat := tileA pos Reg.TRAY_BANK_STAT
  if s.bankRetired pos b || new == old then s
  else if new = 3 then s.cfgNote ctrl
  else
    let s := s.setRegF ctrl (2 * b + 1) (2 * b) new
    if new = 2 then s.clearBank pos b
    else if old = 2 then s.setRegF stat b b 1
    else s

/-- A TRAY_BANK_CTRL write (R199). -/
def State.bankCtrlWrite (s : State) (pos : Nat) (data : Word) : State :=
  (List.range 16).foldl (fun t b => t.setBank pos b (fld data (2 * b + 1) (2 * b))) s

/-- TRAY_BANK_CTRL_WRITE (R199). -/
def execTrayBankCtrlWrite (acc : Access) (pos : Pos) (data : Word) (s : State) : Out :=
  done (guardedWrite acc (tileA pos Reg.TRAY_BANK_CTRL) (fun t => t.bankCtrlWrite pos data) s)

/-- BANK_INIT_DONE: every row is zeroed and INIT_BUSY clears (R199). -/
def execBankInitDone (pos : Pos) (bank : Nat) (s : State) : Out :=
  done (s.when (!s.stopped && decide (bank < 16) && s.bankBusy pos bank) fun t =>
    (t.clearBank pos bank).setRegF (tileA pos Reg.TRAY_BANK_STAT) bank bank 0)

/-- TRAY_STARVE: a bank's counter passes its limit; 0 disables (R197). -/
def execTrayStarve (pos : Pos) (bank : Nat) (s : State) : Out :=
  done (s.when (!s.stopped && decide (bank < 16) && s.inMesh pos && fld (s.reg (tileA pos Reg.TRAY_STARVE_LIMIT)) 15 0 != 0) fun t =>
    (t.setRegF (tileA pos Reg.TRAY_STARVE_STAT) bank bank 1).raise Src.TRAY_STARVE pos .tilePort bank 0 bank 0)

end Sys2Proof.Machine
end

