-- ==== Sys2Proof/Machine/Context.lean ====
section
/-! DEFINITION. Contexts and their slots (R148 to R153), completion counters (R63, R177), the energy of a slot (R389),
submission-queue registers (R156, R157), status words (R173) and shapers (R143). -/
namespace Sys2Proof.Machine

/-! ### Allocations -/

/-- First tray byte of a slot's allocation (R151). -/
def State.allocBase (s : State) (pos slot : Nat) : Nat := 4096 * fld (s.ctxWord pos slot 2) 8 0
/-- Bytes of a slot's allocation. -/
def State.allocLen (s : State) (pos slot : Nat) : Nat := 4096 * fld (s.ctxWord pos slot 2) 24 16
/-- Whether a run of bytes lies inside a slot's allocation. -/
def State.inAlloc (s : State) (pos slot off n : Nat) : Bool := decide (off + n ≤ s.allocLen pos slot)
/-- JOB_ID of a slot. -/
def State.slotJob (s : State) (pos slot : Nat) : Nat := fld (s.ctxWord pos slot 1) 15 0
/-- Whether a slot's context is Tenant (PRIV = 0). -/
def State.slotTenant (s : State) (pos slot : Nat) : Bool := !bit (s.ctxWord pos slot 0) 30
/-- XDIE of a slot. -/
def State.slotXdie (s : State) (pos slot : Nat) : Bool := bit (s.ctxWord pos slot 0) 29
/-- Whether VC_MASK of a slot permits a VC. -/
def State.slotVc (s : State) (pos slot vc : Nat) : Bool := bit (s.ctxWord pos slot 0) (23 + vc)

/-- The slot that binds a context at a position. -/
def State.slotOf (s : State) (pos ctx : Nat) : Option Nat :=
  if ctx = 0 then none
  else (List.range 64).find? fun k => s.slotValid pos k && s.slotCtx pos k == ctx

/-- The slot whose context belongs to a job at a position (R150: at most one). -/
def State.slotOfJob (s : State) (pos job : Nat) : Option Nat :=
  (List.range 64).find? fun k => s.slotValid pos k && s.slotJob pos k == job

/-- CTX_JOB of a context (R153). -/
def State.ctxJob (s : State) (ctx : Nat) : Word := s.die (Reg.CTX_JOB ctx)
/-- Whether a context is bound anywhere on the die. -/
def State.ctxBound (s : State) (ctx : Nat) : Bool := bit (s.ctxJob ctx) 31
/-- The job of a bound context. -/
def State.jobOf (s : State) (ctx : Nat) : Option Nat :=
  if s.ctxBound ctx then some (fld (s.ctxJob ctx) 15 0) else none
/-- The home of a bound context. -/
def State.homeOf (s : State) (ctx : Nat) : Option Nat :=
  if s.ctxBound ctx then some (mkPos (fld (s.ctxJob ctx) 25 21) (fld (s.ctxJob ctx) 20 16)) else none

/-! ### Completion counters (R63, R177) -/

/-- The state with a slot's counter raised by 1, and its error flag set where the arrival was no DONE. -/
def State.countAt (s : State) (pos slot n : Nat) (err : Bool) : State :=
  let a := tileA pos (Reg.CTR slot n)
  let s := s.setReg a (wrapAdd (s.reg a) 1)
  s.when err fun t =>
    let e := tileA pos (if n < 32 then Reg.CTR_ERR_LO slot else Reg.CTR_ERR_HI slot)
    t.setReg e (setBit (t.reg e) (n % 32) true)

/-! ### Energy (R389) -/

/-- pJ of energy charged to a slot; energy of no bound slot goes to DIE_E_UNATTR. -/
def State.charge (s : State) (pos : Nat) (slot : Option Nat) (pj : Nat) : State :=
  match slot with
  | some k =>
    let a := tileA pos (Reg.ENERGY_LO k)
    let f := s.eng.energy.get 0 (64 * pos + k) + pj
    let s := { s with eng := { s.eng with energy := s.eng.energy.set 0 (64 * pos + k) (f % 1000) } }
    s.setReg64 a ((s.reg64 a + f / 1000) % 2 ^ 64)
  | none =>
    let f := s.eng.energyDie + pj
    let s := { s with eng := { s.eng with energyDie := f % 1000 } }
    s.setReg64 (dieA Reg.DIE_E_UNATTR_LO) ((s.reg64 (dieA Reg.DIE_E_UNATTR_LO) + f / 1000) % 2 ^ 64)

/-- The slot of a context at a position that may be charged: a bound one. -/
def State.payer (s : State) (pos ctx : Nat) : Option Nat := s.slotOf pos ctx

/-- Distance between two positions. -/
def hops (a b : Nat) : Nat :=
  (max (rowOf a) (rowOf b) - min (rowOf a) (rowOf b)) + (max (colOf a) (colOf b) - min (colOf a) (colOf b))

/-- The position of a packet's destination on this die, where it has one. -/
def State.destPos (s : State) (p : Pkt) : Option Nat :=
  if s.ownDie (dieOf p.dest) then
    if adPort p.dest < 16 ∧ !p.mcCol then (s.physical (adRow p.dest) (adCol p.dest)).map fun c => mkPos (adRow p.dest) c
    else some (mkPos (adRow p.dest) (adCol p.dest))
  else none

/-- The energy of the flits a slot's context injects: E_HOP for each flit and hop; of a packet for another die the first
hop, and the rest where it leaves (`State.chargeExit`). -/
def State.chargeInject (s : State) (pos : Nat) (slot : Option Nat) (p : Pkt) : State :=
  let d := match s.destPos p with
    | some t => 1 + hops pos t
    | none => 1
  s.charge pos slot (s.dieF Reg.ENERGY_MODEL 31 24 * d * p.flits)

/-- The position and slot that pay for a packet where its energy is spent away from its sender: those of a tile port of
this die whose slot binds the packet's context; none for every other packet. -/
def State.sender (s : State) (p : Pkt) : Nat × Option Nat :=
  if s.ownDie (dieOf p.src) && decide (adPort p.src < 16) then
    match s.physical (adRow p.src) (adCol p.src) with
    | some c => (mkPos (adRow p.src) c, s.payer (mkPos (adRow p.src) c) p.ctx.toNat)
    | none => (0, none)
  else (0, none)

/-- E_MEM for each memory word that a context's packet reads or writes (R389). -/
def State.chargeMem (s : State) (p : Pkt) (words : Nat) : State :=
  let (pos, slot) := s.sender p
  s.charge pos slot (s.dieF Reg.ENERGY_MODEL2 31 16 * words)

/-- A packet of this die leaves it at a router: the hops to that router, and E_XFLIT, for each flit (R389). -/
def State.chargeExit (s : State) (site : Nat) (p : Pkt) : State :=
  if s.ownDie (dieOf p.src) then
    let (pos, slot) := s.sender p
    let d := if slot.isSome then hops pos site else 0
    s.charge pos slot ((s.dieF Reg.ENERGY_MODEL 31 24 * d + s.dieF Reg.ENERGY_MODEL 15 0) * p.flits)
  else s

/-- E_WORD for each tray word an engine reads or writes. -/
def State.chargeWords (s : State) (pos : Nat) (slot : Option Nat) (n : Nat) : State :=
  s.charge pos slot (s.dieF Reg.ENERGY_MODEL 23 16 * n)

/-! ### Binding (R152) -/

/-- TRAY_BASE + TRAY_LEN of a slot in 4 KiB units lies inside the tray, and TRAY_LEN is at least 1. -/
def State.allocFits (s : State) (pos slot : Nat) : Bool :=
  decide (0 < s.allocLen pos slot) && decide (s.allocBase pos slot + s.allocLen pos slot ≤ s.traySize)

/-- Whether the allocations of two slots overlap. -/
def State.overlap (s : State) (pos a b : Nat) : Bool :=
  decide (s.allocBase pos a < s.allocBase pos b + s.allocLen pos b) &&
    decide (s.allocBase pos b < s.allocBase pos a + s.allocLen pos a)

/-- The conditions of a bind (R152). -/
def State.mayBind (s : State) (pos slot ctx : Nat) : Bool :=
  decide (1 ≤ ctx) && !s.ctxBound ctx &&
  ((List.range 64).all fun k => k == slot || !s.slotValid pos k ||
    (s.slotJob pos k != s.slotJob pos slot && !s.overlap pos k slot)) &&
  s.allocFits pos slot && s.inAlloc pos slot (256 * fld (s.ctxWord pos slot 3) 11 0) 256

/-- BUSY of a slot: bit q = 1 where queue q has a command in service. -/
def State.slotBusy (s : State) (pos slot : Nat) : Nat :=
  (List.range 4).foldl (fun n q =>
    if (s.eng.cmds.find? (256 * pos + 4 * slot + q)).isSome then n + 2 ^ q else n) 0

/-- RD_OUT of a slot. -/
def State.rdOutOf (s : State) (pos slot : Nat) : Nat := s.eng.rdOut.get 0 (64 * pos + slot)
/-- XC_USED of a slot. -/
def State.xcUsed (s : State) (pos slot : Nat) : Nat :=
  ((s.eng.tlb.get [] pos).filter fun e => e.ctx == s.slotCtx pos slot).length

/-- A flag of TP_FLAG_STAT is set. -/
def State.tpFlag (s : State) (pos b : Nat) : State := s.setRegF (tileA pos Reg.TP_FLAG_STAT) b b 1

/-- A write of word 0 of a context record: binds, unbinds, or changes the open fields of a bound slot (R151, R152). -/
def State.ctxWord0Write (s : State) (pos slot : Nat) (data : Word) : State :=
  let old := s.ctxWord pos slot 0
  let data := data &&& 0xFF800FFF
  if bit old 31 then
    if bit data 31 then s.setCtxWord pos slot 0 (setFld data 11 0 (fld old 11 0))
    else if s.slotBusy pos slot = 0 ∧ s.rdOutOf pos slot = 0 then
      let s := s.setDie (Reg.CTX_JOB (fld old 11 0)) 0
      let s := { s with trays := { s.trays with
        lastAlloc := s.trays.lastAlloc.set (0, 0) (64 * pos + slot) (s.allocBase pos slot, s.allocLen pos slot) } }
      s.setCtxWord pos slot 0 data
    else s.tpFlag pos 2
  else if bit data 31 then
    let ctx := fld data 11 0
    if s.mayBind pos slot ctx then
      (s.setCtxWord pos slot 0 data).setDie (Reg.CTX_JOB ctx)
        (BitVec.ofNat 32 (2 ^ 31 + rowOf pos * 2 ^ 21 + colOf pos * 2 ^ 16 + s.slotJob pos slot))
    else
      ((s.setCtxWord pos slot 0 (setBit data 31 false)).tpFlag pos 0).raise Src.CFG_ADJUSTED pos .tilePort slot ctx slot 0
  else s.setCtxWord pos slot 0 data

/-- CTX_BIND: word 0 of the selected record is written (R152). -/
def execCtxBind (acc : Access) (pos : Pos) (data : Word) (s : State) : Out :=
  done (guardedWrite acc (tileA pos Reg.CTX_W0)
    (fun t => t.ctxWord0Write pos (fld (t.reg (tileA pos Reg.CTX_SEL)) 5 0) (setBit data 31 true)) s)

/-- CTX_UNBIND: VALID = 0 is written to the selected record (R152). -/
def execCtxUnbind (acc : Access) (pos : Pos) (data : Word) (s : State) : Out :=
  done (guardedWrite acc (tileA pos Reg.CTX_W0)
    (fun t => t.ctxWord0Write pos (fld (t.reg (tileA pos Reg.CTX_SEL)) 5 0) (setBit data 31 false)) s)

/-! ### Shapers (R143, R144, R147) -/

/-- SHAPER_CFG of a slot. -/
def State.shaperCfg (s : State) (pos slot : Nat) : Nat := join64 (s.ctxWord pos slot 8) (s.ctxWord pos slot 9)
/-- A level of a slot's shaper, in 1/16 B: word 10 committed, word 11 peak. -/
def State.shaperLevel (s : State) (pos slot w : Nat) : Int := signed 32 (s.ctxWord pos slot w).toNat
/-- The state with a shaper level written. -/
def State.setShaperLevel (s : State) (pos slot w : Nat) (v : Int) : State :=
  s.setCtxWord pos slot w (BitVec.ofInt 32 v)
/-- A burst in 1/16 B: 256 B units (R144). -/
def burstUnits (n : Nat) : Int := (n * 4096 : Nat)

/-- Whether the shaper of a slot's context shapes: a Tenant context whose CBS and PBS are not both 0 (R143). -/
def State.shaped (s : State) (pos slot : Nat) : Bool :=
  let c := s.shaperCfg pos slot
  s.slotTenant pos slot && !(bitsOf c 31 16 == 0 && bitsOf c 63 48 == 0)

/-- Whether a head may inject: both levels are 0 or more (R143). -/
def State.shaperOk (s : State) (pos slot vc : Nat) : Bool :=
  !(decide (1 ≤ vc) && decide (vc ≤ 4) && s.shaped pos slot) ||
    (decide (0 ≤ s.shaperLevel pos slot 10) && decide (0 ≤ s.shaperLevel pos slot 11))

/-- The debit of an injection: 32 B per word from both levels (R143). -/
def State.shaperDebit (s : State) (pos slot vc words : Nat) : State :=
  s.when (decide (1 ≤ vc) && decide (vc ≤ 4) && s.shaped pos slot) fun t =>
    (t.setShaperLevel pos slot 10 (t.shaperLevel pos slot 10 - (512 * words : Nat))).setShaperLevel pos slot 11
      (t.shaperLevel pos slot 11 - (512 * words : Nat))

/-- One AON edge of a slot's shaper: each level rises by its RATE, up to its burst (R143). -/
def State.shaperRefill (s : State) (pos slot : Nat) : State :=
  let c := s.shaperCfg pos slot
  s.when (s.shaped pos slot) fun t =>
    (t.setShaperLevel pos slot 10 (min (burstUnits (bitsOf c 31 16)) (t.shaperLevel pos slot 10 + (bitsOf c 15 0 : Nat)))).setShaperLevel
      pos slot 11 (min (burstUnits (bitsOf c 63 48)) (t.shaperLevel pos slot 11 + (bitsOf c 47 32 : Nat)))

/-- A shaper word takes effect: a level above the new burst is clamped to it; raising a burst leaves the level
(R147), and OVER_QUOTA records a burst below current use. -/
def State.shaperWrite (s : State) (pos slot : Nat) (lo hi : Word) : State :=
  let s := (s.setCtxWord pos slot 8 lo).setCtxWord pos slot 9 hi
  let cbs := burstUnits (fld lo 31 16); let pbs := burstUnits (fld hi 31 16)
  let above := decide (cbs < s.shaperLevel pos slot 10) || decide (pbs < s.shaperLevel pos slot 11)
  let s := s.when (decide (cbs < s.shaperLevel pos slot 10)) fun t => t.setShaperLevel pos slot 10 cbs
  let s := s.when (decide (pbs < s.shaperLevel pos slot 11)) fun t => t.setShaperLevel pos slot 11 pbs
  s.when above fun t => t.setCtxWord pos slot 7 (setBit (t.ctxWord pos slot 7) 31 true)

/-! ### The other words of a record (R151) -/

/-- The mask of a record word's RW bits. -/
def ctxMask (w : Nat) : Word :=
  match specOf (tileA 0 (0x00C0 + 4 * w)) with
  | some r => BitVec.ofNat 32 r.rw
  | none => 0

/-- A record field is held while VALID is 1 (R152). -/
def ctxHeld (w : Nat) : Word :=
  match w with
  | 1 => 0x0000FFFF
  | 2 => 0xFFFFFFFF
  | _ => 0

/-- A write of record word `w` of a slot (R151, R152, R147). -/
def State.ctxRecordWrite (s : State) (p : Path) (pos slot w : Nat) (data : Word) : State :=
  let a := tileA pos (0x00C0 + 4 * w)
  if w = 0 then s.ctxWord0Write pos slot data
  else if w = 7 then
    let old := s.ctxWord pos slot 7
    s.setCtxWord pos slot 7 ((data &&& 0x00FFFFFF) ||| (old &&& 0x80000000 &&& ~~~data))
  else if w = 8 then s.shaperWrite pos slot data (s.staged p (tileA pos Reg.CTX_W9))
  else if w = 9 then s.stageHigh p a data
  else if w = 13 then s.when (data == 0) fun t => t.setCtxWord pos slot 13 0
  else
    let old := s.ctxWord pos slot w
    let held := if s.slotValid pos slot then ctxHeld w else 0
    let m := ctxMask w &&& ~~~held
    let s := s.setCtxWord pos slot w ((old &&& ~~~m) ||| (data &&& m))
    if w = 6 ∧ (fld data 25 16 < s.xcUsed pos slot ∨ fld data 11 0 < s.rdOutOf pos slot) then
      s.setCtxWord pos slot 7 (setBit (s.ctxWord pos slot 7) 31 true)
    else s

/-- A read of record word `w` of a slot: words 12 and 14 show the engines' counts. -/
def State.ctxRecordRead (s : State) (pos slot w : Nat) : Word :=
  if w = 12 then BitVec.ofNat 32 (s.xcUsed pos slot * 2 ^ 16 + s.rdOutOf pos slot % 4096)
  else if w = 14 then BitVec.ofNat 32 (s.slotBusy pos slot)
  else s.ctxWord pos slot w

/-! ### Queues (R156, R157) -/

/-- SQ_CFG, SQ_TAIL, SQ_HEAD and SQ_CTRL of a queue. -/
def State.sqCfg (s : State) (pos slot q : Nat) : Word := s.reg (tileA pos (Reg.SQ_CFG slot q))
/-- SIZE_LOG in use: 2 to 12; other values act as 2. -/
def sqLog (w : Word) : Nat := let n := fld w 23 20; if 2 ≤ n ∧ n ≤ 12 then n else 2
/-- TAIL. -/
def State.sqTail (s : State) (pos slot q : Nat) : Nat := fld (s.reg (tileA pos (Reg.SQ_TAIL slot q))) 15 0
/-- HEAD. -/
def State.sqHead (s : State) (pos slot q : Nat) : Nat := fld (s.reg (tileA pos (Reg.SQ_HEAD slot q))) 15 0
/-- SQ_CTRL. -/
def State.sqCtrl (s : State) (pos slot q : Nat) : Word := s.reg (tileA pos (Reg.SQ_CTRL slot q))
/-- Entries submitted and not yet ended. -/
def State.sqUsed (s : State) (pos slot q : Nat) : Nat := (s.sqTail pos slot q + 65536 - s.sqHead pos slot q) % 65536

/-- The queue is STOPPED. -/
def State.sqStop (s : State) (pos slot q : Nat) : State := s.setRegF (tileA pos (Reg.SQ_CTRL slot q)) 3 3 1

/-- A QUEUE_ERR naming the context and queue. -/
def State.queueErr (s : State) (pos slot q : Nat) : State :=
  s.raise Src.QUEUE_ERR pos .tilePort q (s.slotCtx pos slot) (s.slotCtx pos slot) q

/-- A SQ_CFG write (R156). -/
def State.sqCfgWrite (s : State) (pos slot q : Nat) (data : Word) : State :=
  let a := tileA pos (Reg.SQ_CFG slot q)
  let old := s.reg a
  let data := data &&& 0x80FFFFC0
  if bit old 31 then
    let s := s.when (fld data 23 0 != fld old 23 0) fun t => t.cfgNote a
    s.setReg a (setBit old 31 (bit data 31))
  else if bit data 31 ∧ !s.inAlloc pos slot (64 * fld data 19 6) (64 * 2 ^ sqLog data) then
    ((s.setReg a (setBit data 31 false)).tpFlag pos 0).queueErr pos slot q
  else s.setReg a data

/-- QUEUE_ENABLE (R156). -/
def execQueueEnable (acc : Access) (pos : Pos) (slot q : Nat) (data : Word) (s : State) : Out :=
  done (guardedWrite acc (tileA pos (Reg.SQ_CFG slot q)) (fun t => t.sqCfgWrite pos slot q data) s)

/-- A SQ_TAIL write: one that sets TAIL - HEAD above the ring's size is ignored (R157). -/
def State.sqTailWrite (s : State) (pos slot q : Nat) (data : Word) : State :=
  let n := (fld data 15 0 + 65536 - s.sqHead pos slot q) % 65536
  if 2 ^ sqLog (s.sqCfg pos slot q) < n then (s.tpFlag pos 1).queueErr pos slot q
  else s.setReg (tileA pos (Reg.SQ_TAIL slot q)) (BitVec.ofNat 32 (fld data 15 0))

/-- QUEUE_SUBMIT (R157). -/
def execQueueSubmit (acc : Access) (pos : Pos) (slot q : Nat) (data : Word) (s : State) : Out :=
  done (guardedWrite acc (tileA pos (Reg.SQ_TAIL slot q)) (fun t => t.sqTailWrite pos slot q data) s)

/-! ### Status words (R173) -/

/-- Status word states. -/
abbrev stateQueued : Nat := 1
/-- RUNNING. -/
abbrev stateRunning : Nat := 2
/-- PAUSED. -/
abbrev statePaused : Nat := 3
/-- DONE. -/
abbrev stateDone : Nat := 4
/-- FAILED. -/
abbrev stateFailed : Nat := 5

/-- A status word (R173). -/
def statusWord (st code progress : Nat) : Nat := st * 2 ^ 60 + code * 2 ^ 52 + progress % 2 ^ 48

/-- The status word at an offset of 16 B units in a slot's allocation, as one aligned 64-bit write. -/
def State.writeStatusAt (s : State) (pos slot off st code progress : Nat) : State :=
  (s.writeBytesIn pos (s.allocBase pos slot + 16 * off) swNone (s.slotCtx pos slot)
    (bytesOf 8 (statusWord st code progress))).2

end Sys2Proof.Machine
end

