-- ==== Sys2Proof/Machine/Deliver.lean ====
section
/-! DEFINITION. What every delivery at a tile port shares: the packet leaves the intake, the checks of R149 and R150,
the bytes land (R189, R198), the count (R63) and the answer (R64). -/
namespace Sys2Proof.Machine

/-- The packet leaves the port's intake, where it waits there. -/
def State.takeIntake (s : State) (pos port : Nat) (p : Pkt) : State :=
  let k := 32 * pos + port
  { s with mesh := { s.mesh with intake := s.mesh.intake.set [] k ((s.mesh.intake.get [] k).erase p) } }

/-- Whether a packet comes from another die (R150). -/
def State.foreign (s : State) (p : Pkt) : Bool := !s.ownDie (dieOf p.src)

/-- The slot that takes a unicast at a tile port: its CTX is bound there, and a packet from another die needs XDIE
(R149, R150). -/
def State.unicastSlot (s : State) (pos : Nat) (p : Pkt) : Option Nat :=
  match s.slotOf pos p.ctx.toNat with
  | some k => if s.foreign p && !s.slotXdie pos k then none else some k
  | none => none

/-- The slot that takes a packet delivered by job: the job of its CTX here (R149, R150). -/
def State.jobSlot (s : State) (pos : Nat) (p : Pkt) : Option Nat :=
  match s.jobOf p.ctx.toNat with
  | some j =>
    match s.slotOfJob pos j with
    | some k => if s.foreign p && !s.slotXdie pos k then none else some k
    | none => none
  | none => none

/-- A run of bytes lands at a physical offset: whole aligned words are written, any other word is merged (R189).
Whether any was lost. -/
def State.landBytes (s : State) (pos off src ctx : Nat) (bs : List Byte) : Bool × State :=
  (wordsTouched off bs.length).foldl (fun (acc : Bool × State) k =>
    let lo := max off (32 * k); let hi := min (off + bs.length) (32 * k + 32)
    let part := (bs.drop (lo - off)).take (hi - lo)
    let r := if part.length = 32 then acc.2.writeWord pos k src ctx (bytesWord part)
      else acc.2.modifyWord pos k src ctx fun w => mergeBytes w (lo - 32 * k) part
    (acc.1 || r.1, r.2)) (false, s)

/-- Payload words land from an allocation offset; E_WORD is charged for each (R389). -/
def State.landWords (s : State) (pos slot off src : Nat) (ws : List DataWord) : Bool × State :=
  let r := s.landBytes pos (s.allocBase pos slot + off) src (s.slotCtx pos slot) (ws.flatMap wordBytes)
  (r.1, r.2.chargeWords pos (some slot) ws.length)

/-- A delivered packet counts where CNT is set (R63), and its CMPL_REQ is answered (R64); a delivery that lost a word
counts nothing and is answered with DATA_LOSS (R198). -/
def State.delivered (s : State) (pos slot port : Nat) (p : Pkt) (lost : Bool) : State :=
  if lost then (s.count (rtrA pos Reg.DISC_LOSS_CNT) 1).answer pos port p stDATA_LOSS
  else (s.when p.cnt fun t => t.countAt pos slot p.ccnt.toNat false).answer pos port p stDONE

end Sys2Proof.Machine
end

