-- ==== Sys2Proof/Machine/Message.lean ====
section
/-! DEFINITION. The message unit: rings (R202 to R208), mixing wells (R209 to R212) and the queue-stall timer (R213). -/
namespace Sys2Proof.Machine

/-! ### Rings -/

/-- RING_CFG of a ring. -/
def State.ringCfg (s : State) (pos r : Nat) : Word := s.reg (tileA pos (Reg.RING_CFG r))
/-- EN. -/
def State.ringOn (s : State) (pos r : Nat) : Bool := bit (s.ringCfg pos r) 31
/-- SLOT. -/
def State.ringSlot (s : State) (pos r : Nat) : Nat := fld (s.ringCfg pos r) 29 24
/-- Ring bytes of a RING_CFG value: 4 KiB × 2^n, n at most 8. -/
def ringBytes (w : Word) : Nat := 4096 * 2 ^ min 8 (fld w 23 20)
/-- Ring size in 32 B units: S of R204. -/
def State.ringUnits (s : State) (pos r : Nat) : Nat := ringBytes (s.ringCfg pos r) / 32
/-- Physical offset of a ring's first byte. -/
def State.ringStart (s : State) (pos r : Nat) : Nat :=
  s.allocBase pos (s.ringSlot pos r) + 4096 * fld (s.ringCfg pos r) 7 0
/-- W. -/
def State.ringW (s : State) (pos r : Nat) : Nat := (s.reg (tileA pos (Reg.RING_WPOS r))).toNat
/-- C. -/
def State.ringC (s : State) (pos r : Nat) : Nat := (s.reg (tileA pos (Reg.RING_CPOS r))).toNat
/-- H. -/
def State.ringH (s : State) (pos r : Nat) : Nat := (s.reg (tileA pos (Reg.RING_HEAD r))).toNat
/-- a - b modulo 2^32. -/
def diff32 (a b : Nat) : Nat := (a + 2 ^ 32 - b) % 2 ^ 32
/-- Messages reserved and not committed. -/
def State.resvs (s : State) (pos r : Nat) : List Resv := s.msgs.resv.get [] (64 * pos + r)
/-- The state with a ring's reservations replaced. -/
def State.setResvs (s : State) (pos r : Nat) (l : List Resv) : State :=
  { s with msgs := { s.msgs with resv := s.msgs.resv.set [] (64 * pos + r) l } }
/-- The waiting head of a message unit (R207). -/
def State.waiting (s : State) (pos : Nat) : Option Pkt := (s.msgWait.get [] pos).head?
/-- RING of a MSG packet. -/
def msgRing (p : Pkt) : Nat := p.tword 7 0
/-- Units of the message in a MSG packet, its header included (R203). -/
def msgUnits (p : Pkt) : Nat := p.words + 1

/-- The ring's status word. -/
def State.ringStatus (s : State) (pos r st code : Nat) : State :=
  s.writeStatusAt pos (s.ringSlot pos r) (fld (s.reg (tileA pos (Reg.RING_STAT_OFF r))) 15 0) st code (s.ringC pos r)

/-- Whether a MSG passes the checks of R204. -/
def State.msgOk (s : State) (pos : Nat) (p : Pkt) : Bool :=
  let r := msgRing p
  decide (r < 64) && s.ringOn pos r && s.slotValid pos (s.ringSlot pos r) &&
    s.slotCtx pos (s.ringSlot pos r) == p.ctx.toNat && s.unicastSlot pos p == some (s.ringSlot pos r) &&
    decide (msgUnits p ≤ s.ringUnits pos r)

/-- Where a message of `n` units goes: the skip marker's units, or nothing while it does not fit (R204). -/
def placeSkip (size w h n : Nat) : Option Nat :=
  let free := size - diff32 w h
  let off := w % size
  let e := size - off
  if n ≤ e ∧ n ≤ free then some 0
  else if e < n ∧ e + n ≤ free then some e
  else none

/-- A head is placed where it fits; whether it was (R204). -/
def State.msgPlace (s : State) (pos : Nat) (p : Pkt) (stamp : BitVec 64) : Option State :=
  let r := msgRing p
  let n := msgUnits p
  let w := s.ringW pos r
  match placeSkip (s.ringUnits pos r) w (s.ringH pos r) n with
  | some e =>
    let s := s.setReg (tileA pos (Reg.RING_WPOS r)) (BitVec.ofNat 32 (w + e + n))
    some (s.setResvs pos r (s.resvs pos r ++ [⟨w, n, e, p, stamp⟩]))
  | none => none

/-- The queue-stall timer restarts from zero. -/
def State.stallRestart (s : State) (pos : Nat) : State :=
  { s with msgs := { s.msgs with stallFrom := s.msgs.stallFrom.set 0 pos (s.time.edges + 1) } }
/-- The queue-stall timer stops. -/
def State.stallStop (s : State) (pos : Nat) : State :=
  { s with msgs := { s.msgs with stallFrom := s.msgs.stallFrom.set 0 pos 0 } }

/-- A MSG head reaches the message unit (R204, R207); a later head waits behind a waiting one. -/
def State.msgArrive (s : State) (pos : Nat) (p : Pkt) : State :=
  if (s.waiting pos).isSome then s
  else
    let s := s.takeIntake pos 4 p
    let stamp := s.capture
    let s := s.draw
    if !s.msgOk pos p then s.discardBad pos 4 p
    else match s.msgPlace pos p stamp with
      | some s' => s'
      | none =>
        { s with
          msgWait := s.msgWait.set [] pos [p]
          msgs := { s.msgs with waitStamp := s.msgs.waitStamp.set 0 pos stamp } }.stallRestart pos

/-- MSG (R204). -/
def execMsg (pos : Pos) (pkt : Pkt) (s : State) : Out :=
  done (s.when (!s.stopped && s.inMesh pos && pkt.ty.toNat == tyMSG) fun t => t.msgArrive pos pkt)

/-- The waiting head is checked again and placed once it fits (R204). -/
def State.msgRecheck (s : State) (pos : Nat) : State :=
  match s.waiting pos with
  | some p =>
    match s.msgPlace pos p (s.msgs.waitStamp.get 0 pos) with
    | some s' => ({ s' with msgWait := s'.msgWait.set [] pos [] }).stallStop pos
    | none => s
  | none => s

/-- MSG_PLACE (R204). -/
def execMsgPlace (pos : Pos) (s : State) : Out := done (s.when (!s.stopped) fun t => t.msgRecheck pos)

/-- A message header (R203). -/
def msgHeader (kind units : Nat) (src ctx tag seq : Nat) (stamp : BitVec 64) : DataWord :=
  BitVec.ofNat 256 (kind + units * 2 ^ 16 + src * 2 ^ 32 + ctx * 2 ^ 64 + tag * 2 ^ 80 + seq * 2 ^ 96 +
    stamp.toNat * 2 ^ 128)

/-- The front reservation's skip marker, payload and header are written (R203, R205, R207). -/
def State.writeMsg (s : State) (pos r : Nat) (v : Resv) : Bool × State :=
  let s := s.busy pos 64 3
  let start := s.ringStart pos r
  let size := s.ringUnits pos r
  let ctx := s.slotCtx pos (s.ringSlot pos r)
  let s := s.when (v.skip != 0) fun t =>
    (t.landBytes pos (start + 32 * (v.start % size)) swNone ctx (wordBytes (msgHeader 0x53 v.skip 0 0 0 0 0))).2
  let at' := start + 32 * ((v.start + v.skip) % size)
  let (lost, s) := s.landBytes pos (at' + 32) swNone ctx (v.pkt.payload.flatMap wordBytes)
  let kind := if lost then 0x4C else 0x4D
  let head := msgHeader kind v.units v.pkt.src.toNat v.pkt.rspCtx v.pkt.tag.toNat v.pkt.seq.toNat v.stamp
  (lost, ((s.landBytes pos at' swNone ctx (wordBytes head)).2).chargeWords pos (some (s.ringSlot pos r)) v.units)

/-- The front message is fully written: C advances past it, the status word follows, and the packet counts and is
answered; a lost message counts nothing (R205, R207). -/
def State.msgCommit (s : State) (pos r : Nat) : State :=
  match s.resvs pos r with
  | [] => s
  | v :: rest =>
    if (s.mesh.msgIn.get [] pos).contains v.pkt then s else
    let (lost, s) := s.writeMsg pos r v
    let s := s.setResvs pos r rest
    let s := s.setReg (tileA pos (Reg.RING_CPOS r)) (BitVec.ofNat 32 (v.start + v.skip + v.units))
    let s := s.ringStatus pos r stateRunning stDONE
    s.delivered pos (s.ringSlot pos r) 4 v.pkt lost

/-- MSG_COMMIT (R205). -/
def execMsgCommit (pos : Pos) (ring : Nat) (s : State) : Out := done (s.when (!s.stopped) fun t => t.msgCommit pos ring)

/-- A RING_HEAD write (R206): one that would put C - H outside 0 to S is ignored. -/
def State.ringHeadWrite (s : State) (pos r : Nat) (data : Word) : State :=
  let a := tileA pos (Reg.RING_HEAD r)
  if s.ringUnits pos r < diff32 (s.ringC pos r) data.toNat then
    let slot := s.ringSlot pos r
    s.raise Src.QUEUE_ERR pos .tilePort r (s.slotCtx pos slot) slot r
  else
    let moved := s.reg a != data
    let s := s.setReg a data
    s.when (moved && (s.waiting pos).any fun p => msgRing p == r) fun t => t.stallRestart pos

/-- RING_HEAD_WRITE (R206). -/
def execRingHeadWrite (acc : Access) (pos : Pos) (ring : Nat) (data : Word) (s : State) : Out :=
  done (guardedWrite acc (tileA pos (Reg.RING_HEAD ring)) (fun t => t.ringHeadWrite pos ring data) s)

/-- A message discarded by a flush is counted, and answered with RING_STALL (R208). -/
def State.flushPkt (s : State) (pos : Nat) (p : Pkt) : State :=
  (s.count (rtrA pos Reg.DISC_BAD_CNT) 1).answer pos 4 p stRING_STALL

/-- A flush: EN clears, and the waiting head and every uncommitted message of the ring go (R208). -/
def State.ringFlush (s : State) (pos r : Nat) : State :=
  let s := s.setRegF (tileA pos (Reg.RING_CFG r)) 31 31 0
  let s := match s.waiting pos with
    | some p =>
      if msgRing p = r then (({ s with msgWait := s.msgWait.set [] pos [] }).stallStop pos).flushPkt pos p else s
    | none => s
  let gone := s.resvs pos r
  gone.foldl (fun t v => t.flushPkt pos v.pkt) (s.setResvs pos r [])

/-- The binding check of a ring (R202): SLOT binds a valid context that holds the ring and its status word. -/
def State.ringFits (s : State) (pos r : Nat) (w : Word) : Bool :=
  let slot := fld w 29 24
  s.slotValid pos slot && s.inAlloc pos slot (4096 * fld w 7 0) (ringBytes w) &&
    s.inAlloc pos slot (16 * fld (s.reg (tileA pos (Reg.RING_STAT_OFF r))) 15 0) 8

/-- A refused bind of a ring or well: BIND_ERR and a Note naming the slot and the ring (R202). -/
def State.bindRefused (s : State) (pos slot n : Nat) : State :=
  (s.tpFlag pos 0).raise Src.CFG_ADJUSTED pos .tilePort n (s.slotCtx pos slot) slot n

/-- A RING_CFG write (R202, R208): a flush comes before an enable. -/
def State.ringCfgWrite (s : State) (pos r : Nat) (data : Word) : State :=
  let a := tileA pos (Reg.RING_CFG r)
  let s := s.when (bit data 30) fun t => t.ringFlush pos r
  let data := data &&& 0xBFF000FF
  let old := s.reg a
  if bit old 31 then
    s.setReg a (setBit old 31 (bit data 31))
  else if bit data 31 then
    if s.ringFits pos r data then
      let s := s.setReg a data
      let s := s.setReg (tileA pos (Reg.RING_WPOS r)) 0
      let s := s.setReg (tileA pos (Reg.RING_CPOS r)) 0
      s.setReg (tileA pos (Reg.RING_HEAD r)) 0
    else (s.setReg a (setBit data 31 false)).bindRefused pos (fld data 29 24) r
  else s.setReg a data

/-- RING_ENABLE (R202). -/
def execRingEnable (acc : Access) (pos : Pos) (ring : Nat) (data : Word) (s : State) : Out :=
  done (guardedWrite acc (tileA pos (Reg.RING_CFG ring)) (fun t => t.ringCfgWrite pos ring (setBit data 30 false)) s)

/-- RING_FLUSH (R208). -/
def execRingFlush (acc : Access) (pos : Pos) (ring : Nat) (data : Word) (s : State) : Out :=
  done (guardedWrite acc (tileA pos (Reg.RING_CFG ring)) (fun t => t.ringCfgWrite pos ring (setBit data 30 true)) s)

/-- RING_STALL_LIMIT in AON edges: 0 acts as 1 µs (R201). -/
def State.stallLimit (s : State) (pos : Nat) : Nat := 100 * max 1 (fld (s.reg (tileA pos Reg.RING_STALL_LIMIT)) 15 0)

/-- The queue-stall timer reaches its limit (R213). -/
def State.ringStall (s : State) (pos : Nat) : State :=
  match s.waiting pos with
  | some p =>
    let from' := s.msgs.stallFrom.get 0 pos
    if from' ≠ 0 ∧ from' - 1 + s.stallLimit pos ≤ s.time.edges then
      let r := msgRing p
      let s := s.ringStatus pos r stateFailed stRING_STALL
      (s.stallStop pos).raise Src.RING_STALL pos .tilePort r (s.slotCtx pos (s.ringSlot pos r)) (pos + r * 2 ^ 10)
        (p.src.toNat + p.rspCtx * 2 ^ 32 + 3 * 2 ^ 44)
    else s
  | none => s

/-- RING_STALL (R213). -/
def execRingStall (pos : Pos) (s : State) : Out := done (s.when (!s.stopped) fun t => t.ringStall pos)

/-! ### Wells -/

/-- WELL_CFG. -/
def State.wellCfg (s : State) (pos w : Nat) : Word := s.reg (tileA pos (Reg.WELL_CFG w))
/-- WELL_BASE. -/
def State.wellBase (s : State) (pos w : Nat) : Word := s.reg (tileA pos (Reg.WELL_BASE w))

/-- The binding check of a well (R209). -/
def State.wellFits (s : State) (pos w : Nat) (cfg : Word) : Bool :=
  let slot := fld cfg 27 22
  s.slotValid pos slot && s.inAlloc pos slot (4096 * fld (s.wellBase pos w) 7 0) (16 * (fld cfg 15 0 + 1)) &&
    s.inAlloc pos slot (16 * fld (s.wellBase pos w) 31 16) 8

/-- A WELL_CFG write (R209): ACC 0b11 keeps EN at 0; an enable restarts the count of elements. -/
def State.wellCfgWrite (s : State) (pos w : Nat) (data : Word) : State :=
  let a := tileA pos (Reg.WELL_CFG w)
  let data := data &&& 0xBFC0FFFF
  let was := bit (s.reg a) 31
  if bit data 31 then
    if fld data 29 28 = 3 then s.setReg a (setBit data 31 false)
    else if s.wellFits pos w data then
      (s.setReg a data).when (!was) fun t =>
        { t with trays := { t.trays with wellDone := t.trays.wellDone.set 0 (16 * pos + w) 0 } }
    else (s.setReg a (setBit data 31 false)).bindRefused pos (fld data 27 22) w
  else s.setReg a data

/-- WELL_ENABLE (R209). -/
def execWellEnable (acc : Access) (pos : Pos) (well : Nat) (data : Word) (s : State) : Out :=
  done (guardedWrite acc (tileA pos (Reg.WELL_CFG well)) (fun t => t.wellCfgWrite pos well data) s)

/-- ACC of a well. -/
def State.wellMode (s : State) (pos w : Nat) : AccMode := accModeOf (fld (s.wellCfg pos w) 29 28)

/-- Formats a well accepts (R211). -/
def wellTakes (m : AccMode) (fmt : Nat) : Bool :=
  match m with
  | .integer => fmt == 5 || fmt == 6
  | _ => decide (fmt ≤ 4) || fmt == 7

/-- One slot record with an element added (R210, R211); whether the sum saturated or overflowed. -/
def wellSlot (m : AccMode) (fmt bits : Nat) (old : Nat) : Nat × Bool :=
  let sum := BitVec.ofNat 64 (old % 2 ^ 64)
  let r := accMerge m 0 sum (accOf m fmt bits)
  let stored := match m with
    | .integer => encodeInt 64 (carrySig r.1)
    | _ => r.1.toNat
  let n := min (bitsOf old 95 64 + 1) 0xFFFFFFFF
  (stored + n * 2 ^ 64 + bitsOf old 127 96 * 2 ^ 96, r.2)

/-- One element is added into a slot: one read-modify-write of its word (R211). -/
def State.wellAddOne (s : State) (pos w fmt i bits : Nat) : Bool × State :=
  let slot := fld (s.wellCfg pos w) 27 22
  let m := s.wellMode pos w
  let off := s.allocBase pos slot + 4096 * fld (s.wellBase pos w) 7 0 + 16 * i
  let lane := off % 32 * 8
  let cur := bitsOf (s.trayWord pos (off / 32)).toNat (lane + 127) lane
  let (lost, t) := s.modifyWord pos (off / 32) swNone (s.slotCtx pos slot) fun word =>
    mergeBytes word (off % 32) (bytesOf 16 (wellSlot m fmt bits (bitsOf word.toNat (lane + 127) lane)).1)
  (lost, t.when (!lost && (wellSlot m fmt bits cur).2) fun u => u.count (tileA pos Reg.AGENT_SAT_CNT) 1)

/-- Whether a WELL_ADD passes the checks of R211. -/
def State.wellOk (s : State) (pos : Nat) (p : Pkt) : Bool :=
  let w := p.tword 7 0; let fmt := p.tword 27 24
  let cfg := s.wellCfg pos w
  decide (w < 16) && bit cfg 31 && s.unicastSlot pos p == some (fld cfg 27 22) && wellTakes (s.wellMode pos w) fmt &&
    decide (p.tword 23 8 + 32 * p.words / fmtBytes fmt ≤ fld cfg 15 0 + 1)

/-- A WELL_ADD is checked and applied; the well's status word follows, and the packet counts and is answered (R211).
It waits behind a waiting MSG head (R207). -/
def State.wellAdd (s : State) (pos : Nat) (p : Pkt) : State :=
  if (s.waiting pos).isSome then s
  else
    let s := s.takeIntake pos 4 p
    if !s.wellOk pos p then s.discardBad pos 4 p
    else
      let w := p.tword 7 0; let fmt := p.tword 27 24; let first := p.tword 23 8
      let slot := fld (s.wellCfg pos w) 27 22
      let es := elemsOf fmt (p.payload.flatMap wordBytes)
      let s := s.busy pos 64 3
      let (lost, s) := (es.zipIdx).foldl (fun (acc : Bool × State) e =>
        let r := acc.2.wellAddOne pos w fmt (first + e.2) e.1
        (acc.1 || r.1, r.2)) (false, s)
      let n := (s.trays.wellDone.get 0 (16 * pos + w) + es.length) % 2 ^ 48
      let s := { s with trays := { s.trays with wellDone := s.trays.wellDone.set 0 (16 * pos + w) n } }
      let s := s.writeStatusAt pos slot (fld (s.wellBase pos w) 31 16) stateRunning stDONE n
      s.delivered pos slot 4 p lost

/-- WELL_ADD_PACKET (R211). -/
def execWellAddPacket (pos : Pos) (pkt : Pkt) (s : State) : Out :=
  done (s.when (!s.stopped && s.inMesh pos && pkt.ty.toNat == tyWELL_ADD) fun t => t.wellAdd pos pkt)

end Sys2Proof.Machine
end

