-- ==== Sys2Proof/Machine/Tpp.lean ====
section
/-! DEFINITION. The tray processor port (R190 to R195, R467): windows, reach, plain, alias, take and rotate accesses. -/
namespace Sys2Proof.Machine

/-- Where a TPP address lies (R190). -/
inductive TppWin where
  | plain | bitSet | bitClear | take | rotate
  | counter (slot n : Nat) | ctrErr (slot : Nat) (high : Bool) | ringHead (r : Nat)
  | none
deriving DecidableEq, Repr

/-- The window of a TPP address (R190). -/
def tppWindow (addr : Nat) : TppWin :=
  let top := addr / 2 ^ 20
  let off := addr % 2 ^ 20
  match top with
  | 0 => .plain
  | 1 => .bitSet
  | 2 => .bitClear
  | 3 => .take
  | 4 => .rotate
  | 5 =>
    if off % 4 ≠ 0 then .none
    else if off < 0x4000 then .counter (off / 256) (off % 256 / 4)
    else if off < 0x4200 then .ctrErr ((off - 0x4000) / 8) (off % 8 == 4)
    else if 0x8000 ≤ off ∧ off < 0x8100 then .ringHead ((off - 0x8000) / 4)
    else .none
  | _ => .none

/-- The response of a position's port, in place of its last one. -/
def State.tppRespond (s : State) (pos id : Nat) (data : List Byte) (err : Bool) : State :=
  { s with trays := { s.trays with
    tppRsp := ⟨pos, id, data, err⟩ :: s.trays.tppRsp.filter fun r => r.pos != pos } }

/-- Zero data of a length. -/
def zeros (n : Nat) : List Byte := List.replicate n 0

/-- An access outside every window (R190). -/
def State.tppUnmapped (s : State) (pos id addr len : Nat) : State :=
  (s.raise Src.ACCESS_UNMAPPED pos .tilePort 0 0 addr (pathCode (.tile pos))).tppRespond pos id (zeros len) true

/-- A Tenant access outside its reach (R191). -/
def State.tppRefused (s : State) (pos slot id len : Nat) : State :=
  (s.raise Src.ACCESS_PRIV pos .tilePort slot (s.slotCtx pos slot) slot 0).tppRespond pos id (zeros len) true

/-- Whether the port takes requests: the client is released at an active position, and its panel's clock runs (R466);
a reduction tile makes no access (R315). -/
def State.tppOpen (s : State) (pos : Nat) : Bool :=
  s.inMesh pos && s.release && !s.isSpare pos && !s.stopped && s.panelRuns pos && !Config.spineRole s.config

/-- The length that a window takes, in bytes (R467). -/
def tppLenOk (w : TppWin) (len : Nat) : Bool :=
  match w with
  | .plain => len == 32 || len == 64 || len == 128
  | .bitSet | .bitClear => len == 8
  | .take => len == 32
  | .rotate => decide (1 ≤ len) && decide (len ≤ 32)
  | .none => false
  | _ => len == 4

/-- The alignment that a window asks (R192, R193). -/
def tppAligned (w : TppWin) (addr len : Nat) : Bool :=
  match w with
  | .plain => addr % len == 0
  | .bitSet | .bitClear => addr % 8 == 0
  | .take => addr % 32 == 0
  | _ => true

/-- Whether an access lies inside its window's range: tray offsets end at the tray size (R190). -/
def State.tppInside (s : State) (w : TppWin) (addr len : Nat) : Bool :=
  match w with
  | .plain | .bitSet | .bitClear | .take | .rotate => decide (addr % 2 ^ 20 + len ≤ s.traySize)
  | .none => false
  | _ => true

/-- Whether a privilege reaches an access (R191, R418). -/
def State.tppReach (s : State) (pos : Nat) (priv : Priv) (slot : Nat) (w : TppWin) (addr len : Nat) : Bool :=
  match priv with
  | .tenant =>
    s.slotValid pos slot && !s.fenced pos &&
    (match w with
      | .counter k _ => k == slot
      | .ctrErr k _ => k == slot
      | .ringHead r => s.ringSlot pos r == slot
      | .none => false
      | _ => s.inAlloc pos slot (addr % 2 ^ 20) len)
  | _ => true

/-- The physical tray offset of an access: a Tenant's is relative to its allocation (R191). -/
def State.tppOffset (s : State) (pos : Nat) (priv : Priv) (slot addr : Nat) : Nat :=
  match priv with
  | .tenant => s.allocBase pos slot + addr % 2 ^ 20
  | _ => addr % 2 ^ 20

/-- The rules every access meets before its effect, which is given the physical offset; a window that does not take
this command's kind of access is unmapped. -/
def State.tppAccess (s : State) (pos : Nat) (priv : Priv) (slot addr len id : Nat) (kind : Bool)
    (effect : State → TppWin → Nat → State) : State :=
  let w := tppWindow addr
  let open' := s.tppOpen pos
  let s := s.when open' fun t =>
    { t with power := { t.power with tppAt := t.power.tppAt.set 0 pos (t.time.edges + 1) } }
  if !open' then s
  else if !kind || !tppLenOk w len || !tppAligned w addr len || !s.tppInside w addr len then s.tppUnmapped pos id addr len
  else if !s.tppReach pos priv slot w addr len then s.tppRefused pos slot id len
  else
    let off := s.tppOffset pos priv slot addr
    let tray := match w with | .counter _ _ | .ctrErr _ _ | .ringHead _ => false | _ => true
    if tray && s.banksBusy pos off len then s
    else effect s w off

/-- One word as the processor port reads it: data, error response and the state (R198, R199). -/
def State.tppWord (s : State) (pos k : Nat) : DataWord × Bool × State :=
  if s.bankOff pos (bankOf k) then (0, true, s.raise Src.TRAY_OFF_ACCESS pos .tilePort (bankOf k) 0 (bankOf k) 0)
  else s.readWord pos k

/-- Consecutive words as the processor port reads them. -/
def State.tppWords (s : State) (pos k : Nat) : (n : Nat) → List Byte × Bool × State
  | 0 => ([], false, s)
  | n + 1 =>
    let (w, e, s1) := s.tppWord pos k
    let (ws, e', s2) := s1.tppWords pos (k + 1) n
    (wordBytes w ++ ws, e || e', s2)

/-- The register that a counter or ring-head window reaches. -/
def tppReg (pos : Nat) (w : TppWin) : RegAddr :=
  match w with
  | .counter k n => tileA pos (Reg.CTR k n)
  | .ctrErr k hi => tileA pos (if hi then Reg.CTR_ERR_HI k else Reg.CTR_ERR_LO k)
  | .ringHead r => tileA pos (Reg.RING_HEAD r)
  | _ => tileA pos 0

/-- Whether a window is the plain one or a register window. -/
def tppPlainKind (w : TppWin) : Bool :=
  match w with
  | .plain | .counter _ _ | .ctrErr _ _ | .ringHead _ => true
  | _ => false

/-- TPP_READ (R190 to R192): a plain read or a read of a counter, CTR_ERR or RING_HEAD. -/
def execTppRead (pos : Pos) (priv : Priv) (slot : Nat) (addr len : Nat) (id : Nat) (s : State) : Out :=
  done (s.when (!s.stopped) fun s => s.tppAccess pos priv slot addr len id (tppPlainKind (tppWindow addr)) fun t w off =>
    if w = .plain then
      let (bs, err, t) := t.tppWords pos (off / 32) (len / 32)
      t.tppRespond pos id bs err
    else t.tppRespond pos id (bytesOf 4 (t.reg (tppReg pos w)).toNat) false)

/-- One word as the processor port writes it, with its byte enables (R192, R198, R199). -/
def State.tppWriteWord (s : State) (pos k ctx : Nat) (mask : Nat) (w : DataWord) : State :=
  if s.bankOff pos (bankOf k) then s.raise Src.TRAY_OFF_ACCESS pos .tilePort (bankOf k) 0 (bankOf k) 0
  else if mask = 2 ^ 32 - 1 then (s.writeWord pos k swTpp ctx w).2
  else (s.modifyWord pos k swTpp ctx fun old =>
    bytesWord ((List.range 32).map fun i => if mask.testBit i then dataWordByte w i else dataWordByte old i)).2

/-- The context whose slot a processor-port write names (R437). -/
def State.tppCtx (s : State) (pos slot : Nat) : Nat := if s.slotValid pos slot then s.slotCtx pos slot else 0

/-- TPP_WRITE (R190 to R192). -/
def execTppWrite (pos : Pos) (priv : Priv) (slot : Nat) (addr len : Nat) (id : Nat) (mask : BitVec 128)
    (data : List Byte) (s : State) : Out :=
  done (s.when (!s.stopped) fun s => s.tppAccess pos priv slot addr len id (tppPlainKind (tppWindow addr)) fun t w off =>
    let t' := match w with
      | .plain => (List.range (len / 32)).foldl (fun (u : State) i =>
          u.tppWriteWord pos (off / 32 + i) (t.tppCtx pos slot) (bitsOf mask.toNat (32 * i + 31) (32 * i))
            (bytesWord ((data.drop (32 * i)).take 32))) t
      | .ringHead r => t.ringHeadWrite pos r (BitVec.ofNat 32 (ofBytes (data.take 4)))
      | w => t.plainWrite (tppReg pos w) (BitVec.ofNat 32 (ofBytes (data.take 4)))
    t'.tppRespond pos id [] false)

/-- An alias access: one read-modify-write of the word that holds the granule; the previous granule returns (R193). -/
def State.tppAlias (s : State) (pos slot id off : Nat) (f : Nat → Nat) : State :=
  let k := off / 32
  let lo := off % 32 * 8
  let (w, err, s) := s.tppWord pos k
  let old := bitsOf w.toNat (lo + 63) lo
  if err then s.tppRespond pos id (zeros 8) true
  else
    let s := (s.writeWord pos k swTpp (s.tppCtx pos slot) (mergeBytes w (off % 32) (bytesOf 8 (f old)))).2
    s.tppRespond pos id (bytesOf 8 old) false

/-- TPP_BIT_SET (R193). -/
def execTppBitSet (pos : Pos) (priv : Priv) (slot : Nat) (addr : Nat) (id : Nat) (data : BitVec 64) (s : State) : Out :=
  done (s.when (!s.stopped) fun s => s.tppAccess pos priv slot addr 8 id (tppWindow addr == .bitSet) fun t _ off =>
    t.tppAlias pos slot id off fun old => old ||| data.toNat)

/-- TPP_BIT_CLEAR (R193). -/
def execTppBitClear (pos : Pos) (priv : Priv) (slot : Nat) (addr : Nat) (id : Nat) (data : BitVec 64) (s : State) : Out :=
  done (s.when (!s.stopped) fun s => s.tppAccess pos priv slot addr 8 id (tppWindow addr == .bitClear) fun t _ off =>
    t.tppAlias pos slot id off fun old => (BitVec.ofNat 64 old &&& ~~~data).toNat)

/-- TPP_TAKE: the word is returned, and the encoding of zero stays in its place (R195). -/
def execTppTake (pos : Pos) (priv : Priv) (slot : Nat) (addr : Nat) (id : Nat) (s : State) : Out :=
  done (s.when (!s.stopped) fun s => s.tppAccess pos priv slot addr 32 id (tppWindow addr == .take) fun t _ off =>
    let (w, err, t) := t.tppWord pos (off / 32)
    if err then t.tppRespond pos id (zeros 32) true
    else ((t.writeWord pos (off / 32) swTpp (t.tppCtx pos slot) 0).2).tppRespond pos id (wordBytes w) false)

/-- Whether the rotate window is open: the die is in START_UP, TEST or RECOVERY (R194, R331). -/
def State.rotateOpen (s : State) : Bool := s.mode != 1

/-- A rotate write: a read-modify-write of each word it touches (R194). -/
def State.rotateWrite (s : State) (pos ctx off : Nat) (bs : List Byte) : State :=
  (wordsTouched off bs.length).foldl (fun t k =>
    let lo := max off (32 * k); let hi := min (off + bs.length) (32 * k + 32)
    let part := (bs.drop (lo - off)).take (hi - lo)
    if t.bankOff pos (bankOf k) then t.raise Src.TRAY_OFF_ACCESS pos .tilePort (bankOf k) 0 (bankOf k) 0
    else (t.modifyWord pos k swTpp ctx fun w => mergeBytes w (lo - 32 * k) part).2) s

/-- TPP_ROTATE (R194). -/
def execTppRotate (pos : Pos) (priv : Priv) (slot : Nat) (addr len : Nat) (id : Nat) (write : Bool) (data : List Byte)
    (s : State) : Out :=
  done (s.when (!s.stopped) fun s => s.tppAccess pos priv slot addr len id (tppWindow addr == .rotate) fun t _ off =>
    if !t.rotateOpen then
      (t.raise Src.TRAY_ROTATE_DENIED pos .tilePort 0 (t.tppCtx pos slot) 0 0).tppRespond pos id (zeros len) true
    else if write then (t.rotateWrite pos (t.tppCtx pos slot) off (data.take len)).tppRespond pos id [] false
    else
      let ks := wordsTouched off len
      let (bs, err, t) := t.tppWords pos (off / 32) ks.length
      t.tppRespond pos id ((bs.drop (off % 32)).take len) err)

end Sys2Proof.Machine
end

