-- ==== Sys2Proof/Machine/Engine.lean ====
section
/-! DEFINITION. What the engines share: descriptors (R160 to R167), the checks at take (R162), status words and the end
of a command (R159, R173 to R176), lanes (R25, R169), translation (R178 to R182) and save records (R184). -/
namespace Sys2Proof.Machine

/-! ### Descriptors -/

/-- Bits `[hi:lo]` of the descriptor's byte `b`, counted from that byte's bit 0. -/
def descBits (d : BitVec 512) (b hi lo : Nat) : Nat := bitsOf d.toNat (8 * b + hi) (8 * b + lo)
/-- Bytes `b` to `b + n - 1` of a descriptor as a number. -/
def descBytes (d : BitVec 512) (b n : Nat) : Nat := bitsOf d.toNat (8 * (b + n) - 1) (8 * b)
/-- OPCODE. -/
def dOp (d : BitVec 512) : Nat := descBytes d 0 1
/-- TIMED. -/
def dTimed (d : BitVec 512) : Bool := descBits d 1 0 0 == 1
/-- ARMED. -/
def dArmed (d : BitVec 512) : Bool := descBits d 1 1 1 == 1
/-- CNT_END. -/
def dCntEnd (d : BitVec 512) : Bool := descBits d 1 2 2 == 1
/-- CMPL_REQ. -/
def dCmplReq (d : BitVec 512) : Bool := descBits d 1 3 3 == 1
/-- CNT. -/
def dCnt (d : BitVec 512) : Bool := descBits d 1 4 4 == 1
/-- STOP_ON_FAIL. -/
def dStopOnFail (d : BitVec 512) : Bool := descBits d 1 5 5 == 1
/-- VC. -/
def dVc (d : BitVec 512) : Nat := descBits d 2 2 0
/-- CLASS. -/
def dClass (d : BitVec 512) : Nat := descBits d 2 5 3
/-- CCNT. -/
def dCcnt (d : BitVec 512) : Nat := descBits d 3 5 0
/-- LCCNT. -/
def dLccnt (d : BitVec 512) : Nat := descBits d 4 5 0
/-- STATUS_OFF. -/
def dStatus (d : BitVec 512) : Nat := descBytes d 6 2
/-- START: START_NT or TRIGGER_ID. -/
def dStart (d : BitVec 512) : Nat := descBytes d 8 8
/-- PEER, DEST, TARGET, WASH_ID or COLL_ID. -/
def dPeer (d : BitVec 512) : Nat := descBytes d 16 4
/-- PEER_CTX. -/
def dPeerCtx (d : BitVec 512) : Nat := descBits d 20 11 0
/-- LANE_DIR. -/
def dLane (d : BitVec 512) : Nat := descBits d 20 14 12
/-- DIR: far to local. -/
def dReads (d : BitVec 512) : Bool := descBits d 20 15 15 == 1
/-- FAR_SPACE = 1: virtual memory. -/
def dVirtual (d : BitVec 512) : Bool := descBytes d 22 1 == 1
/-- PKT_LOG. -/
def dPktLog (d : BitVec 512) : Nat := descBytes d 23 1
/-- LOCAL_OFF or SRC_OFF. -/
def dLocal (d : BitVec 512) : Nat := descBytes d 24 8
/-- FAR_ADDR, FAR_OFF or DST_OFF. -/
def dFar (d : BitVec 512) : Nat := descBytes d 32 8
/-- LENGTH or COUNT. -/
def dLen (d : BitVec 512) : Nat := descBytes d 40 4
/-- FAR_STRIDE. -/
def dFarStride (d : BitVec 512) : Nat := descBytes d 48 4
/-- LOCAL_STRIDE or INDEX_OFF. -/
def dLocalStride (d : BitVec 512) : Nat := descBytes d 52 4
/-- ROWS or COUNT of a strided or indexed command. -/
def dRows (d : BitVec 512) : Nat := descBytes d 56 4

/-- Opcodes (R161). -/
abbrev opCOPY : Nat := 0x01
/-- STRIDED. -/
abbrev opSTRIDED : Nat := 0x02
/-- GATHER. -/
abbrev opGATHER : Nat := 0x03
/-- SCATTER. -/
abbrev opSCATTER : Nat := 0x04
/-- MCAST. -/
abbrev opMCAST : Nat := 0x05
/-- WASH_WRITE. -/
abbrev opWASH : Nat := 0x06
/-- TRIGGER. -/
abbrev opTRIGGER : Nat := 0x20
/-- ALLREDUCE. -/
abbrev opALLREDUCE : Nat := 0x21
/-- REDUCE_SCATTER. -/
abbrev opREDUCE_SCATTER : Nat := 0x22
/-- ALLGATHER. -/
abbrev opALLGATHER : Nat := 0x23
/-- BROADCAST. -/
abbrev opBROADCAST : Nat := 0x24
/-- ALLTOALL. -/
abbrev opALLTOALL : Nat := 0x25
/-- BARRIER. -/
abbrev opBARRIER : Nat := 0x26
/-- RING_PASS. -/
abbrev opRING_PASS : Nat := 0x27
/-- MSG_SEND. -/
abbrev opMSG_SEND : Nat := 0x30
/-- WELL_ADD. -/
abbrev opWELL_ADD : Nat := 0x31

/-- Whether an opcode belongs to a queue's engine (R161). -/
def opOfQueue (q op : Nat) : Bool :=
  match q with
  | 0 | 1 => decide (1 ≤ op) && decide (op ≤ 6)
  | 2 => decide (0x20 ≤ op) && decide (op ≤ 0x27)
  | 3 => op == 0x30 || op == 0x31
  | _ => false

/-! ### Commands in service -/

/-- The key of a queue. -/
def sqKey (pos slot q : Nat) : Nat := 256 * pos + 4 * slot + q
/-- A queue's command in service. -/
def State.cmd? (s : State) (pos slot q : Nat) : Option Cmd := s.eng.cmds.find? (sqKey pos slot q)
/-- The state with a queue's command in service. -/
def State.setCmd (s : State) (pos slot q : Nat) (c : Cmd) : State :=
  { s with eng := { s.eng with cmds := s.eng.cmds.put (sqKey pos slot q) c } }
/-- The state with no command in service at a queue. -/
def State.delCmd (s : State) (pos slot q : Nat) : State :=
  { s with eng := { s.eng with cmds := s.eng.cmds.del (sqKey pos slot q) } }
/-- HEAD advances by 1. -/
def State.headStep (s : State) (pos slot q : Nat) : State :=
  s.setReg (tileA pos (Reg.SQ_HEAD slot q)) (BitVec.ofNat 32 ((s.sqHead pos slot q + 1) % 65536))

/-- A command as its engine takes it. -/
def Cmd.take (d : BitVec 512) (entry : Nat) : Cmd := ⟨d, entry, 1, 0, 0, 0, [], none, 0, 0, 0, 0, 0, 0, none, none⟩

/-- Words of a row (R163). -/
def rowWords (d : BitVec 512) : Nat := dLen d / 32
/-- Rows of a mover command. -/
def rowCount (d : BitVec 512) : Nat :=
  if dOp d = opSTRIDED ∨ dOp d = opGATHER ∨ dOp d = opSCATTER then dRows d else 1
/-- Words that a mover or message command moves. -/
def totalWords (d : BitVec 512) : Nat :=
  match dOp d with
  | 0x30 | 0x31 => descBytes d 32 4 / 32
  | _ => rowWords d * rowCount d

/-- Whether a command reads from its far side. -/
def isRead (d : BitVec 512) : Bool :=
  (dOp d == opCOPY || dOp d == opSTRIDED || dOp d == opGATHER) && dReads d

/-- Words landed in one unbroken run (R175): below every read that is outstanding or has failed. -/
def Cmd.landed (c : Cmd) : Nat :=
  let low := (c.reads.map fun r => r.2.1).foldl min c.issued
  match c.gap with
  | some g => min g low
  | none => low

/-- PROGRESS of a command (R175, R254) while the packet being injected holds `held` of its words. -/
def Cmd.progressAt (c : Cmd) (held : Nat) : Nat :=
  match c.coll with
  | some k => if dOp c.desc = opBARRIER then (if k.wave.isSome && k.run != 0 then 1 else 0) else k.run
  | none =>
    let n := if isRead c.desc then c.landed else c.issued - c.lost - held
    if dOp c.desc = opGATHER ∨ dOp c.desc = opSCATTER then n / max 1 (rowWords c.desc) else n

/-- PROGRESS of a command no packet of which is being injected, or whose last one will be injected to its end (R92). -/
def Cmd.progress (c : Cmd) : Nat := c.progressAt 0

/-- PROGRESS in words, by which STATUS_STEP counts (R175). -/
def Cmd.progressWords (c : Cmd) (held : Nat) : Nat :=
  match c.coll with
  | some k => k.run * (2 ^ descBytes c.desc 23 1 / 32)
  | none => if isRead c.desc then c.landed else c.issued - c.lost - held

/-- TAG of an engine's packets: queue and slot (R164). -/
def engineTag (slot q : Nat) : Nat := 64 * q + slot

/-- The packet of an engine that is being injected: part of it still waits at the tile port (R92, R183). -/
def State.feedPkt (s : State) (pos slot q : Nat) : Option Pkt :=
  (List.range 5).findSome? fun v =>
    match (s.vcb pos 0 v).feed with
    | f :: _ => if f.pkt.tag.toNat = engineTag slot q ∧ f.pkt.ty.toNat ≠ tyREAD_RSP then some f.pkt else none
    | [] => none

/-- The words of a write that is being injected, which PROGRESS does not count yet. -/
def State.feedWords (s : State) (pos slot q : Nat) : Nat :=
  match s.feedPkt pos slot q with
  | some p => if p.ty.toNat = tyREAD_REQ then 0 else p.words
  | none => 0

/-- Whether a command's status word lies inside the allocation (R159). -/
def State.statusFits (s : State) (pos slot : Nat) (c : Cmd) : Bool := s.inAlloc pos slot (16 * dStatus c.desc) 8

/-- The queue stops at an entry whose status word cannot be written: STOPPED, QUEUE_ERR, HEAD past it (R159). -/
def State.queueStop (s : State) (pos slot q : Nat) : State :=
  (((s.sqStop pos slot q).queueErr pos slot q).headStep pos slot q).delCmd pos slot q

/-- A command's status word is written, and the command kept; a status word outside the allocation stops the queue. -/
def State.keep (s : State) (pos slot q : Nat) (c : Cmd) (st code : Nat) : State :=
  if s.statusFits pos slot c then
    let held := if st = stateRunning then s.feedWords pos slot q else 0
    ((s.writeStatusAt pos slot (dStatus c.desc) st code (c.progressAt held)).chargeWords pos (some slot) 1).setCmd pos slot q
      { c with prog := c.progressWords held }
  else s.queueStop pos slot q

/-- A command ends: status word, LCCNT, HEAD (R176); STOP_ON_FAIL stops the queue (R159). -/
def State.endCommand (s : State) (pos slot q : Nat) (c : Cmd) (st code : Nat) : State :=
  if s.statusFits pos slot c then
    let s := s.writeStatusAt pos slot (dStatus c.desc) st code c.progress
    let s := s.chargeWords pos (some slot) 1
    let s := s.when (dCntEnd c.desc) fun t => t.countAt pos slot (dLccnt c.desc) false
    let s := s.headStep pos slot q
    let s := s.when (st == stateFailed && dStopOnFail c.desc) fun t => t.sqStop pos slot q
    s.delCmd pos slot q
  else s.queueStop pos slot q

/-- STATUS_STEP of a position. -/
def State.statusStep (s : State) (pos : Nat) : Nat := max 1 (fld (s.reg (tileA pos Reg.STATUS_STEP)) 15 0)

/-- A RUNNING command that has moved on: its status word is written once PROGRESS has grown by STATUS_STEP (R175). -/
def State.moved (s : State) (pos slot q : Nat) (c : Cmd) : State :=
  if c.st = 2 ∧ c.prog + s.statusStep pos ≤ c.progressWords (s.feedWords pos slot q) then s.keep pos slot q c stateRunning 0
  else s.setCmd pos slot q c

/-! ### Lanes (R25, R169) -/

/-- The part number of a neighbour lane: twice the position of its west or north end, plus 1 for a vertical one (R415,
R421). -/
def lanePart (pos far dir : Nat) : Nat :=
  match dir with
  | 1 => 2 * pos
  | 2 => 2 * far
  | 3 => 2 * far + 1
  | _ => 2 * pos + 1

/-- The tile at the far end of a lane: 1 east, 2 west, 3 north, 4 south. Spare positions repeat east and west (R25). -/
def State.laneEnd (s : State) (pos dir : Nat) : Option Nat :=
  let r := rowOf pos; let c := colOf pos
  let act (p : Nat) : Bool := s.inMesh p && !s.isSpare p
  match dir with
  | 1 => ((List.range (Config.cols s.config)).find? fun k => c < k && act (mkPos r k)).map (mkPos r)
  | 2 => ((List.range (Config.cols s.config)).reverse.find? fun k => k < c && act (mkPos r k)).map (mkPos r)
  | 3 => if 0 < r && act (mkPos (r - 1) c) then some (mkPos (r - 1) c) else none
  | 4 => if act (mkPos (r + 1) c) then some (mkPos (r + 1) c) else none
  | _ => none

/-- The far tile of a lane that is in service: a retired lane has none (R416). -/
def State.laneFar (s : State) (pos dir : Nat) : Option Nat :=
  (s.laneEnd pos dir).filter fun far => !s.flt.retired.contains (1, lanePart pos far dir)

/-- The side on which a lane's flits arrive: that of the receiver's lane toward the sender. -/
def laneBack (dir : Nat) : Nat :=
  match dir with
  | 1 => 2
  | 2 => 1
  | 3 => 4
  | _ => 3

/-- An NBR register as it reads (R169): offset order east, west, north, south. -/
def State.nbrRead (s : State) (pos i : Nat) : Word :=
  match s.laneFar pos (i + 1) with
  | some p => BitVec.ofNat 32 (2 ^ 31 + rowOf p * 2 ^ 10 + ((s.logical p).getD 0) * 2 ^ 5)
  | none => 0

/-! ### The checks at take (R162) -/

/-- The common header's checks: RSVD bits, START, TIMED with ARMED. -/
def headerOk (d : BitVec 512) : Bool :=
  descBits d 1 7 6 == 0 && descBits d 2 7 6 == 0 && descBits d 3 7 6 == 0 && descBits d 4 7 6 == 0 &&
  descBytes d 5 1 == 0 && !(dTimed d && dArmed d) &&
  (if dArmed d then descBytes d 10 6 == 0 else dTimed d || dStart d == 0)

/-- A LENGTH of the movers: a multiple of 32 from 32 to 1,048,576. -/
def lengthOk (n : Nat) : Bool := n % 32 == 0 && decide (32 ≤ n) && decide (n ≤ 1048576)

/-- Whether the local tray range of a mover command lies inside the allocation. -/
def State.localOk (s : State) (pos slot : Nat) (d : BitVec 512) : Bool :=
  let last := match dOp d with
    | 0x02 => (dRows d - 1) * dLocalStride d
    | 0x03 | 0x04 => (dRows d - 1) * dLen d
    | _ => 0
  decide (dLocal d < 2 ^ 20) && dLocal d % 32 == 0 && s.inAlloc pos slot (dLocal d + last) (dLen d)

/-- BAD_CMD checks of COPY, STRIDED, GATHER and SCATTER (R162, R163, R164). -/
def State.moverOk (s : State) (pos slot : Nat) (d : BitVec 512) : Bool :=
  let op := dOp d
  let indexed := op == opGATHER || op == opSCATTER
  headerOk d && decide (descBytes d 22 1 ≤ 1) && decide (dPktLog d ≤ 8) && lengthOk (dLen d) &&
  decide (dFar d < (if dVirtual d then 2 ^ 48 else 2 ^ 20)) && dFar d % 32 == 0 &&
  descBytes d 44 4 == 0 && descBytes d 60 4 == 0 &&
  (if op = opCOPY then descBytes d 48 12 == 0
   else dFarStride d % 32 == 0 && decide (1 ≤ dRows d) && decide (dRows d ≤ 65536) &&
     (if indexed then dLocalStride d % 4 == 0 && s.inAlloc pos slot (dLocalStride d) (4 * dRows d)
      else dLocalStride d % 32 == 0)) &&
  s.localOk pos slot d &&
  !(op == opGATHER && !dReads d) && !(op == opSCATTER && dReads d) &&
  (if dLane d = 0 then decide (dVc d ≤ 1)
   else decide (dLane d ≤ 4) && !dReads d && !dVirtual d && (s.laneFar pos (dLane d)).isSome)

/-- Whether a Tenant's command may name a destination (R150): an endpoint and a context. -/
def State.destOk (s : State) (pos slot peer ctx : Nat) : Bool :=
  let ep := BitVec.ofNat 32 peer
  !s.slotTenant pos slot ||
    (decide (adPort ep < 16) &&
      (if s.ownDie (dieOf ep) then s.jobOf ctx == some (s.slotJob pos slot) else s.slotXdie pos slot))

/-- PRIV checks of a mover unicast. -/
def State.moverPriv (s : State) (pos slot : Nat) (d : BitVec 512) : Bool :=
  if dLane d = 0 then
    s.slotVc pos slot (dVc d) && (dVirtual d || s.destOk pos slot (dPeer d) (dPeerCtx d))
  else
    !s.slotTenant pos slot || (match s.laneFar pos (dLane d) with
      | some p => (s.slotOfJob p (s.slotJob pos slot)).isSome
      | none => false)

/-- QUOTA checks (R155): a far read under RD_QUOTA 0, a virtual address under XC_QUOTA 0 or XEN 0. -/
def State.quotaOk (s : State) (pos slot : Nat) (d : BitVec 512) : Bool :=
  let w := s.ctxWord pos slot 6
  !(isRead d && fld w 11 0 == 0) && !(dVirtual d && (fld w 25 16 == 0 || !bit (s.ctxWord pos slot 4) 0))

/-- The code with which a mover unicast fails at take, 0 for none. -/
def State.moverCheck (s : State) (pos slot : Nat) (d : BitVec 512) : Nat :=
  if !s.moverOk pos slot d then stBAD_CMD
  else if !s.moverPriv pos slot d then stPRIV
  else if !s.quotaOk pos slot d then stQUOTA
  else 0

/-- The code with which an MCAST fails at take (R162, R165). -/
def State.mcastCheck (s : State) (pos slot : Nat) (d : BitVec 512) : Nat :=
  if !(headerOk d && descBits d 20 15 12 == 0 && descBits d 22 7 6 == 0 && decide (dPktLog d ≤ 8) &&
      lengthOk (dLen d) && decide (dFar d < 2 ^ 20) && dFar d % 32 == 0 && descBytes d 48 16 == 0 &&
      s.localOk pos slot d) then stBAD_CMD
  else if !(s.slotVc pos slot 3 && s.destOk pos slot (dPeer d) (dPeerCtx d)) then stPRIV
  else 0

/-- The code with which a WASH_WRITE fails at take (R165, R257). -/
def State.washCheck (s : State) (pos slot : Nat) (d : BitVec 512) : Nat :=
  if !(headerOk d && decide (dPeer d < 16) && descBytes d 20 4 == 0 && lengthOk (dLen d) && dLen d % 128 == 0 &&
      decide (dFar d < 2 ^ 20) && dFar d % 128 == 0 && descBytes d 44 20 == 0 && s.localOk pos slot d) then stBAD_CMD
  else 0

/-- The code with which a MSG_SEND or WELL_ADD fails at take (R162, R167). -/
def State.msgCheck (s : State) (pos slot : Nat) (d : BitVec 512) : Nat :=
  let n := descBytes d 32 4
  let well := dOp d == opWELL_ADD
  if !(headerOk d && descBits d 20 15 12 == 0 &&
      (if well then descBits d 23 7 4 == 0 && descBytes d 38 26 == 0 else descBytes d 23 1 == 0 && descBytes d 36 28 == 0) &&
      n % 32 == 0 && decide (32 ≤ n) && decide (n ≤ if well then 8192 else 4096) &&
      decide (dLocal d < 2 ^ 20) && dLocal d % 32 == 0 && s.inAlloc pos slot (dLocal d) n &&
      adPort (BitVec.ofNat 32 (dPeer d)) == 4) then stBAD_CMD
  else if !(s.slotVc pos slot 4 && s.destOk pos slot (dPeer d) (dPeerCtx d)) then stPRIV
  else 0

/-- The code with which a TRIGGER fails at take (R166, R172). -/
def State.triggerCheck (s : State) (pos slot : Nat) (d : BitVec 512) : Nat :=
  let ep := BitVec.ofNat 32 (dPeer d)
  if !(headerOk d && descBits d 22 7 1 == 0 && descBytes d 23 1 == 0 && descBytes d 32 32 == 0) then stBAD_CMD
  else if s.slotTenant pos slot && (decide (16 ≤ adPort ep) || (!s.ownDie (dieOf ep) && !s.slotXdie pos slot)) then stPRIV
  else 0

/-! ### Sketch flits -/

/-- A sketch flit leaves an endpoint of a position into its sketch router. -/
def State.sketchSend (s : State) (pos : Nat) (f : SFlit) : State :=
  { s with sketch := { s.sketch with links := s.sketch.links ++ [(pos, f)] } }

/-- The ARM_TRIG of a TRIGGER command (R172). -/
def State.armTrigOf (s : State) (pos slot : Nat) (d : BitVec 512) : SFlit :=
  { dest := BitVec.ofNat 32 (dPeer d), src := s.tileEndpoint pos 3, kvc := 0, stype := 3
    ctx := BitVec.ofNat 12 (s.slotCtx pos slot), tag := BitVec.ofNat 16 (descBytes d 20 2)
    priv := if s.slotTenant pos slot then 0 else 1
    body := BitVec.ofNat 256 (dLocal d + descBits d 22 0 0 * 2 ^ 64) }

/-! ### Save records (R183 to R186) -/

/-- CHECK: XOR of the entry's 32 halfwords. -/
def entryCheck (d : BitVec 512) : Nat := (List.range 32).foldl (fun n i => n ^^^ descBytes d (2 * i) 2) 0

/-- ISSUED of a save record. -/
def Cmd.issuedUnits (c : Cmd) : Nat :=
  match c.coll with
  | some k => k.sent
  | none => if dOp c.desc = opGATHER ∨ dOp c.desc = opSCATTER then c.issued / max 1 (rowWords c.desc) else c.issued

/-- The AGENT field of a save record (R254): STEP, the deadline of the earliest step begun, and the generation. -/
def Cmd.agentField (c : Cmd) : Nat :=
  match c.coll with
  | some k =>
    let dl := match k.due with | [] => 0 | (_, d) :: _ => d - 1
    k.sent % 2 ^ 28 + dl % 65536 * 2 ^ 28 + k.gen % 1024 * 2 ^ 44
  | none => 0

/-- The 64 bytes of a save record (R184), with the status word as it stands at the save. -/
def Cmd.record (c : Cmd) (st code : Nat) : BitVec 512 :=
  let landed := if isRead c.desc then
      (if dOp c.desc = opGATHER then c.landed / max 1 (rowWords c.desc) else c.landed) else c.issuedUnits
  let w := max 1 (rowWords c.desc)
  let row := match c.coll with | some _ => 0 | none => c.issued / w + c.issued % w * 2 ^ 32
  BitVec.ofNat 512 (statusWord st code c.progress + c.entry * 2 ^ 64 + entryCheck c.desc * 2 ^ 80 +
    dOp c.desc * 2 ^ 96 + c.kind * 2 ^ 104 + c.issuedUnits * 2 ^ 128 + landed * 2 ^ 192 + c.va * 2 ^ 256 +
    row * 2 ^ 320 + c.agentField * 2 ^ 384)

/-- Physical offset of an engine's save record. -/
def State.recordAt (s : State) (pos slot q : Nat) : Nat :=
  s.allocBase pos slot + 256 * fld (s.ctxWord pos slot 3) 11 0 + 64 * q

/-- A save record is written as two whole words; whether it failed: an Off or retired bank, or an uncorrectable word
under it (R186). -/
def State.saveRecord (s : State) (pos slot q : Nat) (c : Cmd) (st code : Nat) : Bool × State :=
  let k := s.recordAt pos slot q / 32
  let bad := s.wordDecode pos k == .uncorrectable || s.wordDecode pos (k + 1) == .uncorrectable
  let r := s.landBytes pos (32 * k) swNone (s.slotCtx pos slot) (bytesOf 64 (c.record st code).toNat)
  (bad || r.1, r.2.chargeWords pos (some slot) 2)

/-- PREEMPT_STAT.BUSY with a slot being pre-empted. -/
def State.preempting (s : State) (pos slot : Nat) : Bool :=
  bit (s.reg (tileA pos Reg.PREEMPT_STAT)) 31 && fld (s.reg (tileA pos Reg.PREEMPT_CTRL)) 5 0 == slot

/-- The state with SAVED[q] set. -/
def State.setSaved (s : State) (pos q : Nat) : State := s.setRegF (tileA pos Reg.PREEMPT_STAT) q q 1

/-- An engine saves its command and writes PAUSED with a code; a failed save ends the command with DATA_LOSS (R186). -/
def State.savePaused (s : State) (pos slot q : Nat) (c : Cmd) (code : Nat) : State :=
  let st := if c.st = 1 then stateQueued else stateRunning
  let (failed, s) := s.saveRecord pos slot q c st 0
  let s := s.when (s.preempting pos slot) fun t => t.setSaved pos q
  if failed then
    (s.setRegF (tileA pos Reg.PREEMPT_STAT) 30 30 1).setCmd pos slot q { c with stop := stDATA_LOSS }
  else s.keep pos slot q { c with st := 3, why := code } statePaused code

/-! ### Translation (R178 to R182) -/

/-- The leaf that translates an address for a context at a position. -/
def State.tlbFind (s : State) (pos ctx va : Nat) : Option TlbEntry :=
  (s.eng.tlb.get [] pos).find? fun e => e.ctx == ctx && decide (e.page ≤ va) && decide (va < e.page + 2 ^ e.bits)

/-- An entry that is used becomes the most recently used. -/
def State.tlbTouch (s : State) (pos : Nat) (e : TlbEntry) : State :=
  { s with eng := { s.eng with tlb := s.eng.tlb.set [] pos (e :: (s.eng.tlb.get [] pos).erase e) } }

/-- A page is filled: a context at its quota replaces its own least recently used entry, otherwise the cache of 512
replaces its least recently used one (R180). -/
def State.tlbFill (s : State) (pos quota : Nat) (e : TlbEntry) : State :=
  let l := s.eng.tlb.get [] pos
  let own := l.filter fun x => x.ctx == e.ctx
  let l := if quota ≤ own.length then (match own.getLast? with | some x => l.erase x | none => l)
    else if 512 ≤ l.length then l.dropLast else l
  { s with eng := { s.eng with tlb := s.eng.tlb.set [] pos (e :: l) } }

/-- R and W of a leaf. -/
def leafAllows (leaf : BitVec 64) (write : Bool) : Bool := leaf.toNat.testBit (if write then 3 else 2)
/-- PORT of a table entry. -/
def entPort (e : BitVec 64) : Nat := bitsOf e.toNat 8 4
/-- ADDR of a table entry. -/
def entAddr (e : BitVec 64) : Nat := bitsOf e.toNat 47 12 * 4096

/-- Whether a table entry is malformed at a level (R179). -/
def entMalformed (level : Nat) (e : BitVec 64) : Bool :=
  let n := e.toNat
  let leaf := n.testBit 1
  bitsOf n 63 48 != 0 || bitsOf n 11 9 != 0 || (leaf && decide (level ≤ 2)) || (!leaf && level == 4) ||
    (leaf && level == 3 && bitsOf n 20 12 != 0) || (leaf && level == 4 && bitsOf n 15 12 != 0)

/-- The index of an address at a level (R178). -/
def vaIndex (level va : Nat) : Nat :=
  match level with
  | 1 => bitsOf va 47 39
  | 2 => bitsOf va 38 30
  | 3 => bitsOf va 29 21
  | _ => bitsOf va 20 16

/-- The walk after an entry was read (R178, R179, R182). -/
def Walk.advance (w : Walk) (ports : Nat) (write : Bool) (e : BitVec 64) : Walk :=
  let w := { w with asked := false }
  if !e.toNat.testBit 0 then { w with kind := 1 }
  else if entMalformed w.level e then { w with kind := 3 }
  else if ports ≤ entPort e then { w with kind := 4 }
  else if e.toNat.testBit 1 then
    if leafAllows e write then { w with kind := 7, leaf := e } else { w with kind := 2 }
  else { w with level := w.level + 1, port := entPort e, addr := entAddr e + 8 * vaIndex (w.level + 1) w.va }

/-- The walk of a chunk begins at the level-1 table of the context record (R178). -/
def State.walkStart (s : State) (pos slot va : Nat) : Walk :=
  let w4 := s.ctxWord pos slot 4
  let root := fld (s.ctxWord pos slot 5) 15 0 * 2 ^ 32 + fld w4 31 12 * 4096
  let port := fld w4 8 4
  { va := va, level := 1, port := port, addr := root + 8 * vaIndex 1 va, asked := false
    kind := if !bit w4 0 then 6 else if Config.mports s.config ≤ port then 4 else 0, leaf := 0 }

/-- The router and side of a memory port's half for a row parity (R49, R470). -/
def State.memSite (s : State) (k parity : Nat) : Option (Nat × Nat) :=
  ((Config.edgeSites s.config).find? fun x => Config.edgePort s.config x.1 x.2.1 x.2.2 == .memory k parity).map
    fun x => (mkPos x.1 x.2.1, x.2.2)

/-- The endpoint of a memory port, at the router whose row has a tile's parity (R164). -/
def State.memEndpoint (s : State) (pos k : Nat) : BitVec 32 :=
  match s.memSite k (rowOf pos % 2) with
  | some (p, side) => s.physEndpoint p (16 + side)
  | none => s.physEndpoint pos 31

/-- RD_QUOTA leaves room for one more read (R155). -/
def State.rdRoom (s : State) (pos slot : Nat) : Bool := decide (s.rdOutOf pos slot < fld (s.ctxWord pos slot 6) 11 0)
/-- The state with RD_OUT changed. -/
def State.rdAdd (s : State) (pos slot : Nat) : State :=
  { s with eng := { s.eng with rdOut := s.eng.rdOut.set 0 (64 * pos + slot) (s.rdOutOf pos slot + 1) } }
/-- The state with one read fewer outstanding. -/
def State.rdSub (s : State) (pos slot : Nat) : State :=
  { s with eng := { s.eng with rdOut := s.eng.rdOut.set 0 (64 * pos + slot) (s.rdOutOf pos slot - 1) } }

/-- The walker's READ_REQ: one word on VC1 under context 0 with SEQ 0 (R154, R180). -/
def State.walkRead (s : State) (pos slot q : Nat) (w : Walk) : Pkt :=
  { Pkt.zero with
    dest := s.memEndpoint pos w.port
    src := s.tileEndpoint pos 0
    vc := 1
    ty := BitVec.ofNat 4 tyREAD_REQ
    tag := BitVec.ofNat 16 (engineTag slot q)
    tw := BitVec.ofNat 64 (w.addr / 32 * 32)
    payload := [0] }

/-- Walks running at a position: at most 4 (R180). -/
def State.walksAt (s : State) (pos : Nat) : Nat :=
  (s.eng.cmds.filter fun kc => kc.1 / 256 == pos &&
    (match kc.2.walk with | some w => w.asked | none => false)).length

/-- A command whose chunk awaits translation goes on with its walk: the next entry is asked for once a walker and
RD_QUOTA are free (R155, R180). -/
def State.walkOn (s : State) (pos slot q : Nat) (c : Cmd) (va : Nat) : State :=
  let w := match c.walk with | some w => w | none => s.walkStart pos slot va
  if w.kind ≠ 0 ∨ w.asked ∨ 4 ≤ s.walksAt pos ∨ !s.rdRoom pos slot then s.setCmd pos slot q { c with walk := some w }
  else ((s.pushAnswer pos 0 (s.walkRead pos slot q w)).rdAdd pos slot).setCmd pos slot q
    { c with walk := some { w with asked := true } }

/-- A failed translation: the mover saves its state and writes PAUSED with XLATE_FAULT (R182). -/
def State.xlateFault (s : State) (pos slot q : Nat) (c : Cmd) (kind va : Nat) : State :=
  let c := { c with walk := none, kind := kind, va := va }
  (s.savePaused pos slot q c stXLATE_FAULT).raise Src.XLATE_FAULT pos .tilePort q (s.slotCtx pos slot) va (kind + 16 * q)

/-- XLATE_WALK_DONE: a walk that found a leaf fills the cache, one that failed faults (R180, R182). -/
def State.walkDone (s : State) (pos slot q : Nat) : State :=
  match s.cmd? pos slot q with
  | none => s
  | some c =>
    match c.walk with
    | none => s
    | some w =>
      if w.kind = 0 ∨ w.asked then s
      else if w.kind = 7 then
        let bits := if w.level = 3 then 21 else 16
        let e : TlbEntry := ⟨s.slotCtx pos slot, w.va / 2 ^ bits * 2 ^ bits, bits, w.leaf⟩
        (s.tlbFill pos (fld (s.ctxWord pos slot 6) 25 16) e).setCmd pos slot q { c with walk := none }
      else s.xlateFault pos slot q c w.kind w.va

/-- XLATE_WALK_DONE (R180). -/
def execXlateWalkDone (pos : Pos) (slot q : Nat) (s : State) : Out := done (s.when (!s.stopped) fun t => t.walkDone pos slot q)

end Sys2Proof.Machine
end

