-- ==== Sys2Proof/Machine/Record.lean ====
section
/-! DEFINITION. Collective records: their byte layout (R242, R348) and where the die keeps them. -/
namespace Sys2Proof.Machine

/-- A reducer entry of a sub-tree. -/
structure RedEnt where
  pos    : Nat
  mode   : Nat
  expect : Nat
deriving DecidableEq, Repr

/-- A role entry of a sub-tree: 1 SUBROOT, 2 DISTRIBUTOR, with its targets (endpoint, member die) (R316). -/
structure RoleEnt where
  pos     : Nat
  role    : Nat
  targets : List (BitVec 32 × Bool)
deriving DecidableEq, Repr

/-- A sub-tree. -/
structure SubTree where
  root  : Nat
  reds  : List RedEnt
  roles : List RoleEnt
deriving DecidableEq, Repr

/-- A distribution entry. -/
structure DistEnt where
  dest  : BitVec 32
  mask  : Word
  rmask : Word
  sub   : Nat
  relay : Bool
  mcCol : Bool
  sel   : Nat
deriving DecidableEq, Repr

/-- A barrier entry. -/
structure BarEnt where
  pos    : Nat
  parent : Nat
  child  : Nat
  root   : Bool
  expect : Nat
deriving DecidableEq, Repr

/-- A ring entry. -/
structure RingEnt where
  me   : Nat
  next : Nat
  prev : Nat
  lane : Nat
deriving DecidableEq, Repr

/-- A collective record. -/
structure CollRec where
  members : List (BitVec 32)
  subs    : List SubTree
  dist    : List DistEnt
  bars    : List BarEnt
  ring    : List RingEnt
deriving DecidableEq, Repr

/-- `n` bytes at an offset of a payload as a number; none past its end. -/
def numAt (b : List Byte) (off n : Nat) : Option Nat :=
  if off + n ≤ b.length then some (ofBytes ((b.drop off).take n)) else none

/-- Consecutive entries of `size` bytes, as numbers. -/
def entriesAt (b : List Byte) (off size : Nat) : (n : Nat) → Option (List Nat)
  | 0 => some []
  | n + 1 =>
    match numAt b off size, entriesAt b (off + size) size n with
    | some x, some xs => some (x :: xs)
    | _, _ => none

/-- The position that ROW [4:0] and COL [9:5] of an entry name. -/
def entPos (n : Nat) : Nat := mkPos (bitsOf n 4 0) (bitsOf n 9 5)

/-- A reducer entry (R348). -/
def redEntOf (n : Nat) : Option RedEnt :=
  let e : RedEnt := ⟨entPos n, bitsOf n 11 10, bitsOf n 52 32⟩
  if e.mode < 3 ∧ 1 ≤ e.expect ∧ e.expect ≤ 1048576 then some e else none

/-- A role entry with its targets (R348). -/
def roleEntOf (b : List Byte) (n : Nat) : Option RoleEnt :=
  let role := bitsOf n 11 10
  let count := bitsOf n 18 12
  if (role = 1 ∨ role = 2) ∧ 1 ≤ count ∧ count ≤ 64 then
    (entriesAt b (bitsOf n 63 32) 8 count).map fun ts =>
      ⟨entPos n, role, ts.map fun t => (BitVec.ofNat 32 t, t.testBit 32)⟩
  else none

/-- The sub-tree section from an offset (R348). -/
def subsOf (b : List Byte) : (n off : Nat) → Option (List SubTree)
  | 0, _ => some []
  | n + 1, off =>
    match numAt b off 8 with
    | none => none
    | some h =>
      let nRed := bitsOf h 47 32
      let nRole := bitsOf h 63 48
      match entriesAt b (off + 8) 8 nRed, entriesAt b (off + 8 + 8 * nRed) 8 nRole,
          subsOf b n (off + 8 + 8 * nRed + 8 * nRole) with
      | some rs, some ros, some rest =>
        match rs.mapM redEntOf, ros.mapM (roleEntOf b) with
        | some reds, some roles => some (⟨h % 2 ^ 32, reds, roles⟩ :: rest)
        | _, _ => none
      | _, _, _ => none

/-- A distribution entry (R348). -/
def distEntOf (n : Nat) : DistEnt :=
  ⟨BitVec.ofNat 32 n, BitVec.ofNat 32 (n / 2 ^ 32), BitVec.ofNat 32 (n / 2 ^ 64), bitsOf n 99 96, n.testBit 100,
    n.testBit 101, bitsOf n 107 104⟩

/-- A barrier entry (R348). -/
def barEntOf (n : Nat) : Option BarEnt :=
  let e : BarEnt := ⟨entPos n, bitsOf n 13 10, bitsOf n 22 14, n.testBit 23, bitsOf n 44 24⟩
  if 1 ≤ e.expect ∧ e.expect ≤ 1048576 ∧ e.parent ≤ 8 then some e else none

/-- A ring entry (R348). -/
def ringEntOf (n : Nat) : RingEnt := ⟨bitsOf n 19 0, bitsOf n 39 20, bitsOf n 59 40, bitsOf n 62 60⟩

/-- A COLLECTIVE payload as a record; none where a section runs past its end or a value lies outside its range (R348). -/
def parseRecord (b : List Byte) : Option CollRec :=
  match numAt b 0 4, numAt b 4 1, entriesAt b 8 4 5, numAt b 28 2 with
  | some members, some nsub, some [oSub, oDist, oBar, oRing, nDist], some nBar =>
    if members = 0 ∨ 1048576 < members ∨ nsub = 0 ∨ 16 < nsub then none
    else
      let ring : Option (List Nat) :=
        if oRing = 0 then some []
        else match numAt b oRing 4 with
          | some n => entriesAt b (oRing + 4) 8 n
          | none => none
      match entriesAt b 32 4 members, subsOf b nsub oSub, entriesAt b oDist 16 nDist, entriesAt b oBar 8 nBar, ring with
      | some ms, some subs, some ds, some bs, some rs =>
        match bs.mapM barEntOf with
        | some bars =>
          if subs.any (fun t => decide (members ≤ t.root)) || ds.any (fun d => decide (nsub ≤ bitsOf d 99 96)) then none
          else some ⟨ms.map (BitVec.ofNat 32), subs, ds.map distEntOf, bars, rs.map ringEntOf⟩
        | none => none
      | _, _, _, _, _ => none
  | _, _, _, _ => none

/-- The bytes of a record as the trays hold them (R348). -/
def State.recordBytes (s : State) (tree : Nat) : List Byte :=
  (s.eng.records.get [] tree).flatMap fun f => s.trayBytes f.1 f.2.1 f.2.2

/-- A collective record of the canvas; none where TREE names none. -/
def State.collRec (s : State) (tree : Nat) : Option CollRec := parseRecord (s.recordBytes tree)

/-- The position of a member on this die, where it is here. -/
def State.memberPos (s : State) (ep : BitVec 32) : Option Nat :=
  if s.ownDie (dieOf ep) then (s.physical (adRow ep) (adCol ep)).map fun c => mkPos (adRow ep) c else none

/-- Whether a record spans dies. -/
def State.spansDies (s : State) (r : CollRec) : Bool := r.members.any fun m => !s.ownDie (dieOf m)

end Sys2Proof.Machine
end

