-- ==== Sys2Proof/Machine/Reducer.lean ====
section
/-! DEFINITION. The reducers: tree entries, slots, merging, emission, flushes and aborts (R231 to R241). -/
namespace Sys2Proof.Machine

/-- A tree entry of a reducer (R241). -/
def redEntA (pos r : Nat) : RegAddr := ⟨64, pos, Reg.W_RED_TREE r⟩
/-- A tree entry's latched signature. -/
def redSigA (pos r : Nat) : RegAddr := ⟨64, pos, Reg.W_RED_SIG r⟩
/-- A register of the reducer itself. -/
def redA (pos off : Nat) : RegAddr := ⟨64, pos, off⟩

/-- The reduction index of a PARTIAL: TAG[15:10] (R231). -/
def redIndex (tag : BitVec 16) : Nat := bitsOf tag.toNat 15 10
/-- MODE of an entry. -/
def redMode (e : Word) : AccMode := accModeOf (fld e 30 29)
/-- Elements of a slot group: 16, or 32 in compact mode (R232). -/
def groupSize (m : AccMode) : Nat := match m with | .compact => 32 | _ => 16
/-- Units of ELEM_OFFSET (16 elements) in a slot group. -/
def groupUnits (m : AccMode) : Nat := groupSize m / 16

/-- ELEM_OFFSET of a PARTIAL. -/
def elemOffset (p : Pkt) : Nat := p.tword 47 32
/-- FMT of a PARTIAL. -/
def partialFmt (p : Pkt) : Nat := p.tword 51 48
/-- OP of a PARTIAL. -/
def partialOp (p : Pkt) : Nat := p.tword 54 52
/-- SIGNATURE of a PARTIAL. -/
def partialSig (p : Pkt) : Nat := p.tword 31 0
/-- CONTRIB of a PARTIAL. -/
def contrib (p : Pkt) : Nat := bitsOf p.mask.toNat 20 0

/-- Whether a flit starts on a whole flit of its own format (R232). -/
def offsetOk (p : Pkt) : Bool := elemOffset p % max 1 (fmtPerFlit (partialFmt p) / 16) == 0

/-- The elements of a PARTIAL's 128 B, in slot groups: first unit of the group and its accumulator words (R232). -/
def partialGroups (m : AccMode) (p : Pkt) : List (Nat × List (BitVec 64)) :=
  let es := (elemsOf (partialFmt p) (p.payload.flatMap wordBytes)).map (accOf m (partialFmt p))
  let g := groupSize m
  (List.range (es.length / g)).map fun j => (elemOffset p + groupUnits m * j, (es.drop (g * j)).take g)

/-- The slots of a position. -/
def State.slotsAt (s : State) (pos : Nat) : List (Nat × RedSlot) := s.redSlots.filter fun kv => kv.1 / 32 == pos
/-- The slot with a key, if one is held. -/
def State.slotFor (s : State) (pos : Nat) (tag : BitVec 16) (group : Nat) : Option (Nat × RedSlot) :=
  (s.slotsAt pos).find? fun kv => kv.2.tag == tag && kv.2.group == group
/-- A free slot's key. -/
def State.freeSlot (s : State) (pos : Nat) : Option Nat :=
  ((List.range 32).map fun i => 32 * pos + i).find? fun k => (s.redSlots.find? k).isNone
/-- The state with a slot held. -/
def State.putSlot (s : State) (k : Nat) (v : RedSlot) : State := { s with redSlots := s.redSlots.put k v }
/-- The state with a slot free. -/
def State.delSlot (s : State) (k : Nat) : State := { s with redSlots := s.redSlots.del k }

/-- A packet waits at router input 13, with the input sides it absorbed (R78, R234). -/
def State.feedReducer (s : State) (pos : Nat) (sides : List Nat) (p : Pkt) : State :=
  let b := s.vcb pos 13 2
  let flits := (List.range p.flits).map fun i => (⟨p, i, false⟩ : Flit)
  let s := { s with mesh := { s.mesh with redOut := s.mesh.redOut.set [] pos (s.mesh.redOut.get [] pos ++ [sides]) } }
  s.setVcb pos 13 2 ({ b with feed := b.feed ++ flits }.settle (s.onOff pos))

/-- The PARTIAL that a slot leaves as (R234). -/
def slotPacket (m : AccMode) (v : RedSlot) : Pkt :=
  let bytes := match m with
    | .compact => v.acc.flatMap fun w => bytesOf 4 w.toNat
    | _ => v.acc.flatMap fun w => bytesOf 8 w.toNat
  let fmt := match m with | .compact => 0 | _ => 7
  let tw := v.first.tw.toNat
  { v.first with
    deadline := v.deadline
    mask := BitVec.ofNat 32 v.count
    cmplReq := false
    len := 0
    lastw := 3
    tw := BitVec.ofNat 64 (tw % 2 ^ 32 + v.group * 2 ^ 32 + fmt * 2 ^ 48 + bitsOf tw 63 52 * 2 ^ 52)
    payload := bytesWords 4 bytes }

/-- A slot is emitted and freed (R234, R235). -/
def State.slotEmit (s : State) (pos k : Nat) (v : RedSlot) : State :=
  let m := redMode (s.reg (redEntA pos (redIndex v.tag)))
  (s.delSlot k).feedReducer pos v.sides (slotPacket m v)

/-- A slot is flushed: counted, FLUSHED set, emitted with its partial count (R235). -/
def State.slotFlush (s : State) (pos k : Nat) (v : RedSlot) : State :=
  let s := s.count (redA pos Reg.W_RED_FLUSH) 1
  (s.setRegF (redA pos Reg.W_RED_STAT) 0 0 1).slotEmit pos k v

/-- Every slot of a reduction is flushed (R240). -/
def State.flushAll (s : State) (pos r : Nat) : State :=
  ((s.slotsAt pos).filter fun kv => redIndex kv.2.tag == r).foldl (fun t kv => t.slotFlush pos kv.1 kv.2) s

/-- The more urgent of two deadlines: the smaller in signed 16-bit difference (R98, R137). -/
def urgentDl (a b : BitVec 16) : BitVec 16 := if signed 16 (a.toNat + 65536 - b.toNat) ≤ 0 then a else b

/-- Merges two element lists under OP; how many merges overflowed (R219 to R224). -/
def mergeElems (m : AccMode) (op : Nat) (a b : List (BitVec 64)) : List (BitVec 64) × Nat :=
  let r := (a.zip b).map fun x => accMerge m op x.1 x.2
  (r.map (·.1), (r.filter (·.2)).length)

/-- One group of an arriving flit goes into its slot (R233). -/
def State.slotMerge (s : State) (pos : Nat) (m : AccMode) (p : Pkt) (sides : List Nat) (g : Nat × List (BitVec 64)) :
    State :=
  let found := s.slotFor pos p.tag g.1
  let key := match found with | some kv => some kv.1 | none => s.freeSlot pos
  let op := partialOp p
  let old : RedSlot := match found with
    | some kv => kv.2
    | none => { tag := p.tag, group := g.1, first := p, acc := g.2.map (accIdentity op), count := 0, sides := []
                deadline := p.deadline, born := s.cycle }
  match key with
  | none => s
  | some k =>
    let (acc, ovf) := if found.isNone && (op == 2 || op == 3) then (g.2, 0) else mergeElems m op old.acc g.2
    let v := { old with
      acc := acc
      count := old.count + contrib p
      deadline := urgentDl old.deadline p.deadline
      sides := (old.sides ++ sides).eraseDups }
    let s := s.when (ovf != 0) fun t =>
      (t.count (redA pos Reg.W_RED_OVF) ovf).setRegF (redA pos Reg.W_RED_STAT) 1 1 1
    if v.count = fld (s.reg (redEntA pos (redIndex p.tag))) 20 0 then s.slotEmit pos k v else s.putSlot k v

/-- An abort of a reduction at its reducer (R237): bit 2 MISMATCH or bit 3 OVERCOUNT of RED_STAT. -/
def State.redAbort (s : State) (pos : Nat) (p : Pkt) (flag : Nat) : State :=
  let r := redIndex p.tag
  let first := !bit (s.reg (redA pos Reg.W_RED_STAT)) 2
  let gone := (s.slotsAt pos).filter fun kv => redIndex kv.2.tag == r
  let s := gone.foldl (fun t kv => t.delSlot kv.1) s
  let s := s.setRegF (redEntA pos r) 27 27 1
  let s := s.setRegF (redA pos Reg.W_RED_STAT) flag flag 1
  let s := s.when first fun t => t.setReg (redA pos Reg.W_RED_MSIG) (BitVec.ofNat 32 (partialSig p))
  s.raise Src.RED_SIG pos .reducer 0 p.ctx.toNat ((s.reg (redSigA pos r)).toNat + partialSig p * 2 ^ 32) p.tag.toNat

/-- The cause, if any, for which an arriving flit aborts its reduction, in R237's order: the RED_STAT bit. -/
def State.redCause (s : State) (pos : Nat) (p : Pkt) : Option Nat :=
  let e := s.reg (redEntA pos (redIndex p.tag))
  let m := redMode e
  let slots := (partialGroups m p).filterMap fun g => s.slotFor pos p.tag g.1
  if bit e 28 && (s.reg (redSigA pos (redIndex p.tag))).toNat != partialSig p then some 2
  else if slots.any fun kv => partialOp kv.2.first != partialOp p then some 2
  else if !modeTakes m (partialFmt p) then some 2
  else if (slots.any fun kv => decide (fld e 20 0 < kv.2.count + contrib p)) || decide (fld e 20 0 < contrib p) then some 3
  else none

/-- Whether the reducer can allocate all of a flit's missing slots at once (R233). -/
def State.redRoom (s : State) (pos : Nat) (m : AccMode) (p : Pkt) : Bool :=
  let missing := ((partialGroups m p).filter fun g => (s.slotFor pos p.tag g.1).isNone).length
  decide ((s.slotsAt pos).length + missing ≤ 32)

/-- The packet leaves the reducer's input, and the input side by which it came (R78). -/
def State.takeReducer (s : State) (pos : Nat) (p : Pkt) : List Nat × State :=
  let l := s.mesh.intake.get [] (32 * pos + 13)
  let i := l.findIdx (· == p)
  if i < l.length then
    let ins := s.mesh.redIn.get [] pos
    let side := match ins[i]? with | some x => [x] | none => []
    (side, { s.takeIntake pos 13 p with
      mesh := { (s.takeIntake pos 13 p).mesh with redIn := s.mesh.redIn.set [] pos (ins.eraseIdx i) } })
  else ([], s)

/-- A PARTIAL reaches a reducer (R231, R233, R236, R237, R240). -/
def State.redArrive (s : State) (pos : Nat) (p : Pkt) : State :=
  let r := redIndex p.tag
  let e := s.reg (redEntA pos r)
  let (sides, t) := s.takeReducer pos p
  if !bit e 31 || s.flt.retired.contains (5, pos) then t.feedReducer pos sides p
  else if bit e 27 then t.count (rtrA pos Reg.DISC_BAD_CNT) 1
  else if !opFmtOk (partialOp p) (partialFmt p) || decide (7 < partialFmt p) || !offsetOk p then t.discardBad pos 31 p
  else match s.redCause pos p with
    | some flag => (t.redAbort pos p flag).count (rtrA pos Reg.DISC_BAD_CNT) 1
    | none =>
      if !s.redRoom pos (redMode e) p then s
      else
        let t := t.when (!bit e 28) fun u =>
          (u.setRegF (redEntA pos r) 28 28 1).setReg (redSigA pos r) (BitVec.ofNat 32 (partialSig p))
        (partialGroups (redMode e) p).foldl (fun u g => u.slotMerge pos (redMode e) p sides g) t

/-- PARTIAL (R233). -/
def execPartialPkt (pos : Pos) (pkt : Pkt) (s : State) : Out :=
  done (s.when (s.inMesh pos && pkt.ty.toNat == tyPARTIAL && !s.stopped) fun t => t.redArrive pos pkt)

/-- FLUSH_LIMIT of a reducer in cycles: 0 acts as 1 (R241). -/
def State.flushLimit (s : State) (pos : Nat) : Nat := 64 * max 1 (fld (s.reg (redA pos Reg.W_RED_CFG)) 15 0)

/-- A slot older than FLUSH_LIMIT is emitted (R235). -/
def State.redFlush (s : State) (pos slot : Nat) : State :=
  match s.redSlots.find? (32 * pos + slot) with
  | some v => if v.born + s.flushLimit pos ≤ s.cycle then s.slotFlush pos (32 * pos + slot) v else s
  | none => s

/-- REDUCER_FLUSH (R235). -/
def execReducerFlush (pos : Pos) (slot : Nat) (s : State) : Out :=
  done (s.when (!s.stopped && decide (slot < 32)) fun t => t.redFlush pos slot)

/-- A write of a tree entry (R240, R241): held slots are flushed first; VALID = 1 clears the abort state and the
latched signature; MODE 0b11 or an EXPECT outside its range leaves VALID at 0. -/
def State.redTreeWrite (s : State) (pos r : Nat) (data : Word) : State :=
  let a := redEntA pos r
  let s := s.flushAll pos r
  let ex := fld data 20 0
  let body := data &&& 0xE01FFFFF
  if bit data 31 then
    if fld data 30 29 = 3 ∨ ex = 0 ∨ 1048576 < ex then (s.setReg a (setBit body 31 false)).cfgNote (dieA Reg.RED_TREE)
    else (s.setReg a body).setReg (redSigA pos r) 0
  else s.setReg a (body ||| (s.reg a &&& 0x18000000))

/-- The position that RED_SEL names. -/
def State.redSelPos (s : State) : Nat := mkPos (s.dieF Reg.RED_SEL 25 21) (s.dieF Reg.RED_SEL 20 16)

/-- A write through the RED_TREE window; a RED_SEL that names no router makes it ignored (R241). -/
def State.redTreeWindow (s : State) (data : Word) : State :=
  if s.inMesh s.redSelPos then s.redTreeWrite s.redSelPos (s.dieF Reg.RED_SEL 5 0) data else s

/-- RED_TREE_ENABLE (R240). -/
def execRedTreeEnable (acc : Access) (data : Word) (s : State) : Out :=
  done (guardedWrite acc (dieA Reg.RED_TREE) (fun t => t.redTreeWindow (setBit data 31 true)) s)

/-- RED_TREE_DISABLE (R240). -/
def execRedTreeDisable (acc : Access) (data : Word) (s : State) : Out :=
  done (guardedWrite acc (dieA Reg.RED_TREE) (fun t => t.redTreeWindow (setBit data 31 false)) s)

end Sys2Proof.Machine
end

