-- ==== Sys2Proof/Machine/Agent.lean ====
section
/-! DEFINITION. The collective agent: command fields (R246, R248), chunks (R250), the checks at take (R245, R253),
staging and distribution (R252), arrivals, steps (R251) and the spine roles (R316 to R318). -/
namespace Sys2Proof.Machine

/-! ### Fields of a collective command (R166, R246) -/

/-- ROOT. -/
def cRoot (d : BitVec 512) : Nat := descBytes d 20 2
/-- FMT. -/
def cFmt (d : BitVec 512) : Nat := descBits d 22 3 0
/-- OP. -/
def cOp (d : BitVec 512) : Nat := descBits d 22 6 4
/-- COMPACT. -/
def cCompact (d : BitVec 512) : Bool := descBits d 22 7 7 == 1
/-- 2^CHUNK_LOG. -/
def cChunk (d : BitVec 512) : Nat := 2 ^ descBytes d 23 1
/-- MEMBERS. -/
def cMembers (d : BitVec 512) : Nat := descBytes d 44 2
/-- STEP_DL. -/
def cStepDl (d : BitVec 512) : Nat := descBytes d 48 4
/-- OUT_FMT. -/
def cOutFmt (d : BitVec 512) : Nat := descBits d 52 3 0
/-- SCHED. -/
def cSched (d : BitVec 512) : Bool := descBits d 52 4 4 == 1
/-- WASH. -/
def cWash (d : BitVec 512) : Bool := dOp d == opBROADCAST && descBits d 52 5 5 == 1
/-- CONFIRM. -/
def cConfirm (d : BitVec 512) : Bool := descBits d 52 6 6 == 1
/-- DEPTH: 0 acts as 4. -/
def cDepth (d : BitVec 512) : Nat := let n := descBits d 53 3 0; if n = 0 then 4 else n
/-- Whether a command reduces. -/
def cReduces (d : BitVec 512) : Bool := dOp d == opALLREDUCE || dOp d == opREDUCE_SCATTER
/-- NROOT. -/
def cNroot (d : BitVec 512) : Nat := if cReduces d then descBits d 53 7 4 + 1 else 1
/-- STAGE_OFF or ACK_OFF. -/
def cStage (d : BitVec 512) : Nat := descBytes d 56 4
/-- The accumulation of the staging (R222, R224, R252). -/
def cMode (d : BitVec 512) : AccMode :=
  if fmtInt (cFmt d) then .integer else if cCompact d then .compact else .carry
/-- Bytes of an output element. -/
def cOutSize (d : BitVec 512) : Nat := if cReduces d then fmtBytes (cOutFmt d) else fmtBytes (cFmt d)

/-- The signature of R248. -/
def signatureOf (d : BitVec 512) : Word :=
  let op := bytesOf 1 (dOp d)
  let out := if cReduces d then descBits d 52 3 0 else 0
  crc32c (bytesOf 4 (dPeer d) ++ op ++ bytesOf 1 (descBytes d 22 1) ++ bytesOf 1 out ++ bytesOf 1 0 ++ bytesOf 4 (dLen d) ++
    bytesOf 2 (cRoot d) ++ bytesOf 2 (cMembers d))

/-- E_c: elements of a chunk (R250). -/
def chunkElems (d : BitVec 512) : Nat := cChunk d / fmtBytes (cFmt d)
/-- K: chunks of a collective (R250). -/
def chunkCount (d : BitVec 512) : Nat := ceilDiv (dLen d) (chunkElems d)
/-- Elements of chunk `k`. -/
def elemsIn (d : BitVec 512) (k : Nat) : Nat := min (chunkElems d) (dLen d - k * chunkElems d)
/-- Packets of at most 8 KiB that carry a number of bytes (R250). -/
def packetsOf (n : Nat) : Nat := ceilDiv n 8192
/-- A length in whole words (R253). -/
def wholeWords (n : Nat) : Nat := 32 * ceilDiv n 32

/-- Bytes of an accumulator in staging. -/
def accBytes (m : AccMode) : Nat := match m with | .compact => 4 | _ => 8
/-- Bytes of a staging slot (R252). -/
def slotBytes (d : BitVec 512) : Nat :=
  wholeWords (chunkElems d * accBytes (cMode d) + chunkElems d / groupSize (cMode d) * 4)
/-- DEPTH_s (R252). -/
def stageDepth (d : BitVec 512) : Nat := ceilDiv (cDepth d) (cNroot d)
/-- The staging slot of chunk `k`, as an offset in the allocation (R252). -/
def stageSlot (d : BitVec 512) (k : Nat) : Nat := cStage d + (k / cNroot d) % stageDepth d * slotBytes d
/-- Slot groups of chunk `k`, padding included (R250, R252). -/
def stageGroups (d : BitVec 512) (k : Nat) : Nat :=
  let per := fmtPerFlit (cFmt d)
  ceilDiv (elemsIn d k) per * per / groupSize (cMode d)

/-! ### Who an agent is -/

/-- The role entry of a position for a sub-tree (R316). -/
def CollRec.roleAt (r : CollRec) (pos sub : Nat) : Option RoleEnt :=
  (r.subs[sub]?).bind fun t => t.roles.find? fun e => e.pos == pos
/-- The root member of a sub-tree. -/
def CollRec.rootOf (r : CollRec) (sub : Nat) : Nat := ((r.subs[sub]?).map (·.root)).getD 0
/-- The endpoint of a member, with a PORT. -/
def CollRec.endpointOf (r : CollRec) (m port : Nat) : BitVec 32 :=
  BitVec.ofNat 32 ((r.members.getD m 0).toNat / 32 * 32 + port)
/-- The ring entry of a member. -/
def CollRec.ringOf (r : CollRec) (m : Nat) : Option RingEnt := r.ring.find? fun e => e.me == m
/-- Distribution entries of a sub-tree, in record order. -/
def CollRec.distOf (r : CollRec) (sub : Nat) : List DistEnt := r.dist.filter fun e => e.sub == sub

/-- An agent with a command in service: the command, its record of it, its copy of index n, and the record. -/
structure AgentNow where
  cmd  : Cmd
  coll : Coll
  copy : CollCopy
  rcd  : CollRec
deriving DecidableEq, Repr

/-- The collective that an agent has in service for a slot. -/
def State.agent? (s : State) (pos slot : Nat) : Option AgentNow :=
  match s.cmd? pos slot 2 with
  | some c =>
    match c.coll with
    | some k =>
      match s.eng.copies.find? (64 * pos + k.index) with
      | some cp => (s.collRec cp.tree).map fun r => ⟨c, k, cp, r⟩
      | none => none
    | none => none
  | none => none

/-- Whether the tile is a member (and not a spine role alone). -/
def AgentNow.member (a : AgentNow) : Bool := decide (a.copy.me < a.rcd.members.length)
/-- Whether the agent merges sub-tree `sub`: the record's root member, or a SUBROOT role. -/
def AgentNow.roots (a : AgentNow) (pos sub : Nat) : Bool :=
  if a.member then a.rcd.rootOf sub == a.copy.me
  else match a.rcd.roleAt pos sub with | some e => e.role == 1 | none => false
/-- Whether the agent distributes sub-tree `sub` in the DISTRIBUTOR role. -/
def AgentNow.distributes (a : AgentNow) (pos sub : Nat) : Bool :=
  !a.member && (match a.rcd.roleAt pos sub with | some e => e.role == 2 | none => false)
/-- Whether the agent sends data of its own. -/
def AgentNow.sender (a : AgentNow) : Bool :=
  a.member && (dOp a.cmd.desc != opBROADCAST || a.copy.me == a.rcd.rootOf 0)
/-- The state with the agent's record replaced. -/
def State.setColl (s : State) (pos slot : Nat) (c : Cmd) (k : Coll) : State :=
  s.setCmd pos slot 2 { c with coll := some k }

/-! ### The checks at take (R245, R246, R253) -/

/-- The index whose copy at a position holds a COLL_ID with SUB 0. -/
def State.collIndex (s : State) (pos id : Nat) : Option Nat :=
  (List.range 64).find? fun n => match s.eng.copies.find? (64 * pos + n) with
    | some c => c.id == id && c.sub == 0
    | none => false

/-- Whether the copies of indices n to n + NROOT - 1 hold the COLL_ID with SUB 0 to NROOT - 1. -/
def State.copiesHold (s : State) (pos n nroot id : Nat) : Bool :=
  (List.range nroot).all fun i => match s.eng.copies.find? (64 * pos + n + i) with
    | some c => decide (n + i < 64) && c.id == id && c.sub == i
    | none => false

/-- Whether OP_ARGS' unlisted bits are 0 (R246). -/
def opArgsOk (d : BitVec 512) : Bool :=
  let z (b hi lo : Nat) : Bool := descBits d b hi lo == 0
  match dOp d with
  | 0x21 | 0x22 => z 52 5 4 && z 52 7 7 && descBytes d 54 2 == 0 && decide (cStage d < 2 ^ 20) && descBytes d 60 4 == 0
  | 0x24 => z 52 4 0 && z 52 7 7 && z 53 7 4 && descBytes d 54 6 == 0 &&
      (if cWash d then z 60 7 4 else descBytes d 60 1 == 0) && descBytes d 61 3 == 0
  | 0x26 => descBytes d 52 12 == 0
  | 0x27 => z 52 7 5 && descBytes d 53 1 == 0 && z 55 7 4 && decide (cStage d < 2 ^ 20) &&
      decide (descBytes d 60 4 < 2 ^ 22) && z 22 7 0
  | _ => descBytes d 52 1 == 0 && z 53 7 4 && descBytes d 54 10 == 0

/-- TOKEN_LOG. -/
def tokenLog (d : BitVec 512) : Nat := descBits d 52 3 0 + 5
/-- Bytes of a ring block (R263). -/
def ringBlockBytes (d : BitVec 512) : Nat := dLen d * 2 ^ tokenLog d
/-- C: chunks of a ring block. -/
def ringChunks (d : BitVec 512) : Nat := ceilDiv (ringBlockBytes d) (cChunk d)

/-- The tray ranges that a command uses: offset and bytes (R253, R317, R318). -/
def AgentNow.ranges (a : AgentNow) (pos : Nat) : List (Nat × Nat) :=
  let d := a.cmd.desc
  let size := fmtBytes (cFmt d)
  let n := dLen d; let m := a.rcd.members.length
  let staging : List (Nat × Nat) :=
    if (List.range (cNroot d)).any (a.roots pos) then [(cStage d, stageDepth d * slotBytes d)]
    else if dOp d = opREDUCE_SCATTER ∧ a.member then [(cStage d, cDepth d * 32)] else []
  if !a.member then
    (if cReduces d then staging else []) ++
      (if (List.range (cNroot d)).any (a.distributes pos) then [(dFar d, cDepth d * chunkElems d * cOutSize d)] else [])
  else match dOp d with
    | 0x21 => [(dLocal d, n * size), (dFar d, n * cOutSize d)] ++ staging
    | 0x22 => [(dLocal d, n * size), (dFar d, n / m * cOutSize d)] ++ staging
    | 0x23 => [(dLocal d, n * size), (dFar d, m * n * size)]
    | 0x24 => if a.copy.me = a.rcd.rootOf 0 then [(dLocal d, n * size)] else [(dFar d, n * size)]
    | 0x25 => [(dLocal d, m * n * size), (dFar d, m * n * size)]
    | 0x27 => [(dLocal d, ringBlockBytes d), (dFar d, 2 * cChunk d), (cStage d, 96)]
    | _ => []

/-- Whether ranges, in whole words, are disjoint (R253). -/
def rangesDisjoint : List (Nat × Nat) → Bool
  | [] => true
  | x :: rest =>
    (rest.all fun y => decide (x.1 + wholeWords x.2 ≤ y.1) || decide (y.1 + wholeWords y.2 ≤ x.1)) && rangesDisjoint rest

/-- Field ranges of a collective command (R246, R263). -/
def collFields (d : BitVec 512) : Bool :=
  headerOk d && opArgsOk d && decide (13 ≤ descBytes d 23 1) && decide (descBytes d 23 1 ≤ 20) && decide (cFmt d ≤ 7) &&
  dLocal d % 32 == 0 && dFar d % 32 == 0 && decide (dLocal d < 2 ^ 20) && decide (dFar d < 2 ^ 20) && cStage d % 32 == 0 &&
  (dOp d == opBARRIER || decide (1 ≤ dLen d)) && (dOp d == opBARRIER || dOp d == opRING_PASS || decide (cDepth d ≤ 8)) &&
  (!cReduces d || (decide (cFmt d ≤ 6) && opFmtOk (cOp d) (cFmt d) && !(cCompact d && fmtInt (cFmt d)) &&
    (cOutFmt d == 7 || (fmtFloat (cOutFmt d) && fmtFloat (cFmt d)) || (fmtInt (cOutFmt d) && fmtInt (cFmt d))))) &&
  (dOp d != opRING_PASS || (decide (tokenLog d ≤ descBytes d 23 1) && decide (ringBlockBytes d ≤ 2 ^ 20) &&
    decide (descBytes d 60 4 + dLen d ≤ 4194304)))

/-- BAD_CMD checks that need the record (R245, R253, R263). -/
def State.collBound (s : State) (pos slot : Nat) (a : AgentNow) : Bool :=
  let d := a.cmd.desc
  let isRing := dOp d == opRING_PASS
  (a.member || (!isRing && dOp d != opBARRIER && (List.range (cNroot d)).any fun i => (a.rcd.roleAt pos i).isSome)) &&
  a.rcd.rootOf 0 == cRoot d && a.rcd.members.length % 65536 == cMembers d && decide (cNroot d ≤ a.rcd.subs.length) &&
  s.copiesHold pos a.coll.index (cNroot d) (dPeer d) &&
  (dOp d != opREDUCE_SCATTER || dLen d % a.rcd.members.length == 0) &&
  (!isRing || (match a.rcd.ringOf a.copy.me with
    | some e => e.lane == 0 || (decide (e.lane ≤ 4) && (s.laneFar pos e.lane).isSome)
    | none => false)) &&
  rangesDisjoint (a.ranges pos) && (a.ranges pos).all fun x => s.inAlloc pos slot x.1 (wholeWords x.2)

/-- PRIV checks (R245). -/
def State.collPriv (s : State) (pos slot : Nat) (a : AgentNow) : Bool :=
  let d := a.cmd.desc
  s.jobOf a.copy.distCtx == some (s.slotJob pos slot) && (!s.spansDies a.rcd || s.slotXdie pos slot) &&
  (match dOp d with
    | 0x21 | 0x22 => s.slotVc pos slot 2 && s.slotVc pos slot 3
    | 0x26 => true
    | 0x27 => (match a.rcd.ringOf a.copy.me with
      | some e => e.lane != 0 || (s.slotVc pos slot (if cSched d then 0 else 1) && s.slotVc pos slot 1)
      | none => true)
    | _ => s.slotVc pos slot 3)

/-- The agent that a command would be served by. -/
def State.agentFor (s : State) (pos : Nat) (c : Cmd) : Option AgentNow :=
  match s.collIndex pos (dPeer c.desc) with
  | some n =>
    match s.eng.copies.find? (64 * pos + n) with
    | some cp => (s.collRec cp.tree).map fun r => ⟨c, Coll.start n (cNroot c.desc) cp.me, cp, r⟩
    | none => none
  | none => none

/-- The collectives that no reduction tile runs: a RING_PASS, since no tile client writes its ACK, and a BARRIER, since
a spine die takes part in barriers through its combiners alone (R315). -/
def State.spineBars (s : State) (d : BitVec 512) : Bool :=
  Config.spineRole s.config && (dOp d == opRING_PASS || dOp d == opBARRIER)

/-- The code with which a collective command fails at take, and the agent's record of it. -/
def State.collCheck (s : State) (pos slot : Nat) (c : Cmd) : Nat × Option Coll :=
  if !collFields c.desc || s.spineBars c.desc then (stBAD_CMD, none)
  else match s.agentFor pos c with
    | none => (stBAD_CMD, none)
    | some a =>
      if !s.collBound pos slot a then (stBAD_CMD, none)
      else if !s.collPriv pos slot a then (stPRIV, none)
      else (0, some a.coll)

/-! ### Packets (R247) -/

/-- TAG of a sub-tree's chunk. -/
def AgentNow.tag (a : AgentNow) (sub k : Nat) : BitVec 16 := BitVec.ofNat 16 ((a.coll.index + sub) * 1024 + k % 1024)

/-- The MC_WRITE header of a share (R247). -/
def AgentNow.mcHeader (a : AgentNow) (ctx : Nat) (sub k : Nat) (confirm : Bool) (dest : BitVec 32) (mask : Word) : Pkt :=
  { Pkt.zero with
    dest := dest
    ctx := BitVec.ofNat 12 a.copy.distCtx
    vc := 3
    cls := BitVec.ofNat 3 (dClass a.cmd.desc)
    ty := BitVec.ofNat 4 tyMC_WRITE
    ccnt := BitVec.ofNat 6 (dCcnt a.cmd.desc)
    tag := a.tag sub k
    mask := mask
    cnt := true
    cmplReq := confirm
    tw := BitVec.ofNat 64 (ctx * 2 ^ 48) }

/-- A single-member share: an MC_WRITE whose MASK holds the member's column (R247). -/
def AgentNow.single (a : AgentNow) (ctx sub k : Nat) (confirm : Bool) (dest : BitVec 32) : Pkt :=
  a.mcHeader ctx sub k confirm dest (BitVec.ofNat 32 (2 ^ adCol dest))

/-- The multicast of a distribution entry (R242, R348). -/
def AgentNow.multi (a : AgentNow) (ctx k : Nat) (confirm : Bool) (e : DistEnt) : Pkt :=
  let h := a.mcHeader ctx e.sub k confirm e.dest e.mask
  { h with mcCol := e.mcCol, relay := e.relay, tw := BitVec.ofNat 64 (h.tw.toNat + e.sel * 2 ^ 60) }

/-- The packets of at most 8 KiB that carry bytes to an address, with zeros past the data (R250). -/
def cutPackets (h : Pkt) (addr : Nat) (bs : List Byte) : List Pkt :=
  (List.range (packetsOf bs.length)).map fun i =>
    let part := (bs.drop (8192 * i)).take 8192
    Pkt.withPayload { h with tw := BitVec.ofNat 64 (h.tw.toNat + (addr + 8192 * i) % 2 ^ 20) }
      (bytesWords (ceilDiv part.length 32) part)

/-- CMPLs that a share returns (R252): one for each MASK bit, and under RELAY one for each row of the relay mask at each
member. -/
def cmplsOf (e : DistEnt) : Nat :=
  let n := popCount 32 e.mask.toNat
  let rows := (setBits 32 e.rmask.toNat).filter fun r => r != adRow e.dest
  n + (if e.relay && !e.mcCol then n * rows.length else 0)

/-- The state of the agent with packets waiting. -/
def Coll.push (k : Coll) (ps : List Pkt) : Coll := { k with outq := k.outq ++ ps }

/-! ### Tray runs -/

/-- A run of bytes of the allocation as an engine reads it; whether a word under it was uncorrectable (R198). -/
def State.readRun (s : State) (pos slot off n : Nat) : List Byte × Bool × State :=
  let p := s.allocBase pos slot + off
  let ks := wordsTouched p n
  let (ws, ue, t) := s.readWords pos (p / 32) ks.length
  (((ws.flatMap wordBytes).drop (p % 32)).take n, ue, t.chargeWords pos (some slot) ks.length)

/-- The pieces of 8 KiB of a run, an uncorrectable piece left out (R198): offset in the run and bytes. -/
def State.readPieces (s : State) (pos slot off n size : Nat) : List (Nat × List Byte) × Bool × State :=
  (List.range (ceilDiv n size)).foldl (fun (acc : List (Nat × List Byte) × Bool × State) i =>
    let r := acc.2.2.readRun pos slot (off + size * i) (min size (n - size * i))
    (if r.2.1 then acc.1 else acc.1 ++ [(size * i, r.1)], acc.2.1 || r.2.1, r.2.2)) ([], false, s)

/-! ### Merging at a sub-root (R252) -/

/-- One group of a flit is merged into staging; whether a word of it was lost. -/
def State.stageMerge (s : State) (pos slot k : Nat) (a : AgentNow) (op con : Nat) (first : Bool) (g : Nat × List (BitVec 64)) :
    Bool × State :=
  let d := a.cmd.desc
  let m := cMode d
  let gi := g.1 * 16 / groupSize m
  let off := stageSlot d k + g.1 * 16 * accBytes m
  let n := g.2.length * accBytes m
  let (old, ue, s1) := s.readRun pos slot off n
  if ue then (true, s1)
  else
    let words := (elemsOf (if m = .compact then 0 else 7) old).map (BitVec.ofNat 64)
    let (acc, ovf) := if first then
        (if op = 2 ∨ op = 3 then (g.2, 0) else mergeElems m op (g.2.map (accIdentity op)) g.2)
      else mergeElems m op words g.2
    let base := s1.allocBase pos slot
    let ctx := s1.slotCtx pos slot
    let (l1, s2) := s1.landBytes pos (base + off) swNone ctx (acc.flatMap fun w => bytesOf (accBytes m) w.toNat)
    let (l2, s3) := s2.landBytes pos (base + stageSlot d k + chunkElems d * accBytes m + 4 * gi) swNone ctx (bytesOf 4 con)
    (l1 || l2, ((s3.busy pos slot 2).chargeWords pos (some slot) (ceilDiv n 32)).when (m == .integer && ovf != 0) fun t =>
      t.count (tileA pos Reg.AGENT_SAT_CNT) ovf)

/-- A flit's groups are merged into the staging of chunk `k`, with their CONTRIB. -/
def State.stageFlit (s : State) (pos slot k : Nat) (p : Pkt) : State :=
  match s.agent? pos slot with
  | none => s
  | some a =>
    let m := cMode a.cmd.desc
    let (s, st, lost) := (partialGroups m p).foldl (fun (acc : State × Store Nat × Bool) g =>
      let key := 2 ^ 16 * k + g.1 * 16 / groupSize m
      let n := acc.2.1.get 0 key
      let r := acc.1.stageMerge pos slot k a (partialOp p) (n + contrib p) (n == 0) g
      (r.2, if r.1 then acc.2.1 else acc.2.1.set 0 key (n + contrib p), acc.2.2 || r.1)) (s, a.coll.stage, false)
    let s := s.when lost fun t => t.count (rtrA pos Reg.DISC_LOSS_CNT) 1
    let due := if a.coll.stageDue.get 0 k = 0 then
        a.coll.stageDue.set 0 k ((s.nowDl + cStepDl a.cmd.desc) % 65536 + 1)
      else a.coll.stageDue
    s.setColl pos slot a.cmd { a.coll with stage := st, stageDue := due }

/-- The output bytes of a finished chunk, with the counts of R227. -/
def State.finishElems (s : State) (pos : Nat) (a : AgentNow) (accs : List (BitVec 64)) : List Byte × State :=
  let d := a.cmd.desc
  let outs := accs.map fun w => accOut (cMode d) (cOp d) (cOutFmt d) a.rcd.members.length w
  let sat := (outs.filter fun o => o.2 == .saturated).length
  let nan := (outs.filter fun o => o.2 == .nan).length
  (elemBytes (cOutFmt d) (outs.map (·.1)),
    (s.count (tileA pos Reg.AGENT_SAT_CNT) sat).count (tileA pos Reg.AGENT_NAN_CNT) nan)

/-- Bytes with zeros up to a whole word. -/
def padWord (bs : List Byte) : List Byte := bs ++ List.replicate (wholeWords bs.length - bs.length) 0

/-- Output of the agent lands at an allocation offset. -/
def State.agentLand (s : State) (pos slot off : Nat) (bs : List Byte) : Bool × State :=
  s.landWords pos slot off swAgent (bytesWords (ceilDiv bs.length 32) bs)

/-- The share of one REDUCE_SCATTER owner in chunk `k`: first element and count (R253). -/
def shardPart (d : BitVec 512) (members k m : Nat) : Nat × Nat :=
  let per := dLen d / members
  let lo := max (k * chunkElems d) (m * per)
  let hi := min (k * chunkElems d + elemsIn d k) ((m + 1) * per)
  (lo, hi - lo)

/-- Packets to a role's targets, in record order (R316, R317): a member die's multicasts, or one share to another
DISTRIBUTOR. The base of the addresses is open (log entry 9). -/
def AgentNow.toTargets (a : AgentNow) (ctx sub k : Nat) (e : RoleEnt) (bs : List Byte) : List Pkt × Nat :=
  let d := a.cmd.desc
  let conf := cConfirm d
  let step := chunkElems d * cOutSize d
  let parts := e.targets.map fun t =>
    let base := Config.distBase d t.1
    if t.2 then
      let es := (a.rcd.distOf sub).filter fun x => dieOf x.dest == dieOf t.1
      (es.flatMap fun x => cutPackets (a.multi ctx k conf x) (base + k * step) bs,
        packetsOf bs.length * (es.map cmplsOf).foldl (· + ·) 0)
    else (cutPackets (a.single ctx sub k conf t.1) (base + k % cDepth d * step) bs, packetsOf bs.length)
  (parts.flatMap (·.1), (parts.map (·.2)).foldl (· + ·) 0)

/-- What a sub-root sends once chunk `k` is rounded: packets, and the CMPLs they return (R252). -/
def AgentNow.distribution (a : AgentNow) (pos ctx k : Nat) (bs : List Byte) : List Pkt × Nat :=
  let d := a.cmd.desc
  let sub := k % cNroot d
  let conf := cConfirm d
  let step := chunkElems d * cOutSize d
  match a.rcd.roleAt pos sub with
  | some e => a.toTargets ctx sub k e bs
  | none =>
    if dOp d = opALLREDUCE then
      let es := a.rcd.distOf sub
      (es.flatMap fun x => cutPackets (a.multi ctx k conf x) (dFar d + k * step) bs,
        packetsOf bs.length * (es.map cmplsOf).foldl (· + ·) 0)
    else
      let ms := List.range a.rcd.members.length
      let shards := (ms.filter fun m => m != a.copy.me).flatMap fun m =>
        let (lo, n) := shardPart d a.rcd.members.length k m
        let off := (lo - k * chunkElems d) * cOutSize d
        cutPackets (a.single ctx sub k conf (a.rcd.endpointOf m 0))
          (dFar d + (lo - m * (dLen d / a.rcd.members.length)) * cOutSize d) ((bs.drop off).take (n * cOutSize d))
      let tokens := ms.flatMap fun m =>
        cutPackets (a.single ctx sub k conf (a.rcd.endpointOf m 0)) (cStage d + 32 * (k % cDepth d)) (bytesOf 32 (k % 2 ^ 32))
      (shards ++ tokens, shards.length + tokens.length)

/-- Where a sub-root writes the rounded chunk (R252, R317): an ALLREDUCE member at its DST, any other over the start of
its slot; then a REDUCE_SCATTER member writes its own shard part at its DST. -/
def State.writeChunk (s : State) (pos slot k : Nat) (a : AgentNow) (bs : List Byte) : State :=
  let d := a.cmd.desc
  let s := s.busy pos slot 2
  if a.member && dOp d == opALLREDUCE then
    (s.agentLand pos slot (dFar d + k * chunkElems d * cOutSize d) (padWord bs)).2
  else
    let s := (s.agentLand pos slot (stageSlot d k) (padWord bs)).2
    if a.member then
      let (lo, n) := shardPart d a.rcd.members.length k a.copy.me
      let part := (bs.drop ((lo - k * chunkElems d) * cOutSize d)).take (n * cOutSize d)
      s.when (decide (0 < n)) fun t =>
        (t.landBytes pos (t.allocBase pos slot + dFar d +
          (lo - a.copy.me * (dLen d / a.rcd.members.length)) * cOutSize d) swAgent (t.slotCtx pos slot) (padWord part)).2
    else s

/-- A chunk whose every count has reached the member count is rounded once, written and distributed; staging that can
no longer be read sends nothing and fails the command (R198, R252). -/
def State.chunkFinish (s : State) (pos slot k : Nat) : State :=
  match s.agent? pos slot with
  | none => s
  | some a =>
    let d := a.cmd.desc
    let m := cMode d
    let whole := (List.range (stageGroups d k)).all fun g =>
      decide (a.rcd.members.length ≤ a.coll.stage.get 0 (2 ^ 16 * k + g))
    if !whole || a.coll.shared.contains k then s
    else
      let coll := { a.coll with
        shared := k :: a.coll.shared
        stage := a.coll.stage.keep fun key => key / 2 ^ 16 != k
        stageDue := a.coll.stageDue.del k }
      let (old, ue, s) := s.readRun pos slot (stageSlot d k) (elemsIn d k * accBytes m)
      if ue then s.setColl pos slot { a.cmd with fail := if a.cmd.fail = 0 then stDATA_LOSS else a.cmd.fail } coll
      else
        let accs := (elemsOf (if m = .compact then 0 else 7) old).map (BitVec.ofNat 64)
        let (bs, s) := s.finishElems pos a accs
        let s := s.writeChunk pos slot k a bs
        let (ps, n) := a.distribution pos (s.slotCtx pos slot) k bs
        s.setColl pos slot a.cmd
          { (coll.push ps) with cmplDue := coll.cmplDue + (if cConfirm d then n else 0) }

/-! ### Steps and arrivals (R250, R251) -/

/-- The full chunk number nearest a run that a TAG's low 10 bits name; none below the run. -/
def fullChunk (run low : Nat) : Option Nat :=
  let diff := (low + 1024 - run % 1024) % 1024
  if diff < 512 then some (run + diff) else none

/-- Packets of chunk `k` that a member expects (R250). -/
def AgentNow.expected (a : AgentNow) (k : Nat) : Nat :=
  let d := a.cmd.desc
  let m := a.rcd.members.length
  match dOp d with
  | 0x22 => packetsOf ((shardPart d m k a.copy.me).2 * cOutSize d) + 1
  | 0x23 | 0x25 => m * packetsOf (elemsIn d k * cOutSize d)
  | 0x24 => if cWash d then 1 else packetsOf (elemsIn d k * cOutSize d)
  | _ => packetsOf (elemsIn d k * cOutSize d)

/-- Whether chunk `k` is complete at this agent (R250, R317). -/
def AgentNow.chunkDone (a : AgentNow) (pos k : Nat) : Bool :=
  let d := a.cmd.desc
  let sub := k % cNroot d
  if !a.member then
    if a.roots pos sub || a.distributes pos sub then a.coll.shared.contains k else true
  else if cReduces d && a.roots pos sub then
    a.coll.shared.contains k && (dOp d == opALLREDUCE || decide (1 ≤ a.coll.got.get 0 k))
  else if dOp d = opBROADCAST ∧ a.copy.me = a.rcd.rootOf 0 then
    decide (k + 1 < a.coll.sent) || (decide (k < a.coll.sent) && a.coll.outq.isEmpty)
  else decide (a.expected k ≤ a.coll.got.get 0 k)

/-- The deadline of a step that begins now. -/
def State.stepDue (s : State) (d : BitVec 512) : Nat := (s.nowDl + cStepDl d) % 65536 + 1

/-- The unbroken run advances over complete chunks; a receive-only agent then begins the next step (R251). -/
def AgentNow.advance (a : AgentNow) (pos due : Nat) : (fuel : Nat) → Coll
  | 0 => a.coll
  | fuel + 1 =>
    let k := a.coll
    if k.run < chunkCount a.cmd.desc && a.chunkDone pos k.run then
      let next := { k with run := k.run + 1, due := k.due.del k.run, got := k.got.del k.run }
      let next := if !a.sender && decide (k.run + 1 < chunkCount a.cmd.desc) then
          { next with due := next.due.put (k.run + 1) due }
        else next
      { a with coll := next }.advance pos due fuel
    else k

/-- The agent looks at its run again; its status word follows PROGRESS (R175). -/
def State.collAdvance (s : State) (pos slot : Nat) : State :=
  match s.agent? pos slot with
  | none => s
  | some a =>
    let k := a.advance pos (s.stepDue a.cmd.desc) (chunkCount a.cmd.desc)
    if k = a.coll then s else s.moved pos slot 2 { a.cmd with coll := some k }

/-- A DISTRIBUTOR whose slot holds the whole of chunk `k` sends it on (R317). -/
def State.distribute (s : State) (pos slot k : Nat) : State :=
  match s.agent? pos slot with
  | none => s
  | some a =>
    let d := a.cmd.desc
    let sub := k % cNroot d
    if a.distributes pos sub && !a.coll.shared.contains k && decide (a.expected k ≤ a.coll.got.get 0 k) then
      let n := elemsIn d k * cOutSize d
      let (bs, ue, s) := s.readRun pos slot (dFar d + k % cDepth d * chunkElems d * cOutSize d) n
      let coll := { a.coll with shared := k :: a.coll.shared }
      if ue then s.setColl pos slot { a.cmd with fail := if a.cmd.fail = 0 then stDATA_LOSS else a.cmd.fail } coll
      else match a.rcd.roleAt pos sub with
        | some e =>
          let (ps, n) := a.toTargets (s.slotCtx pos slot) sub k e bs
          s.setColl pos slot a.cmd { (coll.push ps) with cmplDue := coll.cmplDue + (if cConfirm d then n else 0) }
        | none => s
    else s

/-- A delivered packet whose CTX and CCNT match a RUNNING collective command is reported to its agent (R247). -/
def State.collArrive (s : State) (pos slot : Nat) (p : Pkt) : State :=
  match s.agent? pos slot with
  | none => s
  | some a =>
    let sub := redIndex p.tag - a.coll.index
    if a.cmd.st = 2 ∧ dOp a.cmd.desc ≠ opBARRIER ∧ dOp a.cmd.desc ≠ opRING_PASS ∧ dCcnt a.cmd.desc = p.ccnt.toNat ∧
        a.copy.distCtx = p.ctx.toNat ∧ a.coll.index ≤ redIndex p.tag ∧ sub < cNroot a.cmd.desc then
      match fullChunk a.coll.run (p.tag.toNat % 1024) with
      | some k =>
        let got := a.coll.got.set 0 k (a.coll.got.get 0 k + 1)
        ((s.setColl pos slot a.cmd { a.coll with got := got }).distribute pos slot k).collAdvance pos slot
      | none => s
    else s

/-- A wash arrival counts a chunk of a BROADCAST with WASH (R259). -/
def State.washArrive (s : State) (pos slot landing ccnt : Nat) : State :=
  match s.agent? pos slot with
  | none => s
  | some a =>
    let d := a.cmd.desc
    if a.cmd.st = 2 && cWash d && descBits d 60 3 0 == landing && dCcnt d == ccnt then
      let k := a.coll.run + (a.coll.got.filter fun kv => decide (a.coll.run ≤ kv.1)).length
      (s.setColl pos slot a.cmd { a.coll with got := a.coll.got.set 0 k 1 }).collAdvance pos slot
    else s

/-- A CMPL counted on the command's CCNT under CONFIRM (R252). -/
def State.collCmpl (s : State) (pos slot ccnt : Nat) : State :=
  match s.agent? pos slot with
  | none => s
  | some a =>
    if cConfirm a.cmd.desc && dCcnt a.cmd.desc == ccnt && (cReduces a.cmd.desc || dOp a.cmd.desc == opBROADCAST) then
      s.setColl pos slot a.cmd { a.coll with cmplGot := a.coll.cmplGot + 1 }
    else s

/-! ### SUBROOT_PARTIAL (R249, R252) -/

/-- The command of a slot that a PARTIAL's index belongs to. -/
def State.partialAgent (s : State) (pos slot : Nat) (p : Pkt) : Option AgentNow :=
  match s.agent? pos slot with
  | some a =>
    if cReduces a.cmd.desc && decide (a.coll.index ≤ redIndex p.tag) &&
        decide (redIndex p.tag < a.coll.index + cNroot a.cmd.desc) then some a
    else none
  | none => none

/-- A PARTIAL reaches a sub-root's agent. A slot that still holds an earlier chunk makes it wait in the intake. -/
def State.subrootPartial (s : State) (pos : Nat) (p : Pkt) : State :=
  let t := s.takeIntake pos 3 p
  match s.slotOf pos p.ctx.toNat with
  | none => t.discardBad pos 3 p
  | some slot =>
    match s.partialAgent pos slot p with
    | none => t.count (rtrA pos Reg.DISC_BAD_CNT) 1
    | some a =>
      let d := a.cmd.desc
      let sub := redIndex p.tag - a.coll.index
      if !opFmtOk (partialOp p) (partialFmt p) || decide (7 < partialFmt p) || !modeTakes (cMode d) (partialFmt p) ||
          !offsetOk p then t.discardBad pos 3 p
      else if partialSig p ≠ (signatureOf d).toNat then
        (t.setCmd pos slot 2 { a.cmd with stop := stSIG_MISMATCH }).raise Src.RED_SIG pos .tilePort 0 p.ctx.toNat
          ((signatureOf d).toNat + partialSig p * 2 ^ 32) p.tag.toNat
      else match fullChunk a.coll.run (p.tag.toNat % 1024) with
        | none => t.count (rtrA pos Reg.DISC_BAD_CNT) 1
        | some k =>
          let other := a.coll.stage.any fun kv =>
            kv.1 / 2 ^ 16 != k && kv.1 / 2 ^ 16 % cNroot d == sub && stageSlot d (kv.1 / 2 ^ 16) == stageSlot d k
          if k % cNroot d ≠ sub ∨ chunkCount d ≤ k ∨ !a.roots pos sub ∨ a.coll.shared.contains k then
            t.count (rtrA pos Reg.DISC_BAD_CNT) 1
          else if other then s
          else (((t.stageFlit pos slot k p).chunkFinish pos slot k).collAdvance pos slot).when p.cnt fun u =>
            u.countAt pos slot p.ccnt.toNat false

/-- SUBROOT_PARTIAL (R252). -/
def execSubrootPartial (pos : Pos) (pkt : Pkt) (s : State) : Out :=
  done (s.when (!s.stopped && s.inMesh pos && pkt.ty.toNat == tyPARTIAL) fun t => t.subrootPartial pos pkt)

/-! ### Sending a chunk (R250) -/

/-- ROOT_CTX of a sub-tree's own index (R243, R245). -/
def State.rootCtxOf (s : State) (pos : Nat) (a : AgentNow) (sub : Nat) : Nat :=
  ((s.eng.copies.find? (64 * pos + a.coll.index + sub)).getD a.copy).rootCtx

/-- The PARTIAL flits of a chunk's source bytes (R247, R250). -/
def AgentNow.partials (a : AgentNow) (ctx k : Nat) (pieces : List (Nat × List Byte)) : List Pkt :=
  let d := a.cmd.desc
  let sub := k % cNroot d
  pieces.map fun x =>
    let off := x.1 / 128 * fmtPerFlit (cFmt d) / 16
    Pkt.withPayload
      { Pkt.zero with
        dest := a.rcd.endpointOf (a.rcd.rootOf sub) 3
        ctx := BitVec.ofNat 12 ctx
        vc := 2
        cls := BitVec.ofNat 3 (dClass d)
        ty := BitVec.ofNat 4 tyPARTIAL
        tag := a.tag sub k
        mask := 1
        tw := BitVec.ofNat 64 ((signatureOf d).toNat + off * 2 ^ 32 + cFmt d * 2 ^ 48 + cOp d * 2 ^ 52) }
      (bytesWords 4 x.2)

/-- The wash beats of a chunk's bytes (R257, R259): LAST in the final beat. -/
def washBeats (job landing beat : Nat) (bs : List Byte) : List Pkt :=
  let n := ceilDiv bs.length 128
  (List.range n).map fun i =>
    { Pkt.zero with
      ty := 15
      lastw := 3
      tw := BitVec.ofNat 64 (job + landing * 2 ^ 16 + (beat + i) % 8192 * 2 ^ 20 + b2n (i + 1 == n) * 2 ^ 33)
      payload := bytesWords 4 ((bs.drop (128 * i)).take 128) }

/-- The multicasts of pieces over distribution entries. -/
def AgentNow.multicast (a : AgentNow) (ctx k addr : Nat) (conf : Bool) (es : List DistEnt) (pieces : List (Nat × List Byte)) :
    List Pkt × Nat :=
  (es.flatMap fun e => pieces.flatMap fun x => cutPackets (a.multi ctx k conf e) (addr + x.1) x.2,
    pieces.length * (es.map cmplsOf).foldl (· + ·) 0)

/-- The packets of chunk `k` of a sender, formed from its source: packets, CMPLs expected, and whether a piece was
uncorrectable and is not sent. -/
def State.formChunk (s : State) (pos slot k : Nat) (a : AgentNow) : List Pkt × Nat × Bool × State :=
  let d := a.cmd.desc
  let size := fmtBytes (cFmt d)
  let n := elemsIn d k * size
  let from' := dLocal d + k * chunkElems d * size
  let ctx := s.slotCtx pos slot
  let m := a.rcd.members.length
  match dOp d with
  | 0x21 | 0x22 =>
    let (ps, ue, s) := s.readPieces pos slot from' n 128
    (a.partials (s.rootCtxOf pos a (k % cNroot d)) k ps, 0, ue, s)
  | 0x23 =>
    let (ps, ue, s) := s.readPieces pos slot from' n 8192
    ((a.multicast ctx k (dFar d + (a.copy.me * dLen d + k * chunkElems d) * size) false (a.rcd.distOf 0) ps).1, 0, ue, s)
  | 0x24 =>
    let (ps, ue, s) := s.readPieces pos slot from' n 8192
    let addr := dFar d + k * chunkElems d * size
    let far := (a.rcd.distOf 0).filter fun e => !(cWash d && s.ownDie (dieOf e.dest))
    let (mc, cm) := a.multicast ctx k addr (cConfirm d) far ps
    let beats := if cWash d && !ue then
        washBeats (s.slotJob pos slot) (descBits d 60 3 0) (addr / 128) (ps.flatMap (·.2))
      else []
    (beats ++ mc, if cConfirm d then cm else 0, ue, s)
  | _ =>
    (List.range m).foldl (fun (acc : List Pkt × Nat × Bool × State) i =>
      let j := (a.copy.me + i + 1) % m
      let r := acc.2.2.2.readPieces pos slot (dLocal d + (j * dLen d + k * chunkElems d) * size) n 8192
      let ps := r.1.flatMap fun x =>
        cutPackets (a.single ctx 0 k false (a.rcd.endpointOf j 0)) (dFar d + (a.copy.me * dLen d + k * chunkElems d) * size + x.1) x.2
      (acc.1 ++ ps, 0, acc.2.2.1 || r.2.1, r.2.2)) ([], 0, false, s)

/-- Whether the agent may begin its next chunk: fewer than DEPTH ahead of its run, nothing waiting (R250). -/
def AgentNow.mayBegin (a : AgentNow) : Bool :=
  a.cmd.st == 2 && a.cmd.stop == 0 && a.sender && a.coll.outq.isEmpty &&
    decide (a.coll.sent < chunkCount a.cmd.desc) && decide (a.coll.sent < a.coll.run + cDepth a.cmd.desc)

/-- The agent begins its next chunk: its packets wait for injection, a sub-root merges its own contribution at once, and
the step's deadline starts (R250 to R252). -/
def State.collBegin (s : State) (pos slot : Nat) : State :=
  match s.agent? pos slot with
  | none => s
  | some a =>
    if !a.mayBegin then s
    else
      let d := a.cmd.desc
      let k := a.coll.sent
      let (ps, n, ue, s) := s.formChunk pos slot k a
      let coll := { a.coll with sent := k + 1, due := a.coll.due.put k (s.stepDue d), cmplDue := a.coll.cmplDue + n }
      let cmd := { a.cmd with fail := if ue && a.cmd.fail == 0 then stDATA_LOSS else a.cmd.fail }
      if cReduces d && a.roots pos (k % cNroot d) then
        let s := s.setColl pos slot cmd coll
        ((ps.foldl (fun t p => t.stageFlit pos slot k p) s).chunkFinish pos slot k).collAdvance pos slot
      else s.setColl pos slot cmd (coll.push ps)

/-- Whether the work of a collective is done (R250, R252, R317). -/
def AgentNow.complete (a : AgentNow) : Bool :=
  let d := a.cmd.desc
  decide (chunkCount d ≤ a.coll.run) && a.coll.outq.isEmpty && (!a.sender || decide (chunkCount d ≤ a.coll.sent)) &&
    decide (a.coll.cmplDue ≤ a.coll.cmplGot)

/-! ### Deadlines (R251) -/

/-- Whether a deadline has passed, modulo half-range. -/
def State.duePassed (s : State) (due : Nat) : Bool := decide (0 < signed 16 (s.nowDl + 65536 - (due - 1) % 65536))

/-- STEP_TIMEOUT: a step, or a chunk in staging, whose deadline has passed ends the command with TIMEOUT (R251). -/
def State.stepTimeout (s : State) (pos slot : Nat) : State :=
  match s.cmd? pos slot 2 with
  | some c =>
    match c.coll with
    | some k =>
      if (c.st = 2 ∧ c.stop = 0) ∧ (k.due.any (fun x => s.duePassed x.2) || k.stageDue.any fun x => s.duePassed x.2) then
        s.endCommand pos slot 2 c stateFailed stTIMEOUT
      else s
    | none => s
  | none => s

/-- STEP_TIMEOUT (R251). -/
def execStepTimeout (pos : Pos) (slot : Nat) (s : State) : Out := done (s.when (!s.stopped) fun t => t.stepTimeout pos slot)

end Sys2Proof.Machine
end

