-- ==== Sys2Proof/Machine/Ring.lean ====
section
/-! DEFINITION. The ring pass (R263 to R267): steps, double buffer, pieces, credits and descriptors. -/
namespace Sys2Proof.Machine

/-- Chunks that a member receives, and sends: (MEMBERS - 1) × C. -/
def AgentNow.ringTotal (a : AgentNow) : Nat := (a.rcd.members.length - 1) * ringChunks a.cmd.desc
/-- Bytes of ring chunk `q`. -/
def ringBytesOf (d : BitVec 512) (q : Nat) : Nat :=
  min (cChunk d) (ringBlockBytes d - q % max 1 (ringChunks d) * cChunk d)
/-- Tokens in a whole chunk. -/
def ringTokens (d : BitVec 512) : Nat := cChunk d / 2 ^ tokenLog d
/-- Offset in the allocation of the buffer of ring chunk `q`. -/
def ringBuf (d : BitVec 512) (q : Nat) : Nat := dFar d + q % 2 * cChunk d
/-- The ring entry of an agent. -/
def AgentNow.ringEnt (a : AgentNow) : RingEnt := (a.rcd.ringOf a.copy.me).getD ⟨0, 0, 0, 0⟩
/-- ACK, as the tile client wrote it (R264). -/
def State.ringAck (s : State) (pos slot : Nat) (d : BitVec 512) : Nat :=
  ofBytes (s.trayBytes pos (s.allocBase pos slot + cStage d) 8)

/-- The full number nearest an expected one that 24 bits name (R266). -/
def fullNumber (want low : Nat) : Nat :=
  let diff := (low + 2 ^ 24 - want % 2 ^ 24) % 2 ^ 24
  if diff < 2 ^ 23 then want + diff else want + diff - 2 ^ 24

/-- A ring-pass lane flit's control block (R168, R266). -/
def ringCtl (ctx words off : Nat) (last credit : Bool) (q tok : Nat) : DataWord :=
  BitVec.ofNat 256 (ctx + b2n last * 2 ^ 12 + words * 2 ^ 13 + off * 2 ^ 22 + 2 ^ 42 + b2n credit * 2 ^ 46 +
    q % 2 ^ 24 * 2 ^ 47 + tok % 2 ^ 22 * 2 ^ 71)

/-- The pieces of a ring chunk for the next member: lane flits, or RING_BLOCKs of at most 256 words (R266). A lane
packet is held as its control block before its words. -/
def AgentNow.ringPieces (a : AgentNow) (ctx q tok : Nat) (bs : List Byte) : List Pkt :=
  let d := a.cmd.desc
  let e := a.ringEnt
  let next := descBits d 54 11 0
  let size := if e.lane = 0 then 8192 else 128
  let n := ceilDiv bs.length size
  (List.range n).map fun i =>
    let part := (bs.drop (size * i)).take size
    let ws := bytesWords (ceilDiv part.length 32) part
    let t := tok + size * i / 2 ^ tokenLog d
    if e.lane = 0 then
      Pkt.withPayload
        { Pkt.zero with
          dest := a.rcd.endpointOf e.next 0
          ctx := BitVec.ofNat 12 next
          vc := if cSched d then 0 else 1
          cls := BitVec.ofNat 3 (dClass d)
          ty := BitVec.ofNat 4 tyRING_BLOCK
          ccnt := BitVec.ofNat 6 (dCcnt d)
          tag := BitVec.ofNat 16 (q / max 1 (ringChunks d))
          tw := BitVec.ofNat 64 (q % 2 * cChunk d + size * i + t % 2 ^ 22 * 2 ^ 26 + ctx * 2 ^ 48) } ws
    else
      { Pkt.zero with
        ty := 14
        payload := ringCtl next (ws.length - 1) (ringBuf d q + size * i) (i + 1 == n) false q t :: ws }

/-- The credit of `count` freed chunks for the previous member (R265, R266). -/
def AgentNow.ringCredit (a : AgentNow) (ctx count : Nat) (laneBackDir : Option Nat) : Pkt :=
  let d := a.cmd.desc
  let prev := descBits d 20 11 0
  match laneBackDir with
  | some dir => { Pkt.zero with ty := 13, tag := BitVec.ofNat 16 dir, payload := [ringCtl prev 0 0 true true count 0] }
  | none =>
    Pkt.withPayload
      { Pkt.zero with
        dest := a.rcd.endpointOf a.ringEnt.prev 0
        ctx := BitVec.ofNat 12 prev
        vc := 1
        cls := BitVec.ofNat 3 (dClass d)
        ty := BitVec.ofNat 4 tyWRITE
        ccnt := BitVec.ofNat 6 (dCcnt d)
        tag := BitVec.ofNat 16 ((count - 1) / max 1 (ringChunks d))
        tw := BitVec.ofNat 64 (cStage d + ctx * 2 ^ 48) }
      [BitVec.ofNat 256 (count * 2 ^ 64)]

/-- The lane over which this member reaches its previous one: the opposite of the lane by which that one sends here;
none for a routed ring. -/
def AgentNow.prevLane (a : AgentNow) : Option Nat :=
  match a.rcd.ringOf a.ringEnt.prev with
  | some e => if e.lane = 0 then none else some (laneBack e.lane)
  | none => none

/-- Whether ring chunk `sent` may be sent now (R265). -/
def AgentNow.mayPass (a : AgentNow) : Bool :=
  let k := a.coll
  a.cmd.st == 2 && a.cmd.stop == 0 && k.outq.isEmpty && decide (k.sent < a.ringTotal) && decide (k.sent < k.credit + 2) &&
    (decide (k.sent < ringChunks a.cmd.desc) || decide (k.sent < k.run + ringChunks a.cmd.desc))

/-- The member begins to send its next ring chunk: its own block's in step 0, else the chunk received a step before. -/
def State.ringBegin (s : State) (pos slot : Nat) : State :=
  match s.agent? pos slot with
  | none => s
  | some a =>
    if !a.mayPass then s
    else
      let d := a.cmd.desc
      let k := a.coll
      let c := ringChunks d
      let q := k.sent
      let n := ringBytesOf d q
      let (off, tok) := if q < c then (dLocal d + q * cChunk d, descBytes d 60 4 + q * ringTokens d)
        else (ringBuf d (q - c), k.stage.get 0 (q - c))
      let (bs, ue, s) := s.readRun pos slot off n
      let ends := (q + 1) % max 1 c == 0
      let due := if ends && decide (q + 1 ≤ k.run) then k.due.del (q / max 1 c) else k.due
      let due := if ends && decide (q + 1 < a.ringTotal) then due.put ((q + 1) / max 1 c) (s.stepDue d) else due
      let coll := { k with sent := q + 1, due := due }
      let ps := if ue then [] else a.ringPieces (s.slotCtx pos slot) q tok bs
      s.setColl pos slot { a.cmd with fail := if ue && a.cmd.fail == 0 then stDATA_LOSS else a.cmd.fail } (coll.push ps)

/-- The descriptor of a received chunk (R264). -/
def AgentNow.descriptor (a : AgentNow) (q tok : Nat) : DataWord :=
  let d := a.cmd.desc
  let m := a.rcd.members.length
  let owner := (a.copy.me + 2 * m - 1 - q / max 1 (ringChunks d)) % m
  BitVec.ofNat 256 (q % 2 ^ 32 + tok * 2 ^ 32 + ringBytesOf d q / 2 ^ tokenLog d * 2 ^ 64 + owner * 2 ^ 96)

/-- Bytes of ring chunk `q` have landed; with the last of them the descriptor is written and CCNT counts (R264, R267). -/
def State.ringLanded (s : State) (pos slot q bytes off tok : Nat) : State :=
  match s.agent? pos slot with
  | none => s
  | some a =>
    let d := a.cmd.desc
    let k := a.coll
    let got := k.got.get 0 q + bytes
    let stage := if off = 0 then k.stage.put q tok else k.stage
    let k := { k with got := k.got.set 0 q got, stage := stage }
    if ringBytesOf d q ≤ got ∧ q = k.run then
      let at' := s.allocBase pos slot + cStage d + 32 + 32 * (q % 2)
      let (_, s) := s.landBytes pos at' swNone (s.slotCtx pos slot) (wordBytes (a.descriptor q (stage.get 0 q)))
      let s := (s.chargeWords pos (some slot) 1).countAt pos slot (dCcnt d) false
      let c := max 1 (ringChunks d)
      let due := if (q + 1) % c = 0 ∧ q + 1 ≤ k.sent then k.due.del (q / c) else k.due
      s.moved pos slot 2 { a.cmd with coll := some { k with run := q + 1, got := k.got.del q, due := due } }
    else s.setColl pos slot a.cmd k

/-- A ring-pass command in service for a slot. -/
def State.ringAgent (s : State) (pos slot : Nat) : Option AgentNow :=
  match s.agent? pos slot with
  | some a => if dOp a.cmd.desc = opRING_PASS then some a else none
  | none => none

/-- A routed piece lands in the double buffer (R266). -/
def State.ringBlock (s : State) (pos : Nat) (p : Pkt) : State :=
  let s := s.takeIntake pos 0 p
  match s.unicastSlot pos p with
  | none => s.discardBad pos 0 p
  | some slot =>
    match s.ringAgent pos slot with
    | none => s.discardBad pos 0 p
    | some a =>
      let d := a.cmd.desc
      let off := p.tword 25 0
      let n := 32 * p.words
      if off % 32 ≠ 0 ∨ 2 * cChunk d < off + n then s.discardBad pos 0 p
      else
        let c := max 1 (ringChunks d)
        let want := a.coll.run
        let q := if want % 2 = off / cChunk d then want else want + 1
        let (lost, s) := s.landWords pos slot (dFar d + off) swMesh p.payload
        let s := s.delivered pos slot 0 { p with cnt := false } lost
        if lost ∨ q / c % 65536 ≠ p.tag.toNat then s
        else s.ringLanded pos slot q (min n (ringBytesOf d q - off % cChunk d)) (off % cChunk d) (p.tword 47 26)

/-- RING_BLOCK (R266). -/
def execRingBlock (pos : Pos) (pkt : Pkt) (s : State) : Out :=
  done (s.when (!s.stopped && s.inMesh pos && pkt.ty.toNat == tyRING_BLOCK) fun t => t.ringBlock pos pkt)

/-- The next member's latest credit is taken: never a smaller one (R265). -/
def State.ringCreditTake (s : State) (pos slot low : Nat) : State :=
  match s.ringAgent pos slot with
  | some a =>
    let n := fullNumber a.coll.credit low
    if a.coll.credit < n ∧ n ≤ a.coll.sent then s.setColl pos slot a.cmd { a.coll with credit := n } else s
  | none => s

/-- A routed credit: the CREDIT half of the word at ACK_OFF is written, and ACK stays (R264, R265, log entry 10). -/
def State.ringCreditWrite (s : State) (pos slot : Nat) (a : AgentNow) (p : Pkt) : State :=
  let n := bitsOf (p.payload.headD 0).toNat 127 64
  let at' := s.allocBase pos slot + cStage a.cmd.desc + 8
  let (lost, s) := s.writeBytesIn pos at' swMesh (s.slotCtx pos slot) (bytesOf 8 n)
  ((s.chargeWords pos (some slot) 1).delivered pos slot 0 p lost).when (!lost) fun t => t.ringCreditTake pos slot (n % 2 ^ 24)

/-- Whether a WRITE is the credit of a routed ring: one word at ACK_OFF for a slot that runs a RING_PASS. -/
def State.ringCreditOf (s : State) (pos slot : Nat) (p : Pkt) : Option AgentNow :=
  match s.ringAgent pos slot with
  | some a => if p.addr = cStage a.cmd.desc ∧ p.words = 1 ∧ a.ringEnt.lane = 0 then some a else none
  | none => none

/-- A lane credit arrives (R265, R266, R170): it takes no tray word. -/
def State.ringCreditLane (s : State) (pos side : Nat) (ctl : BitVec 256) : State :=
  let key := 4 * pos + side
  let s := { s with eng := { s.eng with lanes := s.eng.lanes.set [] key ((s.eng.lanes.get [] key).erase (ctl, [])) } }
  let n := ctl.toNat
  if bitsOf n 45 42 = 1 ∧ n.testBit 46 then
    match s.slotOf pos (bitsOf n 11 0) with
    | some slot => s.ringCreditTake pos slot (bitsOf n 70 47)
    | none => s.count (rtrA pos Reg.DISC_BAD_CNT) 1
  else s

/-- RING_CREDIT (R265). -/
def execRingCredit (pos : Pos) (side : Nat) (ctl : BitVec 256) (s : State) : Out :=
  done (s.when (!s.stopped && s.inMesh pos && decide (side < 4)) fun t => t.ringCreditLane pos side ctl)

/-- A member frees buffer chunk `q` once ACK exceeds it and it has forwarded it, and sends a credit of q + 1 (R265). -/
def State.ringFree (s : State) (pos slot q : Nat) : State :=
  match s.ringAgent pos slot with
  | some a =>
    let d := a.cmd.desc
    let c := max 1 (ringChunks d)
    let k := a.coll
    let last := a.rcd.members.length - 2
    if q = k.freed ∧ q < k.run ∧ q < s.ringAck pos slot d ∧ (last ≤ q / c ∨ q + c < k.sent ∨ (q + c + 1 = k.sent ∧ k.outq.isEmpty)) ∧
        a.cmd.st = 2 ∧ a.cmd.stop = 0 then
      let p := a.ringCredit (s.slotCtx pos slot) (q + 1) a.prevLane
      s.setColl pos slot a.cmd { (k.push [p]) with freed := q + 1 }
    else s
  | none => s

/-- RING_CHUNK_FREE (R265). -/
def execRingChunkFree (pos : Pos) (slot q : Nat) (s : State) : Out := done (s.when (!s.stopped) fun t => t.ringFree pos slot q)

/-- Whether the ring pass is done (R267). -/
def State.ringDone (s : State) (pos slot : Nat) (a : AgentNow) : Bool :=
  decide (a.ringTotal ≤ a.coll.run) && decide (a.ringTotal ≤ a.coll.sent) && a.coll.outq.isEmpty &&
    decide (a.ringTotal ≤ s.ringAck pos slot a.cmd.desc)

end Sys2Proof.Machine
end

