-- ==== Sys2Proof/Machine/Collective.lean ====
section
/-! DEFINITION. Arming (R243, R244), aborts (R255), wash landings (R257 to R259) and barriers (R260 to R262). -/
namespace Sys2Proof.Machine

/-! ### Arming (R243, R244) -/

/-- The index that COLL_SEL names. -/
def State.collSel (s : State) : Nat := s.dieF Reg.COLL_SEL 5 0
/-- COLL_ARM_ID, COLL_ARM_TREE, COLL_ARM_CTX and VALID of an index. -/
def State.arm (s : State) (n : Nat) : ArmIndex := s.eng.arms.get ArmIndex.empty n
/-- The state with an index's registers replaced. -/
def State.setArm (s : State) (n : Nat) (a : ArmIndex) : State :=
  { s with eng := { s.eng with arms := s.eng.arms.set ArmIndex.empty n a } }
/-- TREE of an index. -/
def ArmIndex.treeNo (a : ArmIndex) : Nat := fld a.tree 15 0
/-- SUB of an index. -/
def ArmIndex.sub (a : ArmIndex) : Nat := fld a.tree 19 16
/-- DIST_CTX of an index. -/
def ArmIndex.distCtx (a : ArmIndex) : Nat := fld a.ctx 11 0

/-- Whether a command that names a COLL_ID is in service at some agent of the die. -/
def State.collBusy (s : State) (id : Nat) : Bool :=
  s.eng.cmds.any fun kc => kc.1 % 4 == 2 && dOp kc.2.desc != opTRIGGER && dPeer kc.2.desc == id

/-- The RELAY_MASK registers that an armed sub-tree needs on this die: position, register and contents (R85, R242). -/
def State.relayNeeds (s : State) (r : CollRec) (sub : Nat) : List (Nat × Nat × Word) :=
  ((r.distOf sub).filter fun e => e.relay && !e.mcCol && s.ownDie (dieOf e.dest)).flatMap fun e =>
    (setBits 32 e.mask.toNat).filterMap fun c =>
      (s.physical (adRow e.dest) c).map fun p => (mkPos (adRow e.dest) p, e.sel, e.rmask)

/-- The needs of every armed index but one. -/
def State.otherNeeds (s : State) (n : Nat) : List (Nat × Nat × Word) :=
  (s.eng.arms.filter fun kv => kv.1 != n && kv.2.valid).flatMap fun kv =>
    match s.collRec kv.2.treeNo with
    | some r => s.relayNeeds r kv.2.sub
    | none => []

/-- Whether a command names the COLL_ID that an index holds. -/
def State.indexBusy (s : State) (n : Nat) : Bool :=
  s.eng.copies.any fun kc => kc.1 % 64 == n && s.collBusy kc.2.id

/-- CODE of an arm: 0 where it is accepted (R243). -/
def State.armCode (s : State) (n : Nat) : Nat :=
  let a := s.arm n
  match s.collRec a.treeNo with
  | none => 1
  | some r =>
    if r.subs.length ≤ a.sub then 1
    else if (s.relayNeeds r a.sub).any fun x => (s.otherNeeds n).any fun y => y.1 == x.1 && y.2.1 == x.2.1 && y.2.2 != x.2.2 then 2
    else if s.indexBusy n || s.collBusy a.id.toNat then 3
    else if !s.ctxBound a.distCtx then 4
    else 0

/-- COLL_ARM_STAT after an arm or disarm: BUSY while its writes are made, ERR and CODE where it was refused. -/
def State.armStat (s : State) (code : Nat) : State :=
  let s := (s.setDieF Reg.COLL_ARM_STAT 7 0 code)
  if code = 0 then s.setDieF Reg.COLL_ARM_STAT 31 31 1 else s.setDieF Reg.COLL_ARM_STAT 8 8 1

/-- A barrier combiner entry. -/
def barLoA (pos n : Nat) : RegAddr := ⟨64, pos, Reg.W_BAR_LO n⟩
/-- Its high word. -/
def barHiA (pos n : Nat) : RegAddr := ⟨64, pos, Reg.W_BAR_HI n⟩
/-- Its count. -/
def barCountA (pos n : Nat) : RegAddr := ⟨64, pos, Reg.W_BAR_COUNT n⟩

/-- A barrier entry starts clean: no count, generation, signature or arrival. -/
def State.barClean (s : State) (pos n : Nat) : State :=
  let s := (s.setReg (barCountA pos n) 0).setRegF (barHiA pos n) 9 0 0
  { s with eng := { s.eng with barSig := s.eng.barSig.del (64 * pos + n), barNt := s.eng.barNt.del (64 * pos + n) } }

/-- A barrier entry as the panel easel cores write it (R261). -/
def State.armBar (s : State) (n : Nat) (e : BarEnt) : State :=
  let s := s.setReg (barLoA e.pos n) (BitVec.ofNat 32 e.expect)
  let s := s.setReg (barHiA e.pos n)
    (BitVec.ofNat 32 (2 ^ 31 + b2n e.root * 2 ^ 30 + e.parent * 2 ^ 26 + e.child * 2 ^ 17))
  s.barClean e.pos n

/-- The tile ports that hold a copy: members on this die with their index, and role tiles of any sub-tree. -/
def State.copyHolders (s : State) (r : CollRec) : List (Nat × Nat) :=
  let ms := (r.members.zipIdx).filterMap fun m => (s.memberPos m.1).map fun p => (p, m.2)
  let roles := r.subs.flatMap fun t => t.roles.map fun e => (e.pos, r.members.length)
  roles ++ ms

/-- An accepted arm: the writes of R244. -/
def State.armWrites (s : State) (n : Nat) (r : CollRec) : State :=
  let a := s.arm n
  let reds : List RedEnt := match r.subs[a.sub]? with | some t => t.reds | none => []
  let s := reds.foldl (fun t e => t.redTreeWrite e.pos n (BitVec.ofNat 32 (2 ^ 31 + e.mode * 2 ^ 29 + e.expect))) s
  let s := if a.sub = 0 then r.bars.foldl (fun t e => t.armBar n e) s else s
  let taken := s.otherNeeds n
  let s := (s.relayNeeds r a.sub).foldl (fun t x =>
    if taken.any fun y => y.1 == x.1 && y.2.1 == x.2.1 then t else t.setReg (rtrA x.1 (Reg.RELAY_MASK x.2.1)) x.2.2) s
  let copies := (s.copyHolders r).foldl (fun m x =>
    Store.put m (64 * x.1 + n) ⟨a.id.toNat, a.treeNo, a.sub, fld a.ctx 27 16, a.distCtx, x.2, 0⟩) s.eng.copies
  ({ s with eng := { s.eng with copies := copies } }).setArm n { a with valid := true }

/-- A disarm: the same entries with VALID = 0 (R244). -/
def State.disarmWrites (s : State) (n : Nat) : State :=
  let a := s.arm n
  let s := match s.collRec a.treeNo with
    | some r =>
      let reds : List RedEnt := match r.subs[a.sub]? with | some t => t.reds | none => []
      let s := reds.foldl (fun (t : State) (e : RedEnt) => t.redTreeWrite e.pos n 0) s
      if a.sub = 0 then r.bars.foldl (fun (t : State) (e : BarEnt) => (t.setRegF (barHiA e.pos n) 31 31 0).barClean e.pos n) s else s
    | none => s
  { s with eng := { s.eng with copies := s.eng.copies.keep fun k => k % 64 != n } }.setArm n { a with valid := false }

/-- A COLL_ARM_CTRL write (R243, R244). The master easel core does the work; while it is halted nothing happens. -/
def State.collArmWrite (s : State) (data : Word) : State :=
  let n := s.collSel
  if !s.masterRuns then s
  else if bit data 31 then
    let code := s.armCode n
    if code = 0 then
      match s.collRec (s.arm n).treeNo with
      | some r => (s.armWrites n r).armStat 0
      | none => s
    else s.armStat code
  else if s.indexBusy n then s.armStat 3
  else (s.disarmWrites n).armStat 0

/-- COLL_ARM (R244). -/
def execCollArm (acc : Access) (data : Word) (s : State) : Out :=
  done (guardedWrite acc (dieA Reg.COLL_ARM_CTRL) (fun t => t.collArmWrite (setBit data 31 true)) s)

/-- COLL_DISARM (R244). -/
def execCollDisarm (acc : Access) (data : Word) (s : State) : Out :=
  done (guardedWrite acc (dieA Reg.COLL_ARM_CTRL) (fun t => t.collArmWrite (setBit data 31 false)) s)

/-- COLL_ARM_DONE: every write has completed (R244). -/
def execCollArmDone (s : State) : Out := done (s.when (!s.stopped) fun t => t.setDieF Reg.COLL_ARM_STAT 31 31 0)

/-! ### Aborts (R255) -/

/-- Every agent of the die with a command for a COLL_ID ends it FAILED with a code; a sub-root discards its staging. -/
def State.collAbort (s : State) (id code : Nat) : State :=
  let index := ((List.find? (fun kv : Nat × ArmIndex => kv.2.id.toNat == id) s.eng.arms).map (·.1)).getD 0
  let s := s.traceEvent 0x0A (code % 256 + index * 2 ^ 8)
  let hit := s.eng.cmds.filter fun kc =>
    kc.1 % 4 == 2 && dOp kc.2.desc != opTRIGGER && dPeer kc.2.desc == id
  hit.foldl (fun t kc => t.endCommand (kc.1 / 256) (kc.1 / 4 % 64) 2 kc.2 stateFailed code) s

/-- The abort that the master easel core makes for a reduction index (R255). -/
def State.abortIndex (s : State) (n code : Nat) : State :=
  match (s.eng.copies.filter fun kc => kc.1 % 64 == n).head? with
  | some kc => if s.masterRuns then s.collAbort kc.2.id code else s
  | none => s

/-- A COLL_ABORT_CTRL write. -/
def State.collAbortWrite (s : State) (data : Word) : State :=
  let s := s.plainWrite (dieA Reg.COLL_ABORT_CTRL) data
  s.when (bit data 31) fun t => t.collAbort (t.die Reg.COLL_ABORT_ID).toNat (fld data 7 0)

/-- COLL_ABORT (R255). -/
def execCollAbort (acc : Access) (data : Word) (s : State) : Out :=
  done (guardedWrite acc (dieA Reg.COLL_ABORT_CTRL) (fun t => t.collAbortWrite data) s)

/-! ### Wash landings (R257 to R259) -/

/-- A landing entry of a tile port. -/
def washLandA (pos i : Nat) : RegAddr := ⟨64, pos, Reg.W_WASH_LAND i⟩

/-- The slot that takes a beat, where its landing takes it (R258). -/
def State.tapSlot (s : State) (pos side : Nat) : Option Nat :=
  let e := s.reg (washLandA pos (bitsOf side 19 16))
  let slot := fld e 29 24
  if bit e 31 && s.slotValid pos slot && s.slotJob pos slot == side % 65536 &&
      s.inAlloc pos slot (128 * bitsOf side 32 20) 128 then some slot
  else none

/-- A LAST beat counts, with CTR_ERR where a beat of its landing was dropped (R259). -/
def State.tapCount (s : State) (pos slot landing : Nat) (lost : Bool) : State :=
  let ccnt := fld (s.reg (washLandA pos landing)) 23 18
  let key := 16 * pos + landing
  let err := lost || s.eng.tapErr.get 0 key == 1
  let s := { s with eng := { s.eng with tapErr := s.eng.tapErr.set 0 key 0 } }
  (s.countAt pos slot ccnt err).washArrive pos slot landing ccnt

/-- A taken beat is written as four whole words (R258). -/
def State.tapWrite (s : State) (pos : Nat) (beat : List DataWord) : State :=
  let side := (beat.getD 4 0).toNat
  let landing := bitsOf side 19 16
  match s.tapSlot pos side with
  | none => s
  | some slot =>
    let (lost, s) := s.landWords pos slot (128 * bitsOf side 32 20) swWash (beat.take 4)
    let key := 16 * pos + landing
    let s := s.when lost fun t => { t with eng := { t.eng with tapErr := t.eng.tapErr.set 0 key 1 } }
    if side.testBit 33 then s.tapCount pos slot landing lost else s

/-- Whether the banks of a beat can take it now. -/
def State.tapFree (s : State) (pos : Nat) (beat : List DataWord) : Bool :=
  match s.tapSlot pos (beat.getD 4 0).toNat with
  | some slot => !s.banksBusy pos (s.allocBase pos slot + 128 * bitsOf (beat.getD 4 0).toNat 32 20) 128
  | none => true

/-- The beats that wait in a tap's buffer are written, oldest first, while their banks are free. -/
def State.tapDrain (s : State) (pos : Nat) : List (List DataWord) → State
  | [] => s
  | b :: rest =>
    if s.tapFree pos b then
      ({ s with eng := { s.eng with taps := s.eng.taps.set [] pos rest } }.tapWrite pos b).tapDrain pos rest
    else s

/-- A beat finds the buffer full (R259): counted, LOSS set; a LAST beat still counts, with CTR_ERR. -/
def State.tapDrop (s : State) (pos slot side : Nat) : State :=
  let landing := bitsOf side 19 16
  let s := s.count ⟨64, pos, Reg.W_WASH_LOSS⟩ 1
  let s := s.setRegF (washLandA pos landing) 30 30 1
  if side.testBit 33 then s.tapCount pos slot landing true
  else { s with eng := { s.eng with tapErr := s.eng.tapErr.set 0 (16 * pos + landing) 1 } }

/-- Whether a retired wash segment cuts a drop tap off (R416). Segment `c` below 32 is the trunk between columns `c` and
`c + 1`; `32 + p` the drop into position `p` from the row above; `1056 + p` the riser out of position `p`. -/
def State.washCut (s : State) (pos : Nat) : Bool :=
  let writer := s.time.wash.getD 0
  s.flt.retired.any fun x => x.1 == 3 &&
    (if x.2 < 32 then decide (colOf writer ≤ x.2) != decide (colOf pos ≤ x.2)
     else if x.2 < 1056 then colOf (x.2 - 32) == colOf pos && decide (rowOf (x.2 - 32) ≤ rowOf pos)
     else colOf (x.2 - 1056) == colOf writer && decide (rowOf (x.2 - 1056) ≤ rowOf writer))

/-- A wash beat reaches a drop tap (R258, R259); a fenced tile port ignores it (R418), and behind a retired segment it
counts as dropped (R416). -/
def State.washBeat (s : State) (pos : Nat) (beat : List DataWord) : State :=
  let s := s.tapDrain pos (s.eng.taps.get [] pos)
  let side := (beat.getD 4 0).toNat
  if s.fenced pos then s
  else match s.tapSlot pos side with
  | none => s.when (s.washCut pos) fun t => t.count ⟨64, pos, Reg.W_WASH_LOSS⟩ 1
  | some slot =>
    if s.washCut pos then s.tapDrop pos slot side
    else
    let waiting := s.eng.taps.get [] pos
    if waiting.isEmpty ∧ s.tapFree pos beat then s.tapWrite pos beat
    else if waiting.length < 64 then
      { s with eng := { s.eng with taps := s.eng.taps.set [] pos (waiting ++ [beat]) } }
    else s.tapDrop pos slot side

/-- WASH_BEAT (R258): four data words and the side word. -/
def execWashBeat (pos : Pos) (beat : List DataWord) (s : State) : Out :=
  done (s.when (!s.stopped && s.inMesh pos && !s.isSpare pos && decide (beat.length = 5)) fun t => t.washBeat pos beat)

/-! ### Barriers (R260 to R262) -/

/-- A barrier flit leaves a sketch router by a direction of R261: 1 to 4 mesh sides, 5 to 8 the spine lane of a side. -/
def State.barSend (s : State) (pos dir : Nat) (f : SFlit) : State :=
  if 1 ≤ dir ∧ dir ≤ 4 then
    if Config.hasLink s.config (rowOf pos) (colOf pos) (dir - 1) then
      let p := neighbour pos (dir - 1)
      s.sketchSend p { f with dest := s.physEndpoint p 31, src := s.physEndpoint pos 31 }
    else s
  else if 5 ≤ dir ∧ dir ≤ 8 then
    match s.edgePort pos (dir - 5) with
    | .spine g =>
      let f := { f with dest := endpoint aliasId (rowOf pos) (colOf pos) 31, src := s.physEndpoint pos 31 }
      { s with sketch := { s.sketch with edge := s.sketch.edge.set [] g (s.sketch.edge.get [] g ++ [f]) } }
    | _ => s
  else s

/-- The BAR_ARRIVE of a member (R260, R262). -/
def State.barArriveOf (s : State) (pos : Nat) (a : AgentNow) (gen : Nat) : SFlit :=
  { dest := s.physEndpoint pos 31, src := s.tileEndpoint pos 3, kvc := 2, stype := 5
    ctx := BitVec.ofNat 12 a.copy.distCtx, tag := BitVec.ofNat 16 (gen * 64 + a.coll.index), priv := 1
    body := BitVec.ofNat 256 (1 + s.capture.toNat * 2 ^ 32 + (signatureOf a.cmd.desc).toNat * 2 ^ 96) }

/-- A BARRIER starts: its arrival goes to its own router's combiner, and its step begins (R260). -/
def State.barrierStart (s : State) (pos slot : Nat) : State :=
  match s.agent? pos slot with
  | none => s
  | some a =>
    let f := s.barArriveOf pos a a.copy.gen
    ((s.draw.sketchSend pos f)).setColl pos slot a.cmd
      { a.coll with gen := a.copy.gen, sent := 1, due := a.coll.due.put 0 (s.stepDue a.cmd.desc) }

/-- RELEASE_NT, WAVE_SIZE, WAVE_INT and LAST_NT of a release (R262). -/
def State.releaseBody (s : State) (lastNt : Nat) : BitVec 256 :=
  let w := s.die Reg.BAR_WAVE
  let nt := s.capture.toNat + 32 * s.dieF Reg.BAR_TIMING 15 0
  BitVec.ofNat 256 (nt % 2 ^ 64 + min 256 (fld w 8 0) * 2 ^ 80 + fld w 31 16 * 2 ^ 96 + lastNt % 2 ^ 64 * 2 ^ 128)

/-- An arrival aborts the barrier as R237 aborts a reduction (R261): the entry is dead until it is written again. -/
def State.barAbort (s : State) (pos n sig : Nat) (f : SFlit) : State :=
  let old := s.eng.barSig.get 0 (64 * pos + n)
  let s := s.setReg (barCountA pos n) 0
  let s := { s with eng := { s.eng with barSig := s.eng.barSig.put (64 * pos + n) (2 ^ 33) } }
  s.raise Src.RED_SIG pos .sketchRouter 0 f.ctx.toNat ((old - 1) + sig * 2 ^ 32) f.tag.toNat

/-- The POWER_SLACK that a member's steward sends after a release whose index PWR_BAR_MASK sets: LAST_NT less the die's
own, in 32 ns units (R386, R388). -/
def State.sendSlack (s : State) (pos n gen last : Nat) : State :=
  let own := s.power.barOwn.get 0 (64 * pos + n)
  if bit (s.die Reg.PWR_GROUP_CFG) 31 && bit (s.die (Reg.PWR_BAR_MASK (n / 32))) (n % 32) && s.masterRuns then
    s.sketchSend 0
      { dest := endpoint (dieOf (s.die Reg.PWR_COORD)) 0 0 20, src := s.physEndpoint 0 20, kvc := 2, stype := 0x0A, ctx := 0
        tag := 0, priv := 1
        body := BitVec.ofNat 256 (min 0xFFFFFFFF ((last - own) / 512) + s.dieF Reg.PWR_SHIFT 15 0 * 2 ^ 32 +
          (gen + 1024 * n) * 2 ^ 48) }
  else s

/-- The combiner's count reaches EXPECT: combined upward, or released (R261). -/
def State.barComplete (s : State) (pos n total nt : Nat) (f : SFlit) : State :=
  let hi := s.reg (barHiA pos n)
  let sig := s.eng.barSig.get 0 (64 * pos + n) - 1
  let s := s.setReg (barCountA pos n) 0
  let s := { s with eng := { s.eng with barSig := s.eng.barSig.del (64 * pos + n) } }
  if bit hi 30 then
    let r := { f with stype := 7, body := s.releaseBody nt }
    let s := s.draw.traceEvent 6 (n + f.tag.toNat / 64 * 2 ^ 6)
    let s := s.sendSlack pos n (f.tag.toNat / 64) nt
    let s := (List.range 8).foldl (fun t i => if bit hi (18 + i) then t.barSend pos (i + 1) r else t) s
    s.when (bit hi 17) fun t => t.sketchSend pos { r with dest := t.physEndpoint pos 31, src := t.physEndpoint pos 31 }
  else
    s.barSend pos (fld hi 29 26) { f with stype := 6, body := BitVec.ofNat 256 (total + nt * 2 ^ 32 + sig * 2 ^ 96) }

/-- A BAR_ARRIVE or BAR_COMBINED is counted (R261). -/
def State.barCount (s : State) (pos : Nat) (f : SFlit) : State :=
  let n := f.tag.toNat % 64
  let gen := f.tag.toNat / 64
  let key := 64 * pos + n
  let sig := f.field 12 4
  let latched := s.eng.barSig.get 0 key
  if !bit (s.reg (barHiA pos n)) 31 ∨ latched = 2 ^ 33 then s
  else if latched ≠ 0 ∧ (latched - 1 ≠ sig ∨ fld (s.reg (barHiA pos n)) 9 0 ≠ gen) then s.barAbort pos n sig f
  else
    let s := s.when (latched == 0) fun t =>
      { t.setRegF (barHiA pos n) 9 0 gen with
        eng := { t.eng with barSig := t.eng.barSig.put key (sig + 1), barNt := t.eng.barNt.del key }
        power := { t.power with barOwn := t.power.barOwn.del key } }
    let total := (s.reg (barCountA pos n)).toNat + f.field 0 4 % 2 ^ 21
    let nt := max (s.eng.barNt.get 0 key) (f.field 4 8)
    let s := (s.setReg (barCountA pos n) (BitVec.ofNat 32 total))
    let own := max (s.power.barOwn.get 0 key) (if s.ownDie (dieOf f.src) then f.field 4 8 else 0)
    let s := { s with
      eng := { s.eng with barNt := s.eng.barNt.set 0 key nt }
      power := { s.power with barOwn := s.power.barOwn.set 0 key own } }
    if (s.reg (barLoA pos n)).toNat ≤ total then s.barComplete pos n total nt f else s

/-- A sketch flit that is acted on leaves the endpoint where it was delivered. -/
def State.takeFlit (s : State) (pos : Nat) (f : SFlit) : State :=
  { s with sketch := { s.sketch with arrived := s.sketch.arrived.erase (pos, f) } }

/-- BAR_ARRIVE (R261). -/
def execBarArrive (pos : Pos) (flit : SFlit) (s : State) : Out :=
  done (s.when (!s.stopped && s.inMesh pos && flit.stype.toNat == 5) fun t => (t.takeFlit pos flit).barCount pos flit)

/-- BAR_COMBINED (R261). -/
def execBarCombined (pos : Pos) (flit : SFlit) (s : State) : Out :=
  done (s.when (!s.stopped && s.inMesh pos && flit.stype.toNat == 6) fun t => (t.takeFlit pos flit).barCount pos flit)

/-- A member's rank among its die's members, in member-index order (R262). -/
def State.dieRank (s : State) (r : CollRec) (me : Nat) : Nat :=
  ((r.members.take me).filter fun m => s.ownDie (dieOf m)).length

/-- A release reaches a member: its generation rises, and its wave time is fixed; a release after that time ends it at
once and is counted (R260, R262). -/
def State.memberRelease (s : State) (pos n : Nat) (f : SFlit) : State :=
  let s := match s.eng.copies.find? (64 * pos + n) with
    | some cp => { s with eng := { s.eng with copies := s.eng.copies.put (64 * pos + n) { cp with gen := (cp.gen + 1) % 1024 } } }
    | none => s
  (List.range 64).foldl (fun t slot =>
    match t.agent? pos slot with
    | some a =>
      if dOp a.cmd.desc = opBARRIER ∧ a.coll.index = n ∧ a.coll.sent = 1 ∧ a.coll.wave = none ∧ a.cmd.stop = 0 then
        if f.field 8 1 ≠ 0 then t.setCmd pos slot 2 { a.cmd with stop := f.field 8 1 }
        else
          let size := f.field 10 2
          let wave := if size = 0 then 0 else t.dieRank a.rcd a.copy.me / size
          let nt := f.field 0 8 + 32 * t.dieF Reg.BAR_TIMING 31 16 + wave * 32 * f.field 12 2
          let t := t.when (decide (nt < t.ntNat)) fun u => u.count ⟨64, pos, Reg.W_BAR_LATE⟩ 1
          t.setColl pos slot a.cmd { a.coll with wave := some nt, due := [] }
      else t
    | none => t) s

/-- BAR_RELEASE: a combiner that is not ROOT forwards it to its CHILD sides; LOCAL delivers it (R261). -/
def State.barRelease (s : State) (pos : Nat) (f : SFlit) : State :=
  let n := f.tag.toNat % 64
  let hi := s.reg (barHiA pos n)
  if bit hi 31 then
    let s := s.when (!bit hi 30 && decide (5 ≤ fld hi 29 26)) fun t => t.sendSlack pos n (f.tag.toNat / 64) (f.field 16 8)
    let s := if bit hi 30 then s
      else (List.range 8).foldl (fun t i => if bit hi (18 + i) then t.barSend pos (i + 1) f else t) s
    s.when (bit hi 17) fun t => t.memberRelease pos n f
  else s

/-- BAR_RELEASE (R261). -/
def execBarRelease (pos : Pos) (flit : SFlit) (s : State) : Out :=
  done (s.when (!s.stopped && s.inMesh pos && flit.stype.toNat == 7) fun t => (t.takeFlit pos flit).barRelease pos flit)

/-- A member's wave time arrives: its BARRIER ends DONE with PROGRESS 1 (R260). -/
def State.barrierWave (s : State) (pos slot : Nat) : State :=
  match s.agent? pos slot with
  | some a =>
    match a.coll.wave with
    | some nt =>
      if dOp a.cmd.desc = opBARRIER ∧ nt ≤ s.ntNat ∧ a.cmd.st = 2 ∧ a.cmd.stop = 0 then
        s.endCommand pos slot 2 { a.cmd with coll := some { a.coll with run := 1 } } stateDone stDONE
      else s
    | none => s
  | none => s

/-- BARRIER_WAVE (R260). -/
def execBarrierWave (pos : Pos) (slot : Nat) (s : State) : Out := done (s.when (!s.stopped) fun t => t.barrierWave pos slot)

end Sys2Proof.Machine
end

