-- ==== Sys2Proof/Machine/Commands.lean ====
section
/-! DEFINITION. The engines at work: taking a command (R157, R162), timed and armed starts (R171, R172), the packets of
movers and message units (R163 to R167), injection (R92), the end of a command (R176), pre-emption (R183 to R186),
invalidation (R181) and scrubs (R187). -/
namespace Sys2Proof.Machine

/-! ### Starting -/

/-- LATE_START_CNT counts. -/
def State.lateStart (s : State) (pos : Nat) : State := s.count (tileA pos Reg.LATE_START_CNT) 1

/-- The step with which a collective begins: its first step's deadline, or its barrier arrival (R251, R260, R267). -/
def State.collStart (s : State) (pos slot : Nat) : State :=
  match s.agent? pos slot with
  | none => s
  | some a =>
    let d := a.cmd.desc
    if dOp d = opBARRIER then s.barrierStart pos slot
    else if (dOp d = opRING_PASS ∧ 0 < a.ringTotal) ∨ (dOp d ≠ opRING_PASS ∧ !a.sender) then
      (s.setColl pos slot a.cmd { a.coll with due := a.coll.due.put 0 (s.stepDue d) }).collAdvance pos slot
    else s

/-- A QUEUED command becomes RUNNING. A collective looks at its copies again (R245); a TRIGGER sends its flit (R172). -/
def State.startCommand (s : State) (pos slot q : Nat) (c : Cmd) : State :=
  let run := { c with st := 2, fire := 0 }
  if dOp c.desc = opTRIGGER then
    let s := s.sketchSend pos (s.armTrigOf pos slot c.desc)
    if descBits c.desc 22 0 0 = 1 then s.keep pos slot q run stateRunning 0
    else s.endCommand pos slot q run stateDone stDONE
  else match c.coll with
    | some k =>
      if s.copiesHold pos k.index (cNroot c.desc) (dPeer c.desc) then
        (s.keep pos slot q run stateRunning 0).collStart pos slot
      else s.endCommand pos slot q run stateFailed stBAD_CMD
    | none => s.keep pos slot q run stateRunning 0

/-- The code with which a command fails its checks, 0 for none (R162), and a collective's record. -/
def State.takeCheck (s : State) (pos slot q : Nat) (c : Cmd) : Nat × Option Coll :=
  let op := dOp c.desc
  if !opOfQueue q op then (stBAD_CMD, none)
  else if op ≤ 4 then (s.moverCheck pos slot c.desc, none)
  else if op = opMCAST then (s.mcastCheck pos slot c.desc, none)
  else if op = opWASH then (s.washCheck pos slot c.desc, none)
  else if op = opTRIGGER then (s.triggerCheck pos slot c.desc, none)
  else if op = opMSG_SEND ∨ op = opWELL_ADD then (s.msgCheck pos slot c.desc, none)
  else s.collCheck pos slot c

/-- Whether an engine takes a new command from a queue (R157). -/
def State.mayTake (s : State) (pos slot q : Nat) : Bool :=
  s.inMesh pos && decide (slot < 64) && decide (q < 4) && s.slotValid pos slot && bit (s.sqCfg pos slot q) 31 &&
    !bit (s.sqCtrl pos slot q) 2 && !bit (s.sqCtrl pos slot q) 3 && s.sqUsed pos slot q != 0 &&
    (s.cmd? pos slot q).isNone && !s.stopped && s.panelRuns pos && !s.fenced pos

/-- Queue entry index of HEAD, and its offset in the allocation (R156). -/
def State.headEntry (s : State) (pos slot q : Nat) : Nat × Nat :=
  let w := s.sqCfg pos slot q
  let i := s.sqHead pos slot q % 2 ^ sqLog w
  (i, 64 * fld w 19 6 + 64 * i)

/-- The 64 bytes of an entry as the engine reads them; whether a word was uncorrectable (R159, R198). -/
def State.readEntry (s : State) (pos slot off : Nat) : BitVec 512 × Bool × State :=
  let r := s.readRun pos slot off 64
  (BitVec.ofNat 512 (ofBytes r.1), r.2.1, r.2.2)

/-- Whether an opcode is one of R161's. -/
def opUsed (op : Nat) : Bool := (List.range 4).any fun q => opOfQueue q op

/-- A wash write waits QUEUED for its tile port to be the named writer (R34). -/
def State.washWaits (s : State) (pos : Nat) (d : BitVec 512) : Bool := dOp d == opWASH && !s.mayWash pos

/-- A command that passed its checks: QUEUED, then RUNNING unless it is timed, armed or a waiting wash write (R171,
R172, R175). -/
def State.accept (s : State) (pos slot q : Nat) (c : Cmd) : State :=
  let s := s.keep pos slot q c stateQueued 0
  if (s.cmd? pos slot q).isNone then s
  else if dArmed c.desc then s
  else if dTimed c.desc then
    if s.ntNat < dStart c.desc then s
    else (s.when (decide (dStart c.desc < s.ntNat)) fun t => t.lateStart pos).startCommand pos slot q c
  else if s.washWaits pos c.desc then s
  else s.startCommand pos slot q c

/-- The engine takes the entry at HEAD where it is one of an opcode, or of none (R157, R159, R162). -/
def State.takeCommand (s : State) (pos slot q op : Nat) : State :=
  if !s.mayTake pos slot q then s
  else
    let (i, off) := s.headEntry pos slot q
    let (d, ue, t) := s.readEntry pos slot off
    if ue then t.queueStop pos slot q
    else if dOp d ≠ op ∧ opUsed (dOp d) then s
    else
      let c := Cmd.take d i
      let (code, coll) := t.takeCheck pos slot q c
      if code ≠ 0 then t.endCommand pos slot q c stateFailed code
      else t.accept pos slot q { c with coll := coll }

/-- COPY (R163). -/
def execCopy (pos : Pos) (slot q : Nat) (s : State) : Out := done (s.when (!s.stopped) fun t => t.takeCommand pos slot q opCOPY)
/-- STRIDED (R163). -/
def execStrided (pos : Pos) (slot q : Nat) (s : State) : Out := done (s.when (!s.stopped) fun t => t.takeCommand pos slot q opSTRIDED)
/-- GATHER (R163). -/
def execGather (pos : Pos) (slot q : Nat) (s : State) : Out := done (s.when (!s.stopped) fun t => t.takeCommand pos slot q opGATHER)
/-- SCATTER (R163). -/
def execScatter (pos : Pos) (slot q : Nat) (s : State) : Out := done (s.when (!s.stopped) fun t => t.takeCommand pos slot q opSCATTER)
/-- MCAST (R165). -/
def execMcast (pos : Pos) (slot q : Nat) (s : State) : Out := done (s.when (!s.stopped) fun t => t.takeCommand pos slot q opMCAST)
/-- WASH_WRITE (R165). -/
def execWashWrite (pos : Pos) (slot q : Nat) (s : State) : Out := done (s.when (!s.stopped) fun t => t.takeCommand pos slot q opWASH)
/-- TRIGGER (R172). -/
def execTrigger (pos : Pos) (slot q : Nat) (s : State) : Out := done (s.when (!s.stopped) fun t => t.takeCommand pos slot q opTRIGGER)
/-- ALLREDUCE (R252). -/
def execAllreduce (pos : Pos) (slot q : Nat) (s : State) : Out := done (s.when (!s.stopped) fun t => t.takeCommand pos slot q opALLREDUCE)
/-- REDUCE_SCATTER (R252). -/
def execReduceScatter (pos : Pos) (slot q : Nat) (s : State) : Out := done (s.when (!s.stopped) fun t => t.takeCommand pos slot q opREDUCE_SCATTER)
/-- ALLGATHER (R250). -/
def execAllgather (pos : Pos) (slot q : Nat) (s : State) : Out := done (s.when (!s.stopped) fun t => t.takeCommand pos slot q opALLGATHER)
/-- BROADCAST (R259). -/
def execBroadcast (pos : Pos) (slot q : Nat) (s : State) : Out := done (s.when (!s.stopped) fun t => t.takeCommand pos slot q opBROADCAST)
/-- ALLTOALL (R250). -/
def execAlltoall (pos : Pos) (slot q : Nat) (s : State) : Out := done (s.when (!s.stopped) fun t => t.takeCommand pos slot q opALLTOALL)
/-- BARRIER (R260). -/
def execBarrier (pos : Pos) (slot q : Nat) (s : State) : Out := done (s.when (!s.stopped) fun t => t.takeCommand pos slot q opBARRIER)
/-- RING_PASS (R264). -/
def execRingPass (pos : Pos) (slot q : Nat) (s : State) : Out := done (s.when (!s.stopped) fun t => t.takeCommand pos slot q opRING_PASS)
/-- MSG_SEND (R167). -/
def execMsgSend (pos : Pos) (slot q : Nat) (s : State) : Out := done (s.when (!s.stopped) fun t => t.takeCommand pos slot q opMSG_SEND)
/-- WELL_ADD (R167). -/
def execWellAdd (pos : Pos) (slot q : Nat) (s : State) : Out := done (s.when (!s.stopped) fun t => t.takeCommand pos slot q opWELL_ADD)

/-- A TIMED command's START_NT, or the FIRE_NT of a trigger that has come, is reached (R171, R172). -/
def State.timedStart (s : State) (pos slot q : Nat) : State :=
  match s.cmd? pos slot q with
  | some c =>
    if c.st = 1 ∧ c.stop = 0 ∧ !s.preempting pos slot ∧ !s.stopped ∧ s.panelRuns pos ∧
        ((dTimed c.desc ∧ dStart c.desc ≤ s.ntNat) ∨ (c.fire ≠ 0 ∧ c.fire ≤ s.ntNat)) then
      s.startCommand pos slot q c
    else s
  | none => s

/-- TIMED_START (R171). -/
def execTimedStart (pos : Pos) (slot q : Nat) (s : State) : Out := done (s.when (!s.stopped) fun t => t.timedStart pos slot q)

/-! ### ARM_TRIG and ARM_ACK (R172) -/

/-- The slot that an ARM_TRIG starts commands of: that of its CTX, else that of its CTX's job. -/
def State.trigSlot (s : State) (pos : Nat) (f : SFlit) : Option Nat :=
  match s.slotOf pos f.ctx.toNat with
  | some k => some k
  | none => match s.jobOf f.ctx.toNat with
    | some j => s.slotOfJob pos j
    | none => none

/-- Whether an ARM_TRIG is one that R172 permits: Supervisor, or Tenant with a CTX of the same job. -/
def State.trigAllowed (s : State) (pos : Nat) (f : SFlit) : Bool :=
  f.priv == 1 || (match s.trigSlot pos f, s.jobOf f.ctx.toNat with
    | some k, some j => s.slotJob pos k == j
    | _, _ => false)

/-- The ARM_ACK that answers a trigger. -/
def State.armAckOf (s : State) (pos : Nat) (f : SFlit) (started ctx : Nat) : SFlit :=
  { dest := f.src, src := s.tileEndpoint pos 3, kvc := 1, stype := 4, ctx := f.ctx, tag := f.tag, priv := f.priv
    body := BitVec.ofNat 256 (started + ctx * 2 ^ 16) }

/-- The queues whose command an ARM_TRIG starts. -/
def State.armedQueues (s : State) (pos slot : Nat) (f : SFlit) : List Nat :=
  if s.preempting pos slot then []
  else (List.range 4).filter fun q => match s.cmd? pos slot q with
    | some c => c.st == 1 && c.stop == 0 && dArmed c.desc && c.fire == 0 && descBytes c.desc 8 2 == f.tag.toNat
    | none => false

/-- One armed command is fired: it starts at FIRE_NT, or at once. -/
def State.fireOne (s : State) (pos slot nt q : Nat) : State :=
  match s.cmd? pos slot q with
  | some c => if nt = 0 ∨ nt ≤ s.ntNat then s.startCommand pos slot q c else s.setCmd pos slot q { c with fire := nt }
  | none => s

/-- An ARM_TRIG arrives at a tile port. -/
def State.armTrig (s : State) (pos : Nat) (f : SFlit) : State :=
  if s.fenced pos then s.count (tileA pos Reg.TRIG_MISS_CNT) 1
  else if !s.trigAllowed pos f then
    s.raise Src.SKETCH_DISCARD pos .tilePort 0 f.ctx.toNat f.src.toNat 0
  else
    let slot := s.trigSlot pos f
    let qs := match slot with | some k => s.armedQueues pos k f | none => []
    let nt := f.field 0 8
    let s := match slot with | some k => qs.foldl (fun (t : State) q => t.fireOne pos k nt q) s | none => s
    let s := s.when qs.isEmpty fun t => t.count (tileA pos Reg.TRIG_MISS_CNT) 1
    if f.field 8 1 % 2 = 1 then
      s.sketchSend pos (s.armAckOf pos f qs.length (match slot with | some k => s.slotCtx pos k | none => f.ctx.toNat))
    else s

/-- ARM_TRIG (R172). -/
def execArmTrig (pos : Pos) (flit : SFlit) (s : State) : Out :=
  done (s.when (s.inMesh pos && flit.stype.toNat == 3 && !s.stopped) fun t => (t.takeFlit pos flit).armTrig pos flit)

/-- An ARM_ACK returns to the agent whose TRIGGER waits for it: the command ends DONE. -/
def State.armAck (s : State) (pos : Nat) (f : SFlit) : State :=
  let s := { s with eng := { s.eng with acks := s.eng.acks.put pos (f.field 0 2, f.field 2 2) } }
  match s.slotOf pos f.ctx.toNat with
  | some slot =>
    match s.cmd? pos slot 2 with
    | some c =>
      if dOp c.desc = opTRIGGER ∧ c.st = 2 ∧ c.stop = 0 ∧ descBytes c.desc 20 2 = f.tag.toNat then
        s.endCommand pos slot 2 { c with issued := f.field 0 2 } stateDone stDONE
      else s
    | none => s
  | none => s

/-- ARM_ACK (R172). -/
def execArmAck (pos : Pos) (flit : SFlit) (s : State) : Out :=
  done (s.when (s.inMesh pos && flit.stype.toNat == 4 && !s.stopped) fun t => (t.takeFlit pos flit).armAck pos flit)

/-! ### The next packet of a mover or message command -/

/-- Row, word within it, and words of the next packet: at most 2^PKT_LOG, within the row, and within a 4 KiB chunk of
virtual memory (R164). -/
def nextPiece (d : BitVec 512) (issued far : Nat) : Nat × Nat × Nat :=
  let w := max 1 (rowWords d)
  let i := issued / w; let j := issued % w
  let n := min (2 ^ dPktLog d) (w - j)
  let n := if dVirtual d && (dOp d ≤ 4) then min n (128 - (far + 32 * j) / 32 % 128) else n
  (i, j, n)

/-- The index of an element of a GATHER or SCATTER; whether its word was uncorrectable. -/
def State.indexAt (s : State) (pos slot : Nat) (d : BitVec 512) (i : Nat) : Nat × Bool × State :=
  if dOp d = opGATHER ∨ dOp d = opSCATTER then
    let r := s.readRun pos slot (dLocalStride d + 4 * i) 4
    (ofBytes r.1, r.2.1, r.2.2)
  else (i, false, s)

/-- Far address and local offset of row `i`, given its index (R163). -/
def rowAt (d : BitVec 512) (i index : Nat) : Nat × Nat :=
  match dOp d with
  | 0x02 => (dFar d + i * dFarStride d, dLocal d + i * dLocalStride d)
  | 0x03 | 0x04 => (dFar d + index * dFarStride d, dLocal d + i * dLen d)
  | _ => (dFar d, dLocal d)

/-- The header fields that every packet of a command takes from it (R160, R164). -/
def baseHeader (d : BitVec 512) (slot q vc ty : Nat) : Pkt :=
  { Pkt.zero with
    vc := BitVec.ofNat 3 vc
    cls := BitVec.ofNat 3 (dClass d)
    ty := BitVec.ofNat 4 ty
    ccnt := BitVec.ofNat 6 (dCcnt d)
    tag := BitVec.ofNat 16 (engineTag slot q)
    cnt := dCnt d
    cmplReq := dCmplReq d }

/-- TYPE_WORD with ADDR and RSP_CTX. -/
def addrWord (addr ctx : Nat) : BitVec 64 := BitVec.ofNat 64 (addr % 2 ^ 48 + ctx * 2 ^ 48)

/-! ### Injection (R92, R131, R143) -/

/-- Whether a tile port may inject a head of a VC now: no HOLD, gate open at POINT 14, the port's buffer of that VC
free, not fenced, clocks running. -/
def State.portOpen (s : State) (pos input point vc : Nat) : Bool :=
  !s.hold.testBit vc && s.gateOpen pos point vc && (s.vcb pos input vc).feed.isEmpty && !s.stopped && s.panelRuns pos

/-- A packet's flits enter its port's injection buffer, all at once (R92). -/
def State.feedPort (s : State) (pos input : Nat) (p : Pkt) : State :=
  let vc := p.vc.toNat
  let b := s.vcb pos input vc
  let flits := (List.range p.flits).map fun i => (⟨p, i, false⟩ : Flit)
  s.setVcb pos input vc
    ({ b with feed := b.feed ++ flits, shut := (injectPoint input).bind fun p => s.shutAt pos p vc }.settle (s.onOff pos))

/-- A context's packet is injected: SRC, SEQ and DEADLINE are stamped, the shaper is debited, energy charged (R62, R137,
R143, R389). -/
def State.injectCtx (s : State) (pos slot : Nat) (p : Pkt) : State :=
  let seq := fld (s.ctxWord pos slot 7) 23 0
  let p := { p with
    src := s.tileEndpoint pos 0
    seq := BitVec.ofNat 24 seq
    deadline := s.deadlineFor pos 0 14 p.vc.toNat }
  let s := s.setCtxWord pos slot 7 (setFld (s.ctxWord pos slot 7) 23 0 (seq + 1))
  let s := s.shaperDebit pos slot p.vc.toNat p.words
  (s.chargeInject pos (some slot) p).feedPort pos 0 p

/-- Whether a context's packet may be injected now. -/
def State.mayInject (s : State) (pos slot vc : Nat) : Bool :=
  s.portOpen pos 0 14 vc && s.shaperOk pos slot vc && !s.fenced pos && !s.preempting pos slot

/-- An uncorrectable source word: the packet is not sent, the command goes on and ends with DATA_LOSS (R198). -/
def Cmd.lossAt (c : Cmd) (n : Nat) : Cmd :=
  { c with issued := c.issued + n, lost := c.lost + n, fail := if c.fail = 0 then stDATA_LOSS else c.fail }

/-- Where a mover's packet goes: a remote tray, or the translated page of its virtual address. -/
inductive FarSide where
  | ready (dest : BitVec 32) (ctx addr : Nat)
  | walk (va : Nat)
  | fault (va : Nat)
deriving DecidableEq, Repr

/-- The far side of a mover packet (R164, R178 to R182). -/
def State.farSide (s : State) (pos slot : Nat) (d : BitVec 512) (addr : Nat) : FarSide × State :=
  if dVirtual d then
    let ctx := s.slotCtx pos slot
    let va := addr % 2 ^ 48
    match s.tlbFind pos ctx va with
    | some e =>
      if leafAllows e.leaf (!dReads d) then
        (.ready (s.memEndpoint pos (entPort e.leaf)) ctx (entAddr e.leaf + va % 2 ^ e.bits), s.tlbTouch pos e)
      else (.fault va, s)
    | none => (.walk (va / 4096 * 4096), s)
  else (.ready (BitVec.ofNat 32 (dPeer d)) (dPeerCtx d) addr, s)

/-- The next packet of a routed mover unicast is formed and injected (R163, R164). -/
def State.injectMover (s : State) (pos slot q : Nat) (c : Cmd) : State :=
  let d := c.desc
  let w := max 1 (rowWords d)
  let (index, ue, s) := s.indexAt pos slot d (c.issued / w)
  let (far, loc) := rowAt d (c.issued / w) index
  let (_, j, n) := nextPiece d c.issued far
  if ue then s.moved pos slot q (c.lossAt n)
  else match s.farSide pos slot d (far + 32 * j) with
    | (.walk va, s) => s.walkOn pos slot q c va
    | (.fault va, s) => s.xlateFault pos slot q c 2 va
    | (.ready dest ctx addr, s) =>
      let h := { baseHeader d slot q (dVc d) tyWRITE with
        dest := dest, ctx := BitVec.ofNat 12 ctx, tw := addrWord addr (s.slotCtx pos slot) }
      if dReads d then
        if !s.rdRoom pos slot then s
        else
          let p := Pkt.withPayload { h with ty := BitVec.ofNat 4 tyREAD_REQ }
            [BitVec.ofNat 256 (loc + 32 * j + (n - 1) * 2 ^ 48)]
          let seq := fld (s.ctxWord pos slot 7) 23 0
          let c := { c with issued := c.issued + n, reads := c.reads ++ [(seq, c.issued, n)], walk := none }
          (((s.injectCtx pos slot p).busy pos slot q).rdAdd pos slot).moved pos slot q c
      else
        let (bs, ue, s) := s.readRun pos slot (loc + 32 * j) (32 * n)
        if ue then s.moved pos slot q { (c.lossAt n) with walk := none }
        else
          ((s.injectCtx pos slot (Pkt.withPayload h (bytesWords n bs))).busy pos slot q).moved pos slot q
            { c with issued := c.issued + n, walk := none }

/-- The next flit of a lane transfer goes over its lane (R168, R170): one flit at a time, so that OFF stops the sender in
time. -/
def State.injectLane (s : State) (pos slot q : Nat) (c : Cmd) : State :=
  let d := c.desc
  match s.laneFar pos (dLane d) with
  | none => s
  | some far =>
    let key := 4 * far + (laneBack (dLane d) - 1)
    if s.eng.laneOff.get 0 key = 1 ∨ s.partTraining 1 (lanePart pos far (dLane d)) then s
    else
      let w := max 1 (rowWords d)
      let (index, ue, s) := s.indexAt pos slot d (c.issued / w)
      let (faddr, loc) := rowAt d (c.issued / w) index
      let j := c.issued % w
      let pk := 2 ^ dPktLog d
      let last' := min w ((j / pk + 1) * pk)
      let n := min 4 (last' - j)
      let (bs, ue', s) := s.readRun pos slot (loc + 32 * j) (32 * n)
      if ue || ue' then s.moved pos slot q (c.lossAt n)
      else
        let last := j + n == last'
        let ctl := BitVec.ofNat 256 (dPeerCtx d + b2n last * 2 ^ 12 + (n - 1) * 2 ^ 13 + b2n (dCnt d) * 2 ^ 15 +
          dCcnt d * 2 ^ 16 + (faddr + 32 * j) % 2 ^ 20 * 2 ^ 22)
        let l := s.eng.lanes.get [] key ++ [(ctl, bytesWords n bs)]
        let s := { s with eng := { s.eng with
          lanes := s.eng.lanes.set [] key l
          laneOff := s.eng.laneOff.set 0 key (if 10 ≤ l.length then 1 else s.eng.laneOff.get 0 key) } }
        ((s.charge pos (some slot) (s.dieF Reg.ENERGY_MODEL 31 24)).busy pos slot q).moved pos slot q { c with issued := c.issued + n }

/-- The next MC_WRITE of an MCAST (R165). -/
def State.injectMcast (s : State) (pos slot q : Nat) (c : Cmd) : State :=
  let d := c.desc
  let n := min (2 ^ dPktLog d) (rowWords d - c.issued)
  let (bs, ue, s) := s.readRun pos slot (dLocal d + 32 * c.issued) (32 * n)
  if ue then s.moved pos slot q (c.lossAt n)
  else
    let h := { baseHeader d slot q 3 tyMC_WRITE with
      dest := BitVec.ofNat 32 (dPeer d)
      ctx := BitVec.ofNat 12 (dPeerCtx d)
      mask := BitVec.ofNat 32 (descBytes d 44 4)
      mcCol := descBits d 22 0 0 == 1
      relay := descBits d 22 1 1 == 1
      tw := BitVec.ofNat 64 ((dFar d + 32 * c.issued) % 2 ^ 48 + s.slotCtx pos slot * 2 ^ 48 + descBits d 22 5 2 * 2 ^ 60) }
    ((s.injectCtx pos slot (Pkt.withPayload h (bytesWords n bs))).busy pos slot q).moved pos slot q { c with issued := c.issued + n }

/-- A wash beat leaves on the bus (R133, R257). -/
def State.washSent (s : State) (pos slot : Nat) : State :=
  { s with time := { s.time with washBeat := some s.ntNat } }.charge pos (some slot) (s.dieF Reg.ENERGY_MODEL 31 24)

/-- The next beat of a WASH_WRITE (R165, R257). -/
def State.injectWash (s : State) (pos slot q : Nat) (c : Cmd) : State :=
  let (_, ue, s) := s.readRun pos slot (dLocal c.desc + 32 * c.issued) 128
  if ue then s.moved pos slot q (c.lossAt 4)
  else ((s.washSent pos slot).busy pos slot q).moved pos slot q { c with issued := c.issued + 4 }

/-- The one packet of a MSG_SEND or WELL_ADD (R167). -/
def State.injectMsg (s : State) (pos slot q : Nat) (c : Cmd) : State :=
  let d := c.desc
  let n := totalWords d
  let (bs, ue, s) := s.readRun pos slot (dLocal d) (32 * n)
  if ue then s.moved pos slot q (c.lossAt n)
  else
    let well := dOp d == opWELL_ADD
    let tw := descBytes d 22 1 + (if well then descBytes d 36 2 * 2 ^ 8 + descBits d 23 3 0 * 2 ^ 24 else 0) +
      s.slotCtx pos slot * 2 ^ 48
    let h := { baseHeader d slot q 4 (if well then tyWELL_ADD else tyMSG) with
      dest := BitVec.ofNat 32 (dPeer d), ctx := BitVec.ofNat 12 (dPeerCtx d), tw := BitVec.ofNat 64 tw }
    ((s.injectCtx pos slot (Pkt.withPayload h (bytesWords n bs))).busy pos slot q).moved pos slot q { c with issued := n }

/-- The agent's next packet leaves, where it may: a mesh packet, a wash beat, or a ring flit on a lane (R247, R257,
R266). -/
def State.injectAgent (s : State) (pos slot : Nat) : Option State :=
  match s.agent? pos slot with
  | none => none
  | some a =>
    match a.coll.outq with
    | [] => none
    | p :: rest =>
      let gone := s.setColl pos slot a.cmd { a.coll with outq := rest }
      let next : Option State :=
        if p.ty = 15 then (if s.mayWash pos then some (gone.washSent pos slot) else none)
        else if p.ty = 14 ∨ p.ty = 13 then
          let dir := if p.ty = 14 then a.ringEnt.lane else p.tag.toNat
          match s.laneFar pos dir with
          | none => none
          | some far =>
            let key := 4 * far + (laneBack dir - 1)
            if (p.ty = 14 ∧ s.eng.laneOff.get 0 key = 1) ∨ s.partTraining 1 (lanePart pos far dir) then none
            else
              let l := gone.eng.lanes.get [] key ++ [(p.payload.headD 0, p.payload.tail)]
              some { gone with eng := { gone.eng with
                lanes := gone.eng.lanes.set [] key l
                laneOff := gone.eng.laneOff.set 0 key (if 10 ≤ l.length then 1 else gone.eng.laneOff.get 0 key) } }
        else if s.mayInject pos slot p.vc.toNat then some (gone.injectCtx pos slot p)
        else none
      next.map fun t => (t.busy pos slot 2).collAdvance pos slot

/-- The agent's turn: where nothing waits it begins its next chunk, and the first packet leaves in the same turn; while
that packet cannot leave, the chunk has not begun. -/
def State.agentTurn (s : State) (pos slot : Nat) : State :=
  match s.agent? pos slot with
  | none => s
  | some a =>
    if a.cmd.st ≠ 2 ∨ a.cmd.stop ≠ 0 then s
    else if !a.coll.outq.isEmpty then (s.injectAgent pos slot).getD s
    else
      let begun := if dOp a.cmd.desc = opRING_PASS then s.ringBegin pos slot else s.collBegin pos slot
      match begun.agent? pos slot with
      | some b => if b.coll.outq.isEmpty then begun else (begun.injectAgent pos slot).getD s
      | none => begun

/-- The VC of a command's own packets. -/
def cmdVc (d : BitVec 512) : Nat :=
  match dOp d with
  | 0x05 => 3
  | 0x30 | 0x31 => 4
  | _ => dVc d

/-- Whether a command in service issues no packet. -/
def State.injectStopped (s : State) (pos slot : Nat) (c : Cmd) : Bool :=
  s.fenced pos || s.preempting pos slot || s.stopped || c.stop != 0

/-- The status word of a command whose last packet has left its tile port since (R175). -/
def State.noteProgress (s : State) (pos slot q : Nat) : State :=
  match s.cmd? pos slot q with
  | some c => if s.injectStopped pos slot c then s else s.moved pos slot q c
  | none => s

/-- The next packet of the command in service at a queue is formed and injected. -/
def State.injectNext (s : State) (pos slot q : Nat) : State :=
  match s.cmd? pos slot q with
  | none => s
  | some c =>
    if s.injectStopped pos slot c then s
    else if q = 2 then s.agentTurn pos slot
    else if dOp c.desc = opWASH ∧ c.st = 1 ∧ !dTimed c.desc ∧ !dArmed c.desc then
      (if s.mayWash pos then s.startCommand pos slot q c else s)
    else if c.st ≠ 2 ∨ totalWords c.desc ≤ c.issued then s
    else if dOp c.desc = opWASH then (if s.mayWash pos then s.injectWash pos slot q c else s)
    else if dOp c.desc ≤ 4 ∧ dLane c.desc ≠ 0 then s.injectLane pos slot q c
    else if !s.mayInject pos slot (cmdVc c.desc) then s
    else if dOp c.desc ≤ 4 then s.injectMover pos slot q c
    else if dOp c.desc = opMCAST then s.injectMcast pos slot q c
    else s.injectMsg pos slot q c

/-- The next packet of the command in service at a queue is injected (R92, R158). -/
def State.injectQueue (s : State) (pos slot q : Nat) : State := (s.noteProgress pos slot q).injectNext pos slot q

/-- The router input of a port: LOCAL for the tile and for what the router itself forms, else its edge side. -/
def portInput (port : Nat) : Nat := if 16 ≤ port ∧ port < 20 then port - 7 else 0
/-- The stencil POINT of a port: 14 for the tile, the edge PORT's own number otherwise. -/
def portPoint (port : Nat) : Nat := if 16 ≤ port ∧ port < 20 then port else 14

/-- The answers and walker reads a port has formed: the first that may be injected leaves (R92, R154). A walker's read
takes its DEADLINE at injection. -/
def State.injectAnswer (s : State) (pos port : Nat) : State :=
  let port := answerPort port
  if port = 0 ∧ s.fenced pos then s
  else match takeFirst (fun (p : Pkt) => s.portOpen pos (portInput port) (portPoint port) p.vc.toNat) (s.answersAt pos port) with
    | none => s
    | some (p, rest) =>
      let p := if p.ty.toNat = tyREAD_REQ then { p with deadline := s.deadlineFor pos port (portPoint port) p.vc.toNat } else p
      { s with mesh := { s.mesh with answers := s.mesh.answers.set [] (32 * pos + port) rest } }.feedPort pos (portInput port) p

/-- PACKET_INJECT (R92). -/
def execPacketInject (pos : Pos) (port : Nat) (source : InjectFrom) (s : State) : Out :=
  done (s.when (!s.stopped && s.inMesh pos && (decide (port < 20) || port == 31)) fun t =>
    match source with
    | .queue slot q => t.injectQueue pos slot q
    | .answers => t.injectAnswer pos port)

/-! ### The end of a command (R159, R176) -/

/-- Whether the work of a RUNNING command is complete. -/
def State.workDone (s : State) (pos slot : Nat) (c : Cmd) : Bool :=
  match c.coll with
  | some _ =>
    match s.agent? pos slot with
    | some a =>
      if dOp c.desc = opBARRIER then false
      else if dOp c.desc = opRING_PASS then s.ringDone pos slot a
      else a.complete
    | none => false
  | none => dOp c.desc != opTRIGGER && decide (totalWords c.desc ≤ c.issued) && c.reads.isEmpty

/-- COMMAND_END: a stop, or the end of the work (R159, R176). -/
def State.commandEnd (s : State) (pos slot q : Nat) : State :=
  match s.cmd? pos slot q with
  | none => s
  | some c =>
    if s.preempting pos slot || s.stopped || (s.feedPkt pos slot q).isSome then s
    else if c.stop ≠ 0 then s.endCommand pos slot q c stateFailed c.stop
    else if c.st = 2 ∧ s.workDone pos slot c then
      if c.fail ≠ 0 then s.endCommand pos slot q c stateFailed c.fail else s.endCommand pos slot q c stateDone stDONE
    else s

/-- COMMAND_END (R176). -/
def execCommandEnd (pos : Pos) (slot q : Nat) (s : State) : Out := done (s.when (!s.stopped) fun t => t.commandEnd pos slot q)

/-! ### Pre-emption and resume (R183 to R186) -/

/-- The save record of an engine as it reads it; whether a word was uncorrectable. -/
def State.loadRecord (s : State) (pos slot q : Nat) : Nat × Bool × State :=
  let r := s.readRun pos slot (256 * fld (s.ctxWord pos slot 3) 11 0 + 64 * q) 64
  (ofBytes r.1, r.2.1, r.2.2)

/-- The agent's record after a reload: STEP and the saved deadline of its earliest step (R254). -/
def Coll.reload (k : Coll) (agent : Nat) : Coll :=
  { k with sent := agent % 2 ^ 28 }

/-- A command continues from its record (R185). -/
def Cmd.reload (c : Cmd) (rec' : Nat) : Cmd :=
  let row := bitsOf rec' 351 320; let word := bitsOf rec' 383 352
  let issued := match dOp c.desc with
    | 0x02 | 0x03 | 0x04 => row * max 1 (rowWords c.desc) + word
    | _ => bitsOf rec' 191 128
  let st := if bitsOf rec' 63 60 = stateQueued then 1 else 2
  match c.coll with
  | some k => { c with st := st, why := 0, walk := none, coll := some (k.reload (bitsOf rec' 447 384)) }
  | none => { c with st := st, why := 0, walk := none, issued := issued }

/-- An engine resumes: it reloads its record and reads its entry again; a record that disagrees with the entry ends the
command BAD_CMD, a record or entry that cannot be read DATA_LOSS, a passed step deadline TIMEOUT (R157, R185). -/
def State.resumeEngine (s : State) (pos slot q : Nat) (c : Cmd) : State :=
  let (r, ue, s) := s.loadRecord pos slot q
  let (d, ue', s) := s.readEntry pos slot (64 * fld (s.sqCfg pos slot q) 19 6 + 64 * (bitsOf r 79 64 % 2 ^ sqLog (s.sqCfg pos slot q)))
  if ue || ue' then s.endCommand pos slot q c stateFailed stDATA_LOSS
  else if entryCheck d ≠ bitsOf r 95 80 ∨ dOp d ≠ bitsOf r 103 96 then s.endCommand pos slot q c stateFailed stBAD_CMD
  else
    let saved := bitsOf r 427 412
    let late := match c.coll with
      | some k => !k.due.isEmpty && s.duePassed (saved + 1)
      | none => false
    if late then s.endCommand pos slot q c stateFailed stTIMEOUT
    else
      let c := { c with desc := d }.reload r
      s.keep pos slot q c (if c.st = 1 then stateQueued else stateRunning) 0

/-- Whether no packet of the tile port's engines is being injected. -/
def State.localIdle (s : State) (pos : Nat) : Bool := (List.range 6).all fun v => (s.vcb pos 0 v).feed.isEmpty

/-- An engine of a slot saves, or has nothing to save (R183, R186). -/
def State.saveEngine (s : State) (pos slot q : Nat) : State :=
  match s.cmd? pos slot q with
  | none => s.setSaved pos q
  | some c =>
    if c.st = 3 then s.setSaved pos q
    else s.savePaused pos slot q { c with walk := none } stPAUSED

/-- Every engine that has not saved does so once no packet is being injected. -/
def State.saveAll (s : State) (pos slot : Nat) : State :=
  (List.range 4).foldl (fun t q =>
    if (t.reg (tileA pos Reg.PREEMPT_STAT)).toNat.testBit q then t
    else if (t.cmd? pos slot q).isNone || t.localIdle pos then t.saveEngine pos slot q
    else t) s

/-- The engines' queues of a slot have HOLD written. -/
def State.holdQueues (s : State) (pos slot v : Nat) : State :=
  (List.range 4).foldl (fun t q => t.setRegF (tileA pos (Reg.SQ_CTRL slot q)) 2 2 v) s

/-- Resume of a slot's context: HOLD clears, and each engine paused by the pre-emption continues (R185, R186). -/
def State.resumeSlot (s : State) (pos slot : Nat) : State :=
  (List.range 4).foldl (fun t q =>
    match t.cmd? pos slot q with
    | some c => if c.st = 3 ∧ c.why = stPAUSED ∧ c.stop = 0 then t.resumeEngine pos slot q c else t
    | none => t) (s.holdQueues pos slot 0)

/-- A PREEMPT_CTRL write (R183, R185, R186). -/
def State.preemptWrite (s : State) (pos : Nat) (data : Word) : State :=
  let stat := tileA pos Reg.PREEMPT_STAT
  if bit (s.reg stat) 31 then
    s.when (bit data 31 || bit data 30) fun t => t.setRegF stat 29 29 1
  else
    let s := s.setReg (tileA pos Reg.PREEMPT_CTRL) (data &&& 0x3F)
    let slot := fld data 5 0
    if bit data 31 then
      let s := (s.setRegF stat 3 0 0).setRegF stat 31 31 1
      (s.holdQueues pos slot 1).saveAll pos slot
    else if bit data 30 then s.resumeSlot pos slot
    else s

/-- PREEMPT (R183). -/
def execPreempt (acc : Access) (pos : Pos) (data : Word) (s : State) : Out :=
  done (guardedWrite acc (tileA pos Reg.PREEMPT_CTRL) (fun t => t.preemptWrite pos data) s)

/-- PREEMPT_SAVE_DONE: every engine has saved, and BUSY clears (R183). -/
def execPreemptSaveDone (pos : Pos) (s : State) : Out :=
  let stat := tileA pos Reg.PREEMPT_STAT
  done (s.when (!s.stopped && bit (s.reg stat) 31) fun t =>
    let t := t.saveAll pos (fld (t.reg (tileA pos Reg.PREEMPT_CTRL)) 5 0)
    if fld (t.reg stat) 3 0 = 15 then t.setRegF stat 31 31 0 else t)

/-- PREEMPT_RESUME (R185). -/
def execPreemptResume (acc : Access) (pos : Pos) (data : Word) (s : State) : Out :=
  done (guardedWrite acc (tileA pos Reg.PREEMPT_CTRL) (fun t => t.preemptWrite pos (setBit data 30 true)) s)

/-! ### SQ_CTRL (R156, R159, R182) -/

/-- A SQ_CTRL write: STOPPED cleared restarts the queue, HOLD is stored, RESUME continues a command paused by a
translation fault, ABORT stops the command in service. -/
def State.sqCtrlWrite (s : State) (pos slot q : Nat) (data : Word) : State :=
  let s := s.plainWrite (tileA pos (Reg.SQ_CTRL slot q)) (if s.fenced pos then setBit data 3 false else data)
  let s := match s.cmd? pos slot q with
    | some c => if bit data 0 && c.stop == 0 then s.setCmd pos slot q { c with stop := stABORTED } else s
    | none => s
  match s.cmd? pos slot q with
  | some c =>
    if bit data 1 && c.st == 3 && c.why == stXLATE_FAULT && c.stop == 0 && !s.preempting pos slot then
      s.resumeEngine pos slot q c
    else s
  | none => s

/-- QUEUE_RESTART (R159). -/
def execQueueRestart (acc : Access) (pos : Pos) (slot q : Nat) (data : Word) (s : State) : Out :=
  done (guardedWrite acc (tileA pos (Reg.SQ_CTRL slot q)) (fun t => t.sqCtrlWrite pos slot q (setBit data 3 true)) s)

/-- XLATE_RESUME (R182). -/
def execXlateResume (acc : Access) (pos : Pos) (slot q : Nat) (data : Word) (s : State) : Out :=
  done (guardedWrite acc (tileA pos (Reg.SQ_CTRL slot q)) (fun t => t.sqCtrlWrite pos slot q (setBit data 1 true)) s)

/-- ABORT (R159). -/
def execAbort (acc : Access) (pos : Pos) (slot q : Nat) (data : Word) (s : State) : Out :=
  done (guardedWrite acc (tileA pos (Reg.SQ_CTRL slot q)) (fun t => t.sqCtrlWrite pos slot q (setBit data 0 true)) s)

/-! ### Invalidation (R181) -/

/-- A XLATE_INV write: GO removes the entries of a page, or of a context. -/
def State.xlateInvWrite (s : State) (pos : Nat) (data : Word) : State :=
  let s := s.plainWrite (tileA pos Reg.XLATE_INV) data
  if bit data 31 then
    let ctx := fld data 11 0
    let va := s.reg64 (tileA pos Reg.XLATE_INV_VA_LO)
    let hit (e : TlbEntry) : Bool :=
      e.ctx == ctx && (bit data 30 || (decide (e.page ≤ va) && decide (va < e.page + 2 ^ e.bits)))
    { s with eng := { s.eng with
      tlb := s.eng.tlb.set [] pos ((s.eng.tlb.get [] pos).filter fun e => !hit e)
      inval := s.eng.inval.set 0 pos 1 } }
  else s

/-- XLATE_INV (R181). -/
def execXlateInv (acc : Access) (pos : Pos) (data : Word) (s : State) : Out :=
  done (guardedWrite acc (tileA pos Reg.XLATE_INV) (fun t => t.xlateInvWrite pos data) s)

/-- XLATE_INV_DONE: every packet translated through the removed entries has been injected (R181). -/
def execXlateInvDone (pos : Pos) (s : State) : Out :=
  done (s.when (!s.stopped && s.eng.inval.get 0 pos == 1 && s.localIdle pos) fun t =>
    { t.setRegF (tileA pos Reg.XLATE_INV_STAT) 0 0 1 with eng := { t.eng with inval := t.eng.inval.set 0 pos 0 } })

/-! ### Scrubs (R187) -/

/-- Whether a valid slot's allocation overlaps a slot's last one. -/
def State.scrubClear (s : State) (pos slot : Nat) : Bool :=
  let (base, len) := s.trays.lastAlloc.get (0, 0) (64 * pos + slot)
  (List.range 64).all fun k => !s.slotValid pos k ||
    !(decide (base < s.allocBase pos k + s.allocLen pos k) && decide (s.allocBase pos k < base + len))

/-- A SCRUB_CTRL write: a GO on a valid slot is refused, one whose range is in use does nothing. -/
def State.scrubWrite (s : State) (pos : Nat) (data : Word) : State :=
  let s := s.setReg (tileA pos Reg.SCRUB_CTRL) (data &&& 0x3F)
  let slot := fld data 5 0
  if bit data 31 then
    if s.slotValid pos slot then s.tpFlag pos 2
    else if s.scrubClear pos slot then
      { s.setRegF (tileA pos Reg.SCRUB_STAT) 0 0 1 with
        trays := { s.trays with scrubbing := s.trays.scrubbing.set 0 pos (slot + 1) } }
    else s
  else s

/-- SCRUB (R187). -/
def execScrub (acc : Access) (pos : Pos) (data : Word) (s : State) : Out :=
  done (guardedWrite acc (tileA pos Reg.SCRUB_CTRL) (fun t => t.scrubWrite pos data) s)

/-- What a scrub zeroes: the last allocation, the counters and CTR_ERR, queue registers, record and cache entries (R187),
and ENERGY_s (R390). -/
def State.scrubSlot (s : State) (pos slot : Nat) : State :=
  let (base, len) := s.trays.lastAlloc.get (0, 0) (64 * pos + slot)
  let ctx := s.slotCtx pos slot
  let inRange (off : Nat) : Bool := decide (base ≤ off) && decide (off < base + len)
  let s := { s with
    trays := { s.trays with
      mem := s.trays.mem.keep fun k => !(k / 2 ^ 20 == pos && inRange (k % 2 ^ 20))
      bad := s.trays.bad.keep fun k => !(k / 2 ^ 15 == pos && inRange (32 * (k % 2 ^ 15))) }
    eng := { s.eng with tlb := s.eng.tlb.set [] pos ((s.eng.tlb.get [] pos).filter fun e => e.ctx != ctx) } }
  let s := { s.setReg64 (tileA pos (Reg.ENERGY_LO slot)) 0 with
    eng := { s.eng with energy := s.eng.energy.set 0 (64 * pos + slot) 0 }
    power := { s.power with seen := s.power.seen.set 0 (64 * pos + slot) 0 } }
  let s := (List.range 64).foldl (fun t n => t.setReg (tileA pos (Reg.CTR slot n)) 0) s
  let s := (s.setReg (tileA pos (Reg.CTR_ERR_LO slot)) 0).setReg (tileA pos (Reg.CTR_ERR_HI slot)) 0
  let s := (List.range 4).foldl (fun t q =>
    (((t.setReg (tileA pos (Reg.SQ_CFG slot q)) 0).setReg (tileA pos (Reg.SQ_TAIL slot q)) 0).setReg
      (tileA pos (Reg.SQ_HEAD slot q)) 0).setReg (tileA pos (Reg.SQ_CTRL slot q)) 0) s
  (List.range 16).foldl (fun t w => t.setCtxWord pos slot w 0) s

/-- SCRUB_DONE (R187). -/
def execScrubDone (pos : Pos) (s : State) : Out :=
  let n := s.trays.scrubbing.get 0 pos
  done (s.when (!s.stopped && n != 0) fun t =>
    let t := t.scrubSlot pos (n - 1)
    let t := { t with trays := { t.trays with scrubbing := t.trays.scrubbing.set 0 pos 0 } }
    (t.setRegF (tileA pos Reg.SCRUB_STAT) 0 0 0).setRegF (tileA pos Reg.SCRUB_STAT) 1 1 1)

end Sys2Proof.Machine
end

