-- ==== Sys2Proof/Machine/Delivery.lean ====
section
/-! DEFINITION. Packets delivered: WRITE, MC_WRITE, READ_REQ, READ_RSP, CMPL (R57, R63, R64, R149), neighbour lanes
(R168, R170), memory ports (R470 to R472), policers (R145) and the host ports' data path (R473). -/
namespace Sys2Proof.Machine

/-! ### Memory ports (R470 to R472) -/

/-- The key of a half. -/
def halfKey (pos side : Nat) : Nat := 4 * pos + side
/-- Whether an edge port is a memory port's half. -/
def State.isMem (s : State) (pos side : Nat) : Bool := match s.edgePort pos side with | .memory _ _ => true | _ => false
/-- Whether an edge port is a host port. -/
def State.isHost (s : State) (pos side : Nat) : Bool := match s.edgePort pos side with | .host _ => true | _ => false
/-- RST_N of a half is 0: 64 cycles of a block reset. -/
def State.halfInReset (s : State) (pos side : Nat) : Bool :=
  let at' := s.mem.resetAt.get 0 (halfKey pos side)
  at' != 0 && decide (s.cycle < at' - 1 + 64)
/-- The responses of a half are ignored: while RST_N is 0, and for 16 cycles after. -/
def State.halfDeaf (s : State) (pos side : Nat) : Bool :=
  let at' := s.mem.resetAt.get 0 (halfKey pos side)
  at' != 0 && decide (s.cycle < at' - 1 + 80)

/-- A free identifier of a half: the lowest that is neither outstanding nor quarantined. -/
def State.freeId (s : State) (pos side : Nat) : Option Nat :=
  (List.range 1024).find? fun i =>
    let k := 1024 * halfKey pos side + i
    (s.mem.reqs.find? k).isNone && !s.mem.quar.contains k

/-- Words that a memory request moves. -/
def memWords (p : Pkt) : Nat := if p.ty.toNat = tyREAD_REQ then bitsOf (p.payload.headD 0).toNat 55 48 + 1 else p.words

/-- The number of the memory port on a side. -/
def State.memPortNo (s : State) (pos side : Nat) : Nat := match s.edgePort pos side with | .memory k _ => k | _ => 0

/-- The level of a rail that a member group lies on (R381, R382). -/
def State.railLevel (s : State) (rail : Nat) : Nat := s.power.rail.get 0 rail

/-- What a domain's grant allows in one 10 µs period to each of `n` units at a cost in pJ, less one eighth for each rail
level; none where the steward caps nothing (R382, R384). -/
def State.domainAllows (s : State) (d cost n level : Nat) : Option Nat :=
  if !bit (s.die Reg.POWER_CTRL) 31 || cost * n == 0 then none
  else
    let grant := s.dieF (Reg.DOM_STAT d) 15 0
    let floor := s.dieF (Reg.DOM_LIMIT d) 15 0
    some ((grant - floor) * 10 ^ 6 / (cost * n) * (8 - level) / 8)

/-- Whether a memory port's cap lets a packet's words pass now: scheduled traffic always passes (R384). -/
def State.memRateOk (s : State) (pos side : Nat) (p : Pkt) : Bool :=
  s.gated p.vc.toNat ||
  (match s.domainAllows 1 (s.dieF Reg.ENERGY_MODEL2 31 16) (Config.mports s.config) (s.railLevel (s.dieF Reg.RAIL_EDGE 2 0)) with
  | none => true
  | some n => decide (s.power.memWords.get 0 (s.memPortNo pos side) + memWords p ≤ n))

/-- A request's words count toward the port's cap and the domain's draw, and are charged (R383, R384, R389). -/
def State.memSpend (s : State) (pos side : Nat) (p : Pkt) : State :=
  let k := s.memPortNo pos side
  let n := memWords p
  let s := s.chargeMem p n
  { s with power := { s.power with
      memAll := s.power.memAll + n
      memWords := if s.gated p.vc.toNat then s.power.memWords else s.power.memWords.set 0 k (s.power.memWords.get 0 k + n) } }

/-- A WRITE or READ_REQ becomes a request of its half; with every identifier in use, or beyond the port's cap, it waits. -/
def State.memRequest (s : State) (pos side : Nat) (p : Pkt) : State :=
  let t := s.takeIntake pos (16 + side) p
  if 128 < memWords p ∨ p.addr % 32 ≠ 0 then t.discardBad pos (16 + side) p
  else if s.halfInReset pos side || !s.memRateOk pos side p then s
  else match s.freeId pos side with
    | none => s
    | some i =>
      let t := t.memSpend pos side p
      { t with mem := { t.mem with reqs := t.mem.reqs.put (1024 * halfKey pos side + i) ⟨p, t.time.edges⟩ } }

/-- A request completes with a status: a READ_REQ answered by READ_RSP or CMPL, a WRITE by CMPL where asked (R57, R64). -/
def State.memComplete (s : State) (pos side : Nat) (p : Pkt) (status : Nat) (data : List DataWord) : State :=
  let port := 16 + side
  if p.ty.toNat = tyREAD_REQ ∧ status = stDONE then
    (s.pushAnswer pos port (s.readRspOf pos port p ((data ++ List.replicate (memWords p) 0).take (memWords p)))).draw
  else s.answer pos port p status

/-- The request leaves its identifier. -/
def State.memFree (s : State) (key : Nat) : State := { s with mem := { s.mem with reqs := s.mem.reqs.del key } }

/-- A memory response (R471). -/
def State.memResponse (s : State) (pos side id : Nat) (data : List DataWord) (status : Nat) : State :=
  let key := 1024 * halfKey pos side + id
  if s.halfDeaf pos side then s
  else if s.mem.quar.contains key then s.count (edgeA pos side Reg.MP_LATE_CNT) (max 1 (ceilDiv data.length 8))
  else match s.mem.reqs.find? key with
    | none => s
    | some r =>
      let p := r.pkt
      let s := s.memFree key
      if status = 0 then s.memComplete pos side p stDONE data
      else if status = 2 then
        (s.raise Src.PKT_DISCARD pos (.memoryPort side) 0 p.ctx.toNat p.src.toNat p.ctx.toNat).memComplete pos side p stBAD_CMD []
      else
        ((s.count (edgeA pos side Reg.MP_UE_CNT) 1).raise Src.MEM_UE pos (.memoryPort side) side p.ctx.toNat p.src.toNat
          p.ctx.toNat).memComplete pos side p stDATA_LOSS []

/-- MEM_RESPONSE (R471). -/
def execMemResponse (pos : Pos) (side id : Nat) (data : List DataWord) (status : BitVec 2) (s : State) : Out :=
  done (s.when (s.inMesh pos && s.isMem pos side && decide (id < 1024) && !s.stopped) fun t =>
    t.memResponse pos side id data status.toNat)

/-- MP_CFG.TIMEOUT in AON edges: 0 acts as 1 µs. -/
def State.memLimit (s : State) (pos side : Nat) : Nat := 100 * max 1 (fld (s.reg (edgeA pos side Reg.MP_CFG)) 15 0)

/-- A request that is not answered in time ends as for status 1, is counted, and its identifier is quarantined (R471). -/
def State.memTimeout (s : State) (pos side id : Nat) : State :=
  let key := 1024 * halfKey pos side + id
  match s.mem.reqs.find? key with
  | some r =>
    if r.edge + s.memLimit pos side ≤ s.time.edges then
      let p := r.pkt
      let s := s.memFree key
      let s := { s with mem := { s.mem with quar := key :: s.mem.quar } }
      let s := s.count (edgeA pos side Reg.MP_TO_CNT) 1
      (s.raise Src.MEM_UE pos (.memoryPort side) side p.ctx.toNat p.src.toNat p.ctx.toNat).memComplete pos side p stDATA_LOSS []
    else s
  | none => s

/-- MEM_TIMEOUT (R471). -/
def execMemTimeout (pos : Pos) (side id : Nat) (s : State) : Out :=
  done (s.when (s.inMesh pos && s.isMem pos side && !s.stopped) fun t => t.memTimeout pos side id)

/-- A block reset of a memory port's half (R403, R471): every READ_REQ is answered with DATA_LOSS, quarantines clear. -/
def State.memReset (s : State) (pos side : Nat) : State :=
  let mine := s.mem.reqs.filter fun kv => kv.1 / 1024 == halfKey pos side
  let s := mine.foldl (fun t kv =>
    let t := t.memFree kv.1
    if kv.2.pkt.ty.toNat = tyREAD_REQ then t.memComplete pos side kv.2.pkt stDATA_LOSS [] else t) s
  { s with mem := { s.mem with
    quar := s.mem.quar.filter fun k => k / 1024 != halfKey pos side
    resetAt := s.mem.resetAt.put (halfKey pos side) (s.cycle + 1) } }

/-! ### WRITE, MC_WRITE and READ_REQ -/

/-- Whether a payload lies inside a slot's allocation: ADDR[47:20] is 0 (R57, R149). -/
def State.landFits (s : State) (pos slot : Nat) (p : Pkt) : Bool :=
  decide (p.addr < 2 ^ 20) && s.inAlloc pos slot p.addr (32 * p.words)

/-- Whether a bank that a payload touches is being zeroed: the delivery waits (R199). -/
def State.landWaits (s : State) (pos slot : Nat) (p : Pkt) : Bool :=
  s.banksBusy pos (s.allocBase pos slot + p.addr) (32 * p.words)

/-- A WRITE at a tile port. -/
def State.writeTile (s : State) (pos : Nat) (p : Pkt) : State :=
  let t := s.takeIntake pos 0 p
  match s.unicastSlot pos p with
  | none => t.discardBad pos 0 p
  | some slot =>
    match s.ringCreditOf pos slot p with
    | some a => t.ringCreditWrite pos slot a p
    | none =>
      if !s.landFits pos slot p then t.discardBad pos 0 p
      else if s.landWaits pos slot p then s
      else
        let (lost, t) := t.landWords pos slot p.addr swMesh p.payload
        t.delivered pos slot 0 p lost

/-- A packet leaves a host port on HO (R473). -/
def State.toHost (s : State) (pos port : Nat) (p : Pkt) : State := s.takeIntake pos port p

/-- WRITE (R63): into the tray, a memory port, or on to the host. -/
def execWrite (pos : Pos) (pkt : Pkt) (s : State) : Out :=
  let port := adPort pkt.dest
  done (s.when (s.inMesh pos && pkt.ty.toNat == tyWRITE && !s.stopped) fun t =>
    if port < 16 then t.writeTile pos pkt
    else if t.isMem pos (port - 16) then t.memRequest pos (port - 16) pkt
    else if t.isHost pos (port - 16) then t.toHost pos port pkt
    else t)

/-- A multicast share delivered by job (R149); the agent hears of it (R247). -/
def State.mcShare (s : State) (pos : Nat) (p : Pkt) : State :=
  let t := s.takeIntake pos 0 p
  match s.jobSlot pos p with
  | none => t.discardBad pos 0 p
  | some slot =>
    if !s.landFits pos slot p then t.discardBad pos 0 p
    else if s.landWaits pos slot p then s
    else
      let (lost, t) := t.landWords pos slot p.addr swMesh p.payload
      (t.delivered pos slot 0 p lost).when (!lost) fun u => u.collArrive pos slot p

/-- MC_WRITE (R149). -/
def execMcWrite (pos : Pos) (pkt : Pkt) (s : State) : Out :=
  done (s.when (s.inMesh pos && pkt.ty.toNat == tyMC_WRITE && !s.stopped) fun t => t.mcShare pos pkt)

/-- A READ_REQ served by a tile port (R57): the words of the addressed context, or a CMPL where it cannot answer. -/
def State.readTile (s : State) (pos port : Nat) (p : Pkt) : State :=
  let t := s.takeIntake pos port p
  let n := memWords p
  match s.unicastSlot pos p with
  | none => t.discardBad pos port p
  | some slot =>
    if !(decide (p.addr < 2 ^ 20) && s.inAlloc pos slot p.addr (32 * n)) then t.discardBad pos port p
    else if s.banksBusy pos (s.allocBase pos slot + p.addr) (32 * n) then s
    else
      let (bs, ue, t) := t.readRun pos slot p.addr (32 * n)
      if ue then t.answer pos port p stDATA_LOSS
      else (t.pushAnswer pos 0 (t.readRspOf pos port p (bytesWords n bs))).draw

/-- READ_REQ (R57). -/
def execReadReq (pos : Pos) (pkt : Pkt) (s : State) : Out :=
  let port := adPort pkt.dest
  done (s.when (s.inMesh pos && pkt.ty.toNat == tyREAD_REQ && !s.stopped) fun t =>
    if port < 16 then t.readTile pos port pkt
    else if t.isMem pos (port - 16) then t.memRequest pos (port - 16) pkt
    else if t.isHost pos (port - 16) then t.toHost pos port pkt
    else t)

/-! ### READ_RSP and CMPL -/

/-- The command and read that a SEQ and TAG name. -/
def State.readOf (s : State) (pos slot : Nat) (tag seq : Nat) : Option (Nat × Cmd × Nat × Nat) :=
  let q := tag / 64
  match s.cmd? pos slot q with
  | some c => (c.reads.find? fun r => r.1 == seq).map fun r => (q, c, r.2.1, r.2.2)
  | none => none

/-- A read of a command comes back: it is no longer outstanding; one that failed leaves a gap and the first failing code
(R175, R176). -/
def State.readBack (s : State) (pos slot : Nat) (tag seq status : Nat) : State :=
  let s := s.rdSub pos slot
  match s.readOf pos slot tag seq with
  | some (q, c, first, _) =>
    let c := { c with reads := c.reads.filter fun r => r.1 != seq }
    let c := if status = stDONE then c
      else { c with
        fail := if c.fail = 0 then status else c.fail
        gap := some (match c.gap with | some g => min g first | none => first) }
    (s.when (status == stDONE) fun t => t.busy pos slot q).moved pos slot q c
  | none => s

/-- The walk that a response belongs to: TAG names its queue and slot (R164, R180). -/
def State.walkBack (s : State) (pos : Nat) (tag : Nat) (step : Walk → Bool → Walk) : State :=
  let slot := tag % 64; let q := tag / 64
  let s := s.rdSub pos slot
  match s.cmd? pos slot q with
  | some c =>
    match c.walk with
    | some w => if w.asked then s.setCmd pos slot q { c with walk := some (step w (!dReads c.desc)) } else s
    | none => s
  | none => s

/-- A READ_RSP lands at RET_ADDR and counts (R57, R63); a walker's read goes to its walk. -/
def State.readRsp (s : State) (pos : Nat) (p : Pkt) : State :=
  let t := s.takeIntake pos 0 p
  if p.ctx = 0 then
    let word := (p.payload.headD 0).toNat
    t.walkBack pos p.tag.toNat fun w write =>
      let lane := 8 * (w.addr % 32)
      w.advance (Config.mports s.config) write (BitVec.ofNat 64 (bitsOf word (lane + 63) lane))
  else match s.unicastSlot pos p with
    | none => t.discardBad pos 0 p
    | some slot =>
      if !s.landFits pos slot p then t.discardBad pos 0 p
      else if s.landWaits pos slot p then s
      else
        let (lost, t) := t.landWords pos slot p.addr swMesh p.payload
        let t := t.delivered pos slot 0 p lost
        t.readBack pos slot p.tag.toNat p.seq.toNat (if lost then stDATA_LOSS else stDONE)

/-- READ_RSP (R57). -/
def execReadRsp (pos : Pos) (pkt : Pkt) (s : State) : Out :=
  let port := adPort pkt.dest
  done (s.when (s.inMesh pos && pkt.ty.toNat == tyREAD_RSP && !s.stopped) fun t =>
    if port < 16 then t.readRsp pos pkt else t.toHost pos port pkt)

/-- A CMPL at a tile port (R64, R176, R177): it counts where CNT is set, with the error flag for any status but DONE. -/
def State.cmpl (s : State) (pos : Nat) (p : Pkt) : State :=
  let s := s.takeIntake pos 0 p
  let status := p.tword 7 0
  if p.ctx = 0 then s.walkBack pos p.tag.toNat fun w _ => { w with asked := false, kind := 5 }
  else match s.unicastSlot pos p with
    | none => s.discardBad pos 0 p
    | some slot =>
      let s := s.when p.cnt fun t => t.countAt pos slot p.ccnt.toNat (status != stDONE)
      let s := s.when p.cnt fun t => t.collCmpl pos slot p.ccnt.toNat
      if p.tword 43 40 = tyREAD_REQ then s.readBack pos slot p.tag.toNat (p.tword 39 16) status else s

/-- CMPL (R64). -/
def execCmpl (pos : Pos) (pkt : Pkt) (s : State) : Out :=
  let port := adPort pkt.dest
  done (s.when (s.inMesh pos && pkt.ty.toNat == tyCMPL && !s.stopped) fun t =>
    if port < 16 then t.cmpl pos pkt else t.toHost pos port pkt)

/-! ### Neighbour lanes (R168, R170) -/

/-- A flit leaves a lane receiver's buffer; the signal turns ON when 10 places are free (R170). -/
def State.takeLane (s : State) (pos side : Nat) (f : BitVec 256 × List DataWord) : State :=
  let key := halfKey pos side
  let l := (s.eng.lanes.get [] key).erase f
  { s with eng := { s.eng with
    lanes := s.eng.lanes.set [] key l
    laneOff := s.eng.laneOff.set 0 key (if l.length ≤ 6 then 0 else s.eng.laneOff.get 0 key) } }

/-- A lane's data flit is written into the tray; with CNT and LAST it counts (R168, R170). A ring-pass flit goes to the
agent as well (R266). -/
def State.laneFlit (s : State) (pos side : Nat) (ctl : BitVec 256) (payload : List DataWord) : State :=
  let n := ctl.toNat
  let words := payload.take (bitsOf n 14 13 + 1)
  let off := bitsOf n 41 22
  let t := s.takeLane pos side (ctl, payload)
  match s.slotOf pos (bitsOf n 11 0) with
  | none => t.count (rtrA pos Reg.DISC_BAD_CNT) 1
  | some slot =>
    if !s.inAlloc pos slot off (32 * words.length) then t.count (rtrA pos Reg.DISC_BAD_CNT) 1
    else if s.banksBusy pos (s.allocBase pos slot + off) (32 * words.length) then s
    else
      let (lost, t) := t.landWords pos slot off swLane words
      if lost then t.count (rtrA pos Reg.DISC_LOSS_CNT) 1
      else if bitsOf n 45 42 = 1 then
        match t.ringAgent pos slot with
        | some a =>
          let q := fullNumber a.coll.run (bitsOf n 70 47)
          let d := a.cmd.desc
          let at' := off - ringBuf d q
          t.ringLanded pos slot q (min (32 * words.length) (ringBytesOf d q - at')) at' (bitsOf n 92 71)
        | none => t
      else t.when (n.testBit 12 && n.testBit 15) fun u => u.countAt pos slot (bitsOf n 21 16) false

/-- LANE_FLIT (R170). -/
def execLaneFlit (pos : Pos) (side : Nat) (ctl : BitVec 256) (payload : List DataWord) (s : State) : Out :=
  done (s.when (s.inMesh pos && decide (side < 4) && decide (1 ≤ payload.length) && !s.stopped) fun t =>
    t.laneFlit pos side ctl payload)

/-! ### Policers (R145 to R147, R313) -/

/-- A policer's configuration at an edge port. -/
def policeCfgA (pos side i : Nat) : RegAddr := ⟨66, pos, 0x4000 * side + 4 * i⟩
/-- A policer's level in 1/16 B. -/
def policeLevelA (pos side i : Nat) : RegAddr := ⟨65, pos, 0x4000 * side + 4 * i⟩
/-- A spine die's port: drops of a policer. -/
def policePdropA (pos side i : Nat) : RegAddr := ⟨67, pos, 0x4000 * side + 4 * i⟩
/-- A spine die's port: policer of a context. -/
def policeMapA (pos side ctx : Nat) : RegAddr := ⟨68, pos, 0x4000 * side + ctx⟩

/-- A policer level in 1/16 B of a 32-bit store. -/
def State.policeLevel (s : State) (pos side i : Nat) : Nat := (s.reg (policeLevelA pos side i)).toNat

/-- The policer of a packet's CTX at a port: POLICER_ID of the context's record at its home; on a spine die the port's
own map (R145, R327). -/
def State.policerOf (s : State) (pos side ctx : Nat) : Nat :=
  if Config.spineRole s.config then (s.reg (policeMapA pos side ctx)).toNat
  else match s.homeOf ctx with
    | some h => match s.slotOf h ctx with
      | some k => fld (s.ctxWord h k 1) 23 16
      | none => 0
    | none => 0

/-- Whether a policer accepts a packet, and the state with its level debited or the drop counted (R145). -/
def State.police (s : State) (pos side : Nat) (p : Pkt) : Bool × State :=
  let ctx := p.ctx.toNat
  let i := s.policerOf pos side ctx
  let cfg := s.reg (policeCfgA pos side i)
  if (p.vc ≠ 1 ∧ p.vc ≠ 4) ∨ i = 0 ∨ fld cfg 31 16 = 0 then (true, s)
  else
    let need := 512 * p.words
    if need ≤ s.policeLevel pos side i then
      (true, s.setReg (policeLevelA pos side i) (BitVec.ofNat 32 (s.policeLevel pos side i - need)))
    else
      let s := s.count (edgeA pos side Reg.POLICE_DROP_CNT) 1
      let s := if Config.spineRole s.config then s.count (policePdropA pos side i) 1
        else match s.homeOf ctx with
          | some h => match s.slotOf h ctx with
            | some k => s.count ⟨64, h, Reg.W_CTX 13 k⟩ 1
            | none => s
          | none => s
      (false, s)

/-- One AON edge of a policer: the level rises by RATE, up to BURST (R143, R145). -/
def State.policeRefill (s : State) (pos side i : Nat) : State :=
  let cfg := s.reg (policeCfgA pos side i)
  s.setReg (policeLevelA pos side i)
    (BitVec.ofNat 32 (min (fld cfg 31 16 * 4096) (s.policeLevel pos side i + fld cfg 15 0)))

/-- A POLICE_CFG write for the selected policer: policer 0 stays disabled, a level above the new burst is clamped (R145,
R147). -/
def State.policeCfgWrite (s : State) (pos side : Nat) (data : Word) : State :=
  let i := fld (s.reg (edgeA pos side Reg.POLICE_SEL)) 7 0
  if i = 0 then s
  else
    let s := s.setReg (policeCfgA pos side i) data
    s.setReg (policeLevelA pos side i) (BitVec.ofNat 32 (min (fld data 31 16 * 4096) (s.policeLevel pos side i)))

/-! ### The host ports' data path (R473) -/

/-- The router and side of a host port. -/
def State.hostSite (s : State) (k : Nat) : Option (Nat × Nat) :=
  ((Config.edgeSites s.config).find? fun x => Config.edgePort s.config x.1 x.2.1 x.2.2 == .host k).map fun x =>
    (mkPos x.1 x.2.1, x.2.2)

/-- XDIE of a context, at its home. -/
def State.ctxXdie (s : State) (ctx : Nat) : Bool :=
  match s.homeOf ctx with
  | some h => match s.slotOf h ctx with
    | some k => s.slotXdie h k
    | none => false
  | none => false

/-- R150 for a host packet of Tenant privilege. -/
def State.hostAllowed (s : State) (ctx : Nat) (p : Pkt) : Bool :=
  decide (adPort p.dest < 16) &&
    (if s.ownDie (dieOf p.dest) then (s.jobOf ctx).isSome && s.jobOf ctx == s.jobOf p.ctx.toNat else s.ctxXdie ctx)

/-- A host packet is injected: SRC, SEQ of the port's stream and DEADLINE are written (R62, R137, R473). -/
def State.hostStamp (s : State) (k pos side ctx : Nat) (p : Pkt) : State :=
  let key := 4096 * k + ctx
  let n := s.mem.hostSeq.get 0 key
  let p := { p with
    seq := BitVec.ofNat 24 n
    deadline := s.deadlineFor pos (16 + side) (16 + side) p.vc.toNat }
  { s with mem := { s.mem with hostSeq := s.mem.hostSeq.set 0 key ((n + 1) % 2 ^ 24) } }.feedPort pos (9 + side) p

/-- The answer that a host port owes its own host: it waits at the port. -/
def State.answerHost (s : State) (pos side : Nat) (p : Pkt) (status : Nat) : State :=
  if p.answered then (s.arrive pos (16 + side) (s.cmplOf pos (16 + side) (s.creatorEp pos (16 + side)) p status)).draw else s

/-- A whole host packet on HI (R473): checked under R150, policed, stamped and injected. -/
def State.hostInject (s : State) (k : Nat) (tenant : Bool) (ctx : Nat) (p : Pkt) : State :=
  match s.hostSite k with
  | none => s
  | some (pos, side) =>
    let p := { p with src := s.physEndpoint pos (16 + side) }
    if tenant && !s.hostAllowed ctx p then s.answerHost pos side p stPRIV
    else if !s.portOpen pos (9 + side) (16 + side) p.vc.toNat then s
    else
      let (ok, t) := s.police pos side p
      if ok then t.hostStamp k pos side ctx p else t

/-- HOST_INJECT (R473). The data path exists on accelerator dies (R309). -/
def execHostInject (port : Nat) (priv : Priv) (ctx : BitVec 12) (pkt : Pkt) (s : State) : Out :=
  done (s.when (!Config.spineRole s.config && !s.stopped && pkt.payload.length == pkt.words) fun t =>
    t.hostInject port (priv == .tenant) ctx.toNat pkt)

/-- VC5_HELD: the host holds VC5 for more than 10 µs (R473). -/
def execVc5Held (port : Nat) (s : State) : Out :=
  done (match s.hostSite port with
    | some (pos, side) => s.setRegF (edgeA pos side Reg.HP_STAT) 31 31 1
    | none => s)

end Sys2Proof.Machine
end

