-- ==== Sys2Proof/Machine/Spine.lean ====
section
/-! DEFINITION. Spine port groups: their ports, lanes and registers (R269, R300 to R303), the training states (R284),
failed attempts and retrains (R290), marked lanes (R291), and circuit windows that are abandoned (R323). -/
namespace Sys2Proof.Machine

/-! ### Groups, ports and lanes -/

/-- Training states of R284. -/
abbrev spDISABLED : Nat := 0
/-- Waiting for signal. -/
abbrev spWAIT_PMA : Nat := 1
/-- Hunting codeword boundaries. -/
abbrev spLOCK : Nat := 2
/-- Exchanging IDENT. -/
abbrev spIDENT : Nat := 3
/-- Exchanging CAP and AGREE. -/
abbrev spNEGOTIATE : Nat := 4
/-- Aligning lanes. -/
abbrev spDESKEW : Nat := 5
/-- Exchanging beacons. -/
abbrev spTIME : Nat := 6
/-- Exchanging READY. -/
abbrev spCONFIRM : Nat := 7
/-- Data service. -/
abbrev spACTIVE : Nat := 8
/-- A lane is being spared. -/
abbrev spSPARING : Nat := 9
/-- Eye-safety hold. -/
abbrev spSAFETY_HOLD : Nat := 10
/-- No training. -/
abbrev spFAILED : Nat := 11

/-- Whether a group exists. -/
def State.spExists (s : State) (g : Nat) : Bool := (Config.spineSite s.config g).isSome
/-- Router and side of a group. -/
def State.spSite (s : State) (g : Nat) : Nat × Nat :=
  match Config.spineSite s.config g with
  | some (r, c, side) => (mkPos r c, side)
  | none => (0, 0)
/-- A register of a group. -/
def State.spA (s : State) (g off : Nat) : RegAddr := edgeA (s.spSite g).1 (s.spSite g).2 off
/-- A register of a group, read. -/
def State.spReg (s : State) (g off : Nat) : Word := s.reg (s.spA g off)
/-- A field of a group's register replaced. -/
def State.setSpF (s : State) (g off hi lo v : Nat) : State := s.setRegF (s.spA g off) hi lo v
/-- The group at a router's side. -/
def State.groupAt (s : State) (pos side : Nat) : Option Nat :=
  match s.edgePort pos side with
  | .spine g => some g
  | _ => none

/-- A port of a group. -/
def State.spPort (s : State) (g p : Nat) : SpPort := s.spine.ports.get SpPort.empty (8 * g + p)
/-- The state with a port replaced. -/
def State.setSpPort (s : State) (g p : Nat) (v : SpPort) : State :=
  { s with spine := { s.spine with ports := s.spine.ports.set SpPort.empty (8 * g + p) v } }
/-- A group. -/
def State.spGroup (s : State) (g : Nat) : SpGroup := s.spine.groups.get SpGroup.empty g
/-- The state with a group replaced. -/
def State.setSpGroup (s : State) (g : Nat) (v : SpGroup) : State :=
  { s with spine := { s.spine with groups := s.spine.groups.set SpGroup.empty g v } }

/-- WIDTH_LOG in use at a group: it is taken over at the next training (R269, R301). -/
def State.spWidthLog (s : State) (g : Nat) : Nat := (s.spGroup g).width
/-- Whether a group is a circuit group (R319). -/
def State.spCircuit (s : State) (g : Nat) : Bool := bit (s.spReg g Reg.SP_CIRC_CFG) 31
/-- Ports that a group forms (R269). -/
def State.spPorts (s : State) (g : Nat) : Nat := if s.spCircuit g then 1 else 2 ^ (3 - s.spWidthLog g)
/-- Whether a port exists. -/
def State.spHas (s : State) (g p : Nat) : Bool := s.spExists g && decide (p < s.spPorts g)

/-- SP_PORT_STAT.STATE (R284). -/
def State.spState (s : State) (g p : Nat) : Nat := fld (s.spReg g (Reg.SP_PORT_STAT p)) 31 28
/-- The state with STATE of a port changed. -/
def State.setSpState (s : State) (g p v : Nat) : State :=
  if s.spState g p = v then s
  else (s.setSpF g (Reg.SP_PORT_STAT p) 31 28 v).traceEvent 7 (g + p * 2 ^ 6 + v * 2 ^ 9)
/-- Whether a port trains: LOCK to CONFIRM. -/
def State.spTrains (s : State) (g p : Nat) : Bool := decide (spLOCK ≤ s.spState g p) && decide (s.spState g p ≤ spCONFIRM)

/-- Part number of a spine lane (R415). -/
def lanePart7 (g lane : Nat) : Nat := 16 * g + lane
/-- Whether a lane is retired (R291). -/
def State.laneDead (s : State) (g lane : Nat) : Bool := s.flt.retired.contains (7, lanePart7 g lane)
/-- Whether a lane may carry data: neither retired nor marked. -/
def State.laneUsable (s : State) (g lane : Nat) : Bool := !s.laneDead g lane && !(s.spGroup g).marked.testBit lane

/-- The physical lanes that a port trains on (R269): its own, and lane 8 where the group forms one port. -/
def State.portLanes (s : State) (g p : Nat) : List Nat :=
  let w := 2 ^ s.spWidthLog g
  ((List.range w).map fun j => p * w + j) ++
    (if s.spPorts g = 1 ∧ bit (s.spReg g Reg.SP_CTRL) 27 then [8] else [])

/-- Field of an AGREE body: physical lane of logical lane `j` (R285). -/
def agrLane (a : BitVec 256) (j : Nat) : Nat := bitsOf a.toNat (4 * j + 44) (4 * j + 41)
/-- WIDTH_LOG of an agreement. -/
def agrWidth (a : BitVec 256) : Nat := bitsOf a.toNat 18 16
/-- LOW of an agreement. -/
def agrLow (a : BitVec 256) : Bool := a.toNat.testBit 19
/-- LANE_MASK of an agreement. -/
def agrMask (a : BitVec 256) : Nat := bitsOf a.toNat 28 20
/-- SPARE of an agreement: 15 for none. -/
def agrSpare (a : BitVec 256) : Nat := bitsOf a.toNat 32 29
/-- VERSION of an agreement. -/
def agrVersion (a : BitVec 256) : Nat := bitsOf a.toNat 40 33
/-- An AGREE body. -/
def agrOf (width : Nat) (low : Bool) (lanes : List Nat) (spare version : Nat) : BitVec 256 :=
  let mask := lanes.foldl (fun m l => m ||| 2 ^ l) 0
  let map := (lanes.zipIdx).foldl (fun m x => m + x.1 * 2 ^ (4 * x.2 + 41)) 0
  BitVec.ofNat 256 (width * 2 ^ 16 + b2n low * 2 ^ 19 + mask * 2 ^ 20 + spare * 2 ^ 29 + version * 2 ^ 33 + map)
/-- The logical lanes of an agreement, in order. -/
def agrLanes (a : BitVec 256) : List Nat := (List.range (2 ^ agrWidth a)).map (agrLane a)

/-- The port that a lane belongs to: by the agreement of a port that uses it, else by its number. -/
def State.portOfLane (s : State) (g lane : Nat) : Option Nat :=
  let used := (List.range (s.spPorts g)).find? fun p =>
    (decide (spACTIVE ≤ s.spState g p) && (agrMask (s.spPort g p).agr).testBit lane) ||
      (match (s.spPort g p).sparing with | some x => x.lane == lane | none => false)
  match used with
  | some p => some p
  | none => (List.range (s.spPorts g)).find? fun p => (s.portLanes g p).contains lane

/-- TX_EN of a physical lane (R475): its port is not DISABLED, in SAFETY_HOLD or FAILED, and it is not retired. -/
def State.txEn (s : State) (g lane : Nat) : Bool :=
  !s.laneDead g lane && (match s.portOfLane g lane with
    | some p => !([spDISABLED, spSAFETY_HOLD, spFAILED].contains (s.spState g p))
    | none => false)

/-- The spare lane that a port may take now (R269, R292): the agreed one, or lane 8 where no port uses it. -/
def State.freeSpare (s : State) (g p : Nat) : Option Nat :=
  let a := (s.spPort g p).agr
  if agrSpare a < 9 then (if s.laneUsable g (agrSpare a) then some (agrSpare a) else none)
  else if 1 < s.spPorts g ∧ bit (s.spReg g Reg.SP_CTRL) 27 ∧ s.laneUsable g 8 ∧
      (List.range (s.spPorts g)).all (fun q => !(agrMask (s.spPort g q).agr).testBit 8 && (q == p || (s.spPort g q).sparing.isNone))
    then some 8
  else none

/-- A record of a group: its group in ARG0, port in ARG1 and lane in UNIT (R305, R329). -/
def State.spRaise (s : State) (src g p lane : Nat) : State :=
  s.raise src (s.spSite g).1 (.spineGroup g) lane 0 g p

/-- A flag of SP_FLAG_STAT. -/
def State.spFlag (s : State) (g i : Nat) : State := s.setSpF g Reg.SP_FLAG_STAT i i 1

/-! ### Circuits (R322, R323) -/

/-- The current circuit entry. -/
def State.circCur (s : State) (g : Nat) : Nat := fld (s.spReg g Reg.SP_CIRC_STAT) 31 28

/-- A circuit window is abandoned (R323): WAIT_PMA for the rest of it; counted, and reported. -/
def State.circAbandon (s : State) (g code : Nat) (partner : Bool) : State :=
  let n := s.circCur g
  let s := s.setSpState g 0 spWAIT_PMA
  let s := (s.setSpF g Reg.SP_CIRC_STAT 15 8 code).setSpF g Reg.SP_CIRC_STAT 27 27 0
  let s := s.count (s.spA g Reg.SP_CIRC_MISS_CNT) 1
  let s := match s.spine.circ.find? g with
    | some w => { s with spine := { s.spine with circ := s.spine.circ.put g { w with lost := true } } }
    | none => s
  s.raise (if partner then Src.CIRCUIT_PARTNER else Src.CIRCUIT_MISS) (s.spSite g).1 (.spineGroup g) 0 0 g n

/-- CACHED of the current entry clears (R323). -/
def State.circUncache (s : State) (g : Nat) : State := s.setSpF g (Reg.SP_CIRC_AGR (s.circCur g)) 14 14 0

/-! ### Discards, failures and retrains (R290) -/

/-- A packet discarded at a port that is FAILED or in SAFETY_HOLD: counted, and answered with FENCED. -/
def State.spDiscard (s : State) (g : Nat) (p : Pkt) : State :=
  let site := s.spSite g
  (s.count (s.spA g Reg.SP_DISC_CNT) 1).answer site.1 (16 + site.2) p stFENCED

/-- A port loses its replay and ingress buffers, and every packet that waits for it. -/
def State.spDrop (s : State) (g p : Nat) : State :=
  let v := s.spPort g p
  let s := v.tx.foldl (fun t x => t.spDiscard g x.1) s
  s.setSpPort g p { SpPort.empty with fails := v.fails, fallback := v.fallback, bseq := v.bseq, t1 := v.t1, dist := v.dist }

/-- A lane group's training marks clear as its port starts again. -/
def State.clearLanes (s : State) (g p : Nat) : State :=
  let v := s.spGroup g
  let keep (m : Nat) : Nat := (s.portLanes g p).foldl (fun m l => if m.testBit l then m - 2 ^ l else m) m
  s.setSpGroup g { v with
    locked := keep v.locked, ident := keep v.ident, seen := keep v.seen, assigned := keep v.assigned
    rxLane := v.rxLane.filter fun x => !(s.portLanes g p).contains x.1
    relock := v.relock.filter fun x => !(s.portLanes g p).contains x.1 }

/-- A port enters LOCK. -/
def State.enterLock (s : State) (g p : Nat) : State :=
  let s := (s.clearLanes g p).setSpState g p spLOCK
  let v := s.spPort g p
  s.setSpPort g p { v with
    trainFrom := s.time.edges, lockFrom := s.time.edges, cap := none, exch := [], sparing := none }

/-- Whether a lane of the port reports signal detect and clock-recovery lock. -/
def State.portSignal (s : State) (g p : Nat) : Bool :=
  (s.portLanes g p).any fun l => (s.spGroup g).sig.testBit l && s.laneUsable g l

/-- A port enters WAIT_PMA, and LOCK at once where a lane already has signal; a circuit port waits for its window (R284,
R323). -/
def State.enterWait (s : State) (g p : Nat) : State :=
  let s := (s.clearLanes g p).setSpState g p spWAIT_PMA
  let s := s.setSpPort g p { s.spPort g p with cap := none, exch := [], sparing := none }
  let window := match s.spine.circ.find? g with
    | some w => !w.lost && !w.closed
    | none => false
  if s.portSignal g p && (!s.spCircuit g || window) then s.enterLock g p else s

/-- A port enters FAILED: LINK_FAIL, and its buffers go (R290). -/
def State.enterFailed (s : State) (g p : Nat) : State :=
  ((s.setSpState g p spFAILED).spDrop g p).spRaise Src.LINK_FAIL g p 0

/-- A failed attempt (R290): LAST_FAIL, one more attempt, WAIT_PMA again, or FAILED after RETRAIN_MAX in a row. A circuit
port's window is abandoned instead. -/
def State.spFail (s : State) (g p code : Nat) : State :=
  if s.spCircuit g then s.circAbandon g code false
  else
    let s := s.setSpF g (Reg.SP_PORT_STAT p) 15 8 code
    let s := s.count (s.spA g (Reg.SP_RETRAIN_CNT p)) 1
    let v := s.spPort g p
    let s := s.setSpPort g p { v with fails := v.fails + 1 }
    if max 1 (fld (s.spReg g Reg.SP_LINK_CFG) 31 24) ≤ v.fails + 1 then s.enterFailed g p else s.enterWait g p

/-- A retrain from ACTIVE goes straight to LOCK and keeps the buffers (R290); a circuit window is abandoned. -/
def State.spRetrain (s : State) (g p code lane : Nat) : State :=
  if s.spCircuit g then s.circAbandon g code false
  else
    let s := s.when (code != 0) fun t => t.setSpF g (Reg.SP_PORT_STAT p) 15 8 code
    let s := s.count (s.spA g (Reg.SP_RETRAIN_CNT p)) 1
    let s := s.setSpPort g p { s.spPort g p with kept := true }
    (s.enterLock g p).spRaise Src.LINK_RETRAIN g p lane

/-- RETRAIN of every port of a group (R301): each starts at WAIT_PMA; the attempt counts and FAILED clear. Nothing
happens to a port in SAFETY_HOLD (R306) or DISABLED. -/
def State.spRetrainGroup (s : State) (g : Nat) : State :=
  (List.range (s.spPorts g)).foldl (fun t p =>
    let st := t.spState g p
    if st = spSAFETY_HOLD ∨ st = spDISABLED then t
    else
      let v := t.spPort g p
      let kept := v.kept || st == spACTIVE || st == spSPARING
      let t := t.setSpPort g p { v with fails := 0, fallback := false, kept := kept }
      (t.when (st == spACTIVE || st == spSPARING) fun u => u.spRaise Src.LINK_RETRAIN g p 0).enterWait g p) s

/-! ### Marked lanes (R291, R292) -/

/-- A lane retires until PORST_N. -/
def State.retireLane (s : State) (g lane : Nat) : State :=
  let s := { s with flt := { s.flt with retired := s.flt.retired ++ [(7, lanePart7 g lane)] } }
  let a := Reg.LANE_STAT lane
  let s := (((s.setSpF g a 31 31 0).setSpF g a 30 30 0).setSpF g a 29 29 1).setSpF g a 27 24 15
  let v := s.spGroup g
  s.setSpGroup g { v with marked := if v.marked.testBit lane then v.marked - 2 ^ lane else v.marked }

/-- A lane waits for its retirement. -/
def State.noteMark (s : State) (g lane : Nat) : State :=
  let v := s.spGroup g
  s.setSpGroup g { v with marked := v.marked ||| 2 ^ lane }

/-- This end asks for a sparing: SPARE_REQ goes to the partner (R292, step 1). -/
def State.startSparing (s : State) (g p lane : Nat) : State :=
  let v := s.spPort g p
  let w := BitVec.ofNat 256 (0x05 + 0x06 * 2 ^ 8 + lane * 2 ^ 16)
  (s.setSpState g p spSPARING).setSpPort g p { v with
    ctl := v.ctl ++ [w], sparing := some ⟨lane, s.time.edges, true, false⟩ }

/-- A lane is marked for retirement (R291). An ACTIVE port with a spare spares it; without one it retrains at a lower
width; a training port goes on without it; the spare itself just retires (R306). A circuit port's current entry loses
its cache (R326). -/
def State.markLane (s : State) (g lane : Nat) : State :=
  if !s.spExists g || !s.laneUsable g lane || decide (8 < lane) then s
  else match s.portOfLane g lane with
    | none => s.retireLane g lane
    | some p =>
      let v := s.spPort g p
      if s.spCircuit g then (s.circUncache g).retireLane g lane
      else if s.spState g p = spACTIVE then
        if agrSpare v.agr = lane then
          (s.retireLane g lane).setSpPort g p { v with
            agr := agrOf (agrWidth v.agr) (agrLow v.agr) (agrLanes v.agr) 15 (agrVersion v.agr) }
        else if !(agrMask v.agr).testBit lane then s.retireLane g lane
        else if (s.freeSpare g p).isSome then (s.noteMark g lane).startSparing g p lane
        else (s.retireLane g lane).spRetrain g p 0 lane
      else if s.spState g p = spSPARING then s.noteMark g lane
      else s.retireLane g lane

/-- The lanes marked meanwhile are spared or excluded at the next opportunity (R293). -/
def State.spareNext (s : State) (g p : Nat) : State :=
  match (List.range 9).find? fun l => (s.spGroup g).marked.testBit l && (agrMask (s.spPort g p).agr).testBit l with
  | none => s
  | some l =>
    if (s.freeSpare g p).isSome then s.startSparing g p l else (s.retireLane g l).spRetrain g p 0 l

end Sys2Proof.Machine
end

