-- ==== Sys2Proof/Machine/Frames.lean ====
section
/-! DEFINITION. Phiza words and frames (R271 to R281): what a port sends and accepts, replay, flow control across the link
(R282), and packets that enter and leave the die (R276, R312 to R314, R327). -/
namespace Sys2Proof.Machine

/-! ### Words (R274 to R277) -/

/-- CTYPE of a control word. -/
def ctype (w : DataWord) : Nat := w.toNat % 256
/-- Bits `[hi:lo]` of a control word. -/
def wordBits (w : DataWord) (hi lo : Nat) : Nat := bitsOf w.toNat hi lo

/-- The LINK field of a port: ACK_SEQ, NAK, OFF and K0_OFF, in place (R274). -/
def SpPort.link (v : SpPort) : Nat :=
  (v.ackSeq % 2 ^ 24 + b2n v.nak * 2 ^ 24 + v.off % 128 * 2 ^ 25) * 2 ^ 192

/-- A control word with the port's LINK field. -/
def SpPort.control (v : SpPort) (w : DataWord) : PhizaWord :=
  (true, BitVec.ofNat 256 (w.toNat % 2 ^ 192 + v.link))

/-- An IDLE word. -/
def SpPort.idle (v : SpPort) : PhizaWord := v.control 0
/-- The two data words of a sketch flit (R277). -/
def sketchWords (f : SFlit) : List PhizaWord :=
  [(false, BitVec.ofNat 256 (f.header.toNat + f.body.toNat % 2 ^ 128 * 2 ^ 128)), (false, BitVec.ofNat 256 (f.body.toNat / 2 ^ 128))]
/-- The sketch flit that two data words spell. -/
def sketchOf (a b : DataWord) : SFlit :=
  SFlit.ofHeader (BitVec.ofNat 128 a.toNat) (BitVec.ofNat 256 (a.toNat / 2 ^ 128 + b.toNat % 2 ^ 128 * 2 ^ 128))

/-- Whether a frame is a hold frame, whose words are all HOLD (R279); in a sparing its messages ride with them (R292). -/
def holdFrame (sparing : Bool) (ws : List PhizaWord) : Bool :=
  ws.all fun w => w.1 && (ctype w.2 == 6 || (sparing && ctype w.2 == 5))

/-- Words of a frame (R272): 20 on each lane in FULL framing, one striped codeword of 20 in LOW. -/
def SpPort.frameWords (v : SpPort) : Nat := if agrLow v.agr then 20 else 20 * 2 ^ agrWidth v.agr

/-- Frames in the replay window (R280, R288): 76 in FULL framing and 76 × W in LOW, or the partner's WINDOW where it is
smaller. -/
def SpPort.window (v : SpPort) : Nat :=
  let far := match v.cap with | some c => min 76 (bitsOf c.toNat 134 127) | none => 76
  if agrLow v.agr then far * 2 ^ agrWidth v.agr else far

/-! ### Sending (R276 to R280) -/

/-- Whether a class is OFF at the partner. -/
def SpPort.classOff (v : SpPort) (c : Nat) : Bool := v.farOff.testBit c

/-- The next data flit of a packet, with VC_SWITCH where the VC changes: a head flit's control block goes first (R276). -/
def SpPort.flitUnit (v : SpPort) (p : Pkt) (sent : Nat) : List PhizaWord × Nat :=
  let vc := p.vc.toNat
  let sw : List PhizaWord := if v.txVc = some vc then [] else [v.control (BitVec.ofNat 256 (1 + vc * 2 ^ 8))]
  let head : List PhizaWord := if sent = 0 then [(false, p.header)] else []
  let body := ((p.payload.drop sent).take 4).map fun w => ((false, w) : PhizaWord)
  (sw ++ head ++ body, min (sent + 4) p.words)

/-- The packet that sends its next flit: the first whose class is ON. -/
def SpPort.nextPkt (v : SpPort) (held : Bool) : Option (Pkt × Nat) :=
  if held then none else v.tx.find? fun x => !v.classOff x.1.vc.toNat

/-- The packet list after a flit. -/
def advancePkt (l : List (Pkt × Nat)) (x : Pkt × Nat) (n : Nat) : List (Pkt × Nat) :=
  match l with
  | [] => []
  | y :: ys => if y = x then (if n = x.1.words then ys else (x.1, n) :: ys) else y :: advancePkt ys x n

/-- The next thing a port sends at a flit boundary: NAK, a control word, a sketch flit, else a data flit. -/
def SpPort.unit (v : SpPort) (held : Bool) : Option (List PhizaWord × SpPort) :=
  if v.nakDue then some ([v.idle], { v with nakDue := false, quiet := 0 })
  else match v.ctl with
  | c :: rest => some ([v.control c], { v with ctl := rest, quiet := 0 })
  | [] =>
    let ready := if v.sketchGap < 8 then none
      else v.sk.find? fun f => !(f.kvc == 0 && v.classOff 6)
    match ready with
    | some f =>
      some (v.control 2 :: sketchWords f, { v with sk := v.sk.erase f, sketchGap := 0, quiet := 0 })
    | none =>
      match v.nextPkt held with
      | some x =>
        let (ws, n) := v.flitUnit x.1 x.2
        some (ws, { v with tx := advancePkt v.tx x n, txVc := some x.1.vc.toNat })
      | none => none

/-- Fills a frame of words; what is left is padded with IDLE. -/
def SpPort.fill (held : Bool) : (fuel room : Nat) → (v : SpPort) → List PhizaWord × SpPort
  | 0, room, v => (List.replicate room v.idle, v)
  | fuel + 1, room, v =>
    if room = 0 then ([], v)
    else match v.txWords with
      | w :: rest =>
        let (ws, v') := SpPort.fill held fuel (room - 1) { v with txWords := rest, sketchGap := v.sketchGap + 1 }
        (w :: ws, v')
      | [] =>
        match v.unit held with
        | some (ws, v') => SpPort.fill held fuel room { v' with txWords := ws }
        | none => (List.replicate room v.idle, { v with quiet := 0 })

/-- The LANE_CHECK words of a frame whose SEQ is a multiple of 4,096 (R275). -/
def SpPort.laneChecks (v : SpPort) : List PhizaWord :=
  if v.txSeq % 4096 = 0 then
    (List.range (2 ^ agrWidth v.agr)).map fun j => v.control (BitVec.ofNat 256 (8 + j * 2 ^ 16 + v.txSeq % 2 ^ 24 * 2 ^ 20))
  else []

/-- Whether anything waits to be sent. -/
def SpPort.hasWork (v : SpPort) (held : Bool) : Bool :=
  !v.txWords.isEmpty || (v.unit held).isSome

/-- A frame as the replay buffer keeps it: BEACON words become IDLE (R280). -/
def keptWords (v : SpPort) (ws : List PhizaWord) : List PhizaWord :=
  ws.map fun w => if w.1 && ctype w.2 == 3 then v.idle else w

/-- A new sequenced frame (R278, R279). -/
def SpPort.newFrame (v : SpPort) (held : Bool) : SpPort :=
  let checks := v.laneChecks
  let n := v.frameWords
  let lead : List PhizaWord := if checks.isEmpty ∧ 3 ≤ v.quiet then [v.idle] else []
  let v := if checks.isEmpty ∧ lead.isEmpty then { v with quiet := v.quiet + 1 } else { v with quiet := 0 }
  let used := checks.length + lead.length
  let (ws, v') := SpPort.fill held (2 * n + 2) (n - used) v
  let frame := checks ++ lead ++ ws
  { v' with line := frame, sent := v'.sent ++ [(v.txSeq % 2 ^ 24, keptWords v' frame)], txSeq := (v.txSeq + 1) % 2 ^ 24 }

/-- A hold frame (R279). -/
def SpPort.hold (v : SpPort) : SpPort :=
  { v with line := List.replicate v.frameWords (v.control 6), nakDue := false, quiet := 0 }

/-- The number of the frame after a given one. -/
def nextSeq (n : Nat) : Nat := (n + 1) % 2 ^ 24

/-- What a port in data service sends next; whether it is a replay frame (R279, R280). -/
def SpPort.nextFrame (v : SpPort) (held : Bool) : Bool × SpPort :=
  match v.replay, v.resend with
  | true, some f =>
    let w := v.control (BitVec.ofNat 256 (7 + f * 2 ^ 16))
    (true, { v with replay := false, line := w :: List.replicate (v.frameWords - 1) (v.control 6), nakDue := false, quiet := 0 })
  | _, some f =>
    match v.sent.find? fun x => x.1 == f with
    | some x =>
      let last := !(v.sent.any fun y => y.1 == nextSeq f)
      (false, { v with line := x.2, resend := if last then none else some (nextSeq f), quiet := v.quiet + 1 })
    | none => (false, ({ v with resend := none }).hold)
  | _, none =>
    if v.window ≤ v.sent.length || !v.hasWork held then (false, v.hold) else (false, v.newFrame held)

/-- The sketch flits that wait at a group move to its first ACTIVE port (R32). -/
def State.takeEdge (s : State) (g p : Nat) : State :=
  let first := (List.range (s.spPorts g)).find? fun q => s.spState g q == spACTIVE
  if first = some p ∧ !s.spCircuit g then
    let v := s.spPort g p
    let s := s.setSpPort g p { v with sk := v.sk ++ s.sketch.edge.get [] g }
    { s with sketch := { s.sketch with edge := s.sketch.edge.set [] g [] } }
  else s

/-- The milliseconds of AON edges, by which LOW_REPLAY_MAX counts. -/
def State.replayCount (s : State) (g p : Nat) : State :=
  let v := s.spPort g p
  let n := if v.replayMs = s.nowMs then v.replays + 1 else 1
  let s := s.setSpPort g p { v with replays := n, replayMs := s.nowMs }
  if agrLow v.agr ∧ fld (s.spReg g Reg.SP_LINK_CFG) 23 16 < n then
    let s := s.setSpPort g p { s.spPort g p with fallback := true }
    ((s.spFlag g 7).spRaise Src.LINK_LOW_DEGRADE g p 0).spRetrain g p 0x09 0
  else s

/-- The next frame of an ACTIVE port (R278 to R280). -/
def State.frameSend (s : State) (g p : Nat) : State :=
  let s := s.takeEdge g p
  let held := bit (s.spReg g (Reg.SP_PORT_STAT p)) 23
  let (rep, v) := (s.spPort g p).nextFrame held
  let s := s.setSpPort g p v
  if rep then
    ((s.count (s.spA g (Reg.SP_REPLAY_CNT p)) 1).spRaise Src.LINK_REPLAY g p 0).replayCount g p
  else s

/-! ### Flow control (R282) -/

/-- Bytes of a port's ingress share: 196,608 × W, less the headroom of 48,640 × W. -/
def ingressPool (w : Nat) : Nat := (196608 - 48640) * w

/-- MIN of a class at a port: one seventh of the pool where the sum is larger (R282). -/
def State.ingMin (s : State) (g c : Nat) : Nat :=
  let w := 2 ^ s.spWidthLog g
  let mins := (List.range 7).map fun i => 1024 * fld (s.spReg g (Reg.ING_CLASS i)) 15 0
  if ingressPool w < mins.foldl (· + ·) 0 then ingressPool w / 7 else mins.getD c 0
/-- MAX of a class at a port: at most the share. -/
def State.ingMax (s : State) (g c : Nat) : Nat :=
  min (196608 * 2 ^ s.spWidthLog g) (1024 * fld (s.spReg g (Reg.ING_CLASS c)) 31 16)

/-- Bytes that a class holds in a port's ingress buffer. -/
def SpPort.classBytes (v : SpPort) (c : Nat) : Nat :=
  ((v.ingress.filter fun p => p.vc.toNat == c).map fun p => 32 * (p.words + 1)).foldl (· + ·) 0 +
    32 * (v.rxPart.get [] c).length

/-- Free bytes of the shared pool. -/
def State.poolFree (s : State) (g : Nat) (v : SpPort) : Int :=
  let w := 2 ^ s.spWidthLog g
  let mins : Nat := ((List.range 7).map fun c => s.ingMin g c).foldl (· + ·) 0
  let above : Nat := ((List.range 7).map fun c => v.classBytes c - s.ingMin g c).foldl (· + ·) 0
  (ingressPool w : Int) - (mins : Int) - (above : Int)

/-- Whether a class meets a condition for OFF (R282). A port held for want of a DIE_ID keeps every data VC OFF (R286). -/
def State.mustOff (s : State) (g p : Nat) (v : SpPort) (c : Nat) : Bool :=
  (bit (s.spReg g (Reg.SP_PORT_STAT p)) 23 && decide (c < 6)) || decide (s.ingMax g c ≤ v.classBytes c) ||
    (decide (s.ingMin g c ≤ v.classBytes c) && decide (s.poolFree g v < 8256))

/-- The OFF signals after the buffer changed: `freed` bytes of a class were drained. -/
def State.flowUpdate (s : State) (g p cls freed : Nat) : State :=
  let v := s.spPort g p
  let step (acc : SpPort) (c : Nat) : SpPort :=
    if s.mustOff g p v c then { acc with off := acc.off ||| 2 ^ c, drained := acc.drained.set 0 c 0 }
    else if acc.off.testBit c then
      let n := acc.drained.get 0 c + (if c = cls then freed else 0)
      if 16384 ≤ n then { acc with off := acc.off - 2 ^ c, drained := acc.drained.set 0 c 0 }
      else { acc with drained := acc.drained.set 0 c n }
    else acc
  s.setSpPort g p ((List.range 7).foldl step v)

/-! ### Receiving (R275, R276, R279 to R281) -/

/-- What the words of a frame come to: the port, the sketch flits that are whole, or a word that makes the frame
uncorrectable; a LANE_CHECK that disagrees. -/
inductive RxResult where
  | ok (v : SpPort) (flits : List SFlit)
  | bad
  | check
deriving DecidableEq, Repr

/-- A LINK field takes effect: acknowledged frames leave the replay buffer, a NAK starts a replay, OFF is taken over. -/
def SpPort.takeLink (v : SpPort) (w : DataWord) : SpPort :=
  let ack := wordBits w 215 192
  let gone := v.sent.takeWhile fun x => x.1 != ack
  let left := v.sent.drop gone.length
  let sent := if left.isEmpty ∧ v.txSeq % 2 ^ 24 ≠ ack then v.sent else left
  let v := { v with sent := sent, farOff := wordBits w 223 217 }
  if w.toNat.testBit 216 ∧ sent.any (fun x => x.1 == ack) ∧ !(v.replay && v.resend == some ack) then
    { v with replay := true, resend := some ack }
  else v

/-- A data word goes to the packet in progress on its VC; a word of a VC without one is a head (R276). -/
def SpPort.takeData (v : SpPort) (w : DataWord) : Option SpPort :=
  match v.rxVc with
  | none => none
  | some vc =>
    let ws := v.rxPart.get [] vc ++ [w]
    let p := Pkt.ofHeader (ws.headD 0) ws.tail
    if ws.length = 1 ∧ (p.vc.toNat ≠ vc ∨ 5 < vc) then none
    else if ws.length = p.words + 1 then
      some { v with rxPart := v.rxPart.del vc, ingress := v.ingress ++ [p] }
    else some { v with rxPart := v.rxPart.set [] vc ws }

/-- The words of an accepted frame, in order. `i` counts the words. -/
def SpPort.takeWords (i : Nat) (v : SpPort) (fl : List SFlit) : List PhizaWord → RxResult
  | [] => .ok v fl
  | (false, w) :: rest =>
    if v.rxSketch = 2 then SpPort.takeWords (i + 1) { v with rxSketch := 1, rxFirst := w } fl rest
    else if v.rxSketch = 1 then
      SpPort.takeWords (i + 1) { v with rxSketch := 0, rxFirst := 0 } (fl ++ [sketchOf v.rxFirst w]) rest
    else match v.takeData w with
      | none => .bad
      | some v' => SpPort.takeWords (i + 1) v' fl rest
  | (true, w) :: rest =>
    let v := v.takeLink w
    match ctype w with
    | 1 => SpPort.takeWords (i + 1) { v with rxVc := some (wordBits w 10 8) } fl rest
    | 2 => SpPort.takeWords (i + 1) { v with rxSketch := 2 } fl rest
    | 8 =>
      let lane := i % 2 ^ agrWidth v.agr
      if wordBits w 43 20 ≠ v.ackSeq ∨ (!agrLow v.agr ∧ wordBits w 19 16 ≠ lane) then .check
      else SpPort.takeWords (i + 1) v fl rest
    | 0 | 3 | 4 | 5 | 6 | 7 => SpPort.takeWords (i + 1) v fl rest
    | _ => .bad

/-- A sketch flit from another die (R32, R304): partner accesses and their responses wait for their own steps, a barrier
flit for the die's own combiner is delivered there, and every other flit enters the sketch network at the edge router. -/
def State.sketchIn (s : State) (g p : Nat) (f : SFlit) : State :=
  let pos := (s.spSite g).1
  if f.kvc = 0 ∧ dieOf f.dest = aliasId ∨ f.stype = 2 ∧ adPort f.dest = 22 then
    { s with spine := { s.spine with peerIn := s.spine.peerIn ++ [(8 * g + p, f)] } }
  else if f.kvc = 2 ∧ dieOf f.dest = aliasId ∧ adPort f.dest = 31 then
    { s with sketch := { s.sketch with arrived := s.sketch.arrived ++ [(pos, f)] } }
  else s.sketchSend pos f

/-- A frame is rejected (R279, R281): NAK, and a retrain at the fifth rejection of one frame. -/
def State.frameReject (s : State) (g p : Nat) : State :=
  let v := s.spPort g p
  if s.spState g p ≠ spACTIVE then s
  else if 4 ≤ v.rejects then (s.setSpPort g p { v with rejects := 0 }).spRetrain g p 0x09 0
  else s.setSpPort g p { v with nak := true, nakDue := true, rejects := v.rejects + 1 }

/-- Symbols corrected or located on the lanes of a port (R291, R303). -/
def State.laneSymbols (s : State) (g p : Nat) (syms : List Nat) : State :=
  (syms.zipIdx).foldl (fun t x =>
    let lane := agrLane (t.spPort g p).agr x.2
    if x.1 = 0 ∨ 2 ^ agrWidth (t.spPort g p).agr ≤ x.2 then t
    else
      let v := t.spGroup g
      let t := t.setSpGroup g { v with symNow := v.symNow.set 0 lane (v.symNow.get 0 lane + x.1) }
      (t.count (t.spA g (Reg.LANE_SYM_CNT lane)) x.1).partCe 6 (lanePart7 g lane)) s

/-- A sequenced frame: applied whole, or not at all (R275, R279). -/
def State.frameWordsIn (s : State) (g p : Nat) (ws : List PhizaWord) : State :=
  let v := s.spPort g p
  if v.nak then s
  else match SpPort.takeWords 0 v [] ws with
    | .bad => (s.count (s.spA g (Reg.SP_CW_UE_CNT p)) 1).frameReject g p
    | .check => s.spRetrain g p 0x0C 0
    | .ok v' fl =>
      let odd := (ws.filter fun w => w.1 && ctype w.2 == 5 && decide (8 < wordBits w.2 15 8)).length
      let s := s.when (odd != 0) fun t => t.count (t.spA g (Reg.SP_CW_UE_CNT p)) odd
      let s := s.setSpPort g p { v' with ackSeq := (v.ackSeq + 1) % 2 ^ 24, rejects := 0 }
      let s := fl.foldl (fun t f => t.sketchIn g p f) s
      s.flowUpdate g p 7 0

/-- A clean frame (R279): a replay frame ends a discard, a hold frame carries its LINK alone, and a sequenced frame is
applied whole. -/
def State.frameTake (s : State) (g p : Nat) (ws : List PhizaWord) : State :=
  let v := s.spPort g p
  match ws with
  | (true, w) :: _ =>
    if ctype w = 7 then
      let v := v.takeLink w
      let here := wordBits w 39 16 == v.ackSeq
      s.setSpPort g p { v with nak := v.nak && !here, nakDue := v.nakDue && !here }
    else if holdFrame (s.spState g p == spSPARING) ws then s.setSpPort g p (v.takeLink w)
    else s.frameWordsIn g p ws
  | _ => s.frameWordsIn g p ws

/-- FRAME_RECEIVE (R279). -/
def State.frameReceive (s : State) (g p : Nat) (f : PhizaFrame) : State :=
  let low := agrLow (s.spPort g p).agr
  let fixed := (f.syms.filter fun n => n != 0).length
  let s := s.laneSymbols g p f.syms
  let s := s.when (!low && fixed != 0) fun t => t.count (t.spA g (Reg.SP_CW_CE_CNT p)) fixed
  if f.ue ≠ 0 then (s.count (s.spA g (Reg.SP_CW_UE_CNT p)) f.ue).frameReject g p
  else s.frameTake g p f.words

/-- FRAME_RECEIVE (R279). -/
def execFrameReceive (group port : Nat) (frame : PhizaFrame) (s : State) : Out :=
  done (s.when (s.spHas group port && !s.stopped &&
      (s.spState group port == spACTIVE || s.spState group port == spSPARING)) fun t => t.frameReceive group port frame)

/-! ### Packets that enter the die (R276, R314, R327) -/

/-- LIMIT of SP_STALE_CFG in DEADLINE units of 32 ns; 0 disables (R314). -/
def State.staleLimit (s : State) (g : Nat) : Nat := min 0x7FFF (fld (s.spReg g Reg.SP_STALE_CFG) 15 0)

/-- Whether a packet is stale at an ingress (R314). -/
def State.isStale (s : State) (g : Nat) (p : Pkt) : Bool :=
  let u := signed 16 (encodeInt 16 ((p.deadline.toNat : Int) - (s.nowDl : Int)))
  s.staleLimit g != 0 && decide (u < -(s.staleLimit g : Int))

/-- A packet leaves the ingress buffer of the port that holds it. -/
def State.takeIngress (s : State) (g : Nat) (pkt : Pkt) : State :=
  match (List.range 8).find? fun p => (s.spPort g p).ingress.contains pkt with
  | none => s
  | some p =>
    let v := s.spPort g p
    (s.setSpPort g p { v with ingress := v.ingress.erase pkt }).flowUpdate g p pkt.vc.toNat (32 * (pkt.words + 1))

/-- A packet from another die is discarded when stale, policed, and injected unchanged (R92, R145, R276, R314, R327). -/
def State.spineIngress (s : State) (g : Nat) (pkt : Pkt) : State :=
  let (pos, side) := s.spSite g
  if s.time.dieId = aliasId then s
  else if s.isStale g pkt then
    let a := s.spA g Reg.SP_STALE_CNT
    let first := s.reg a == 0
    let s := (s.takeIngress g pkt).count a 1
    s.when first fun t => t.spRaise Src.SPINE_STALE g 0 0
  else if !s.portOpen pos (9 + side) (16 + side) pkt.vc.toNat then s
  else
    let (ok, t) := (s.takeIngress g pkt).police pos side pkt
    if ok then t.feedPort pos (9 + side) pkt else t

/-- SPINE_INGRESS (R276). -/
def execSpineIngress (group : Nat) (pkt : Pkt) (s : State) : Out :=
  done (s.when (s.spExists group && !s.stopped && decide (pkt.vc.toNat < 6) && pkt.payload.length == pkt.words) fun t =>
    t.spineIngress group pkt)

/-! ### Packets that leave the die (R312) -/

/-- The egress table's value for a route-entry index, in the active bank. -/
def State.egressValue (s : State) (g idx : Nat) : Nat :=
  let j := idx / 8
  let w := s.spReg g (if s.routeBank = 0 then Reg.EGRESS_PORT_A j else Reg.EGRESS_PORT_B j)
  fld w (4 * (idx % 8) + 3) (4 * (idx % 8))

/-- The port that a head takes: the one named, or of value 8 the next after the last-used that is ACTIVE with its class
ON; VC2 takes port 0 (R312). None where it must wait. -/
def State.egressPort (s : State) (g idx vc : Nat) : Option Nat :=
  let n := s.spPorts g
  let v := s.egressValue g idx
  if v < n then some v
  else if vc = 2 then some 0
  else
    let from' := (s.spGroup g).spread
    ((List.range n).map fun i => (from' + i) % n).find? fun p =>
      s.spState g p == spACTIVE && !(s.spPort g p).classOff vc

/-- Whether a circuit port takes no new head (R324). -/
def State.circClosed (s : State) (g : Nat) : Bool :=
  s.spCircuit g && (!bit (s.spReg g Reg.SP_CIRC_STAT) 27 || (match s.spine.circ.find? g with
    | some w => w.closed
    | none => true))

/-- The first packet of a VC that waits at a group from its router, and the rest. -/
def State.egressHead (s : State) (g vc : Nat) : Option ((Nat × Pkt) × List (Nat × Pkt)) :=
  let site := s.spSite g
  takeFirst (fun x => x.2.vc.toNat == vc) (s.mesh.egress.get [] (32 * site.1 + 16 + site.2))

/-- Whether a spine group's cap lets a packet's flits leave now; scheduled traffic always leaves (R384). -/
def State.exitRateOk (s : State) (g : Nat) (p : Pkt) : Bool :=
  s.gated p.vc.toNat ||
  (match s.domainAllows 2 (s.dieF Reg.ENERGY_MODEL 15 0) (Config.spgroups s.config) (s.railLevel (s.dieF Reg.RAIL_EDGE 6 4)) with
  | none => true
  | some n => decide (s.power.xFlits.get 0 g + p.flits ≤ n))

/-- A packet's flits count toward the group's cap and the domain's draw, and are charged (R383, R384, R389). -/
def State.exitSpend (s : State) (g : Nat) (p : Pkt) : State :=
  let s := s.chargeExit (s.spSite g).1 p
  { s with power := { s.power with
      xAll := s.power.xAll + p.flits
      xFlits := if s.gated p.vc.toNat then s.power.xFlits else s.power.xFlits.set 0 g (s.power.xFlits.get 0 g + p.flits) } }

/-- SPINE_EGRESS (R312): the head of a VC at a group goes to its port, or is discarded at one that is FAILED or in
SAFETY_HOLD (R290). Without a DIE_ID nothing leaves (R46). -/
def State.spineEgress (s : State) (g vc : Nat) : State :=
  if s.time.dieId = aliasId then s
  else match s.egressHead g vc with
  | none => s
  | some ((idx, pkt), rest) =>
    match s.egressPort g idx vc with
    | none => s
    | some p =>
      let site := s.spSite g
      let st := s.spState g p
      let dead := st == spFAILED || st == spSAFETY_HOLD
      if !dead && (s.circClosed g || !s.exitRateOk g pkt) then s
      else
        let s := { s with mesh := { s.mesh with egress := s.mesh.egress.set [] (32 * site.1 + 16 + site.2) rest } }
        let s := s.setSpGroup g { s.spGroup g with spread := (p + 1) % s.spPorts g }
        if dead then s.spDiscard g pkt
        else
          let s := s.exitSpend g pkt
          s.setSpPort g p { s.spPort g p with tx := (s.spPort g p).tx ++ [(pkt, 0)] }

/-- SPINE_EGRESS (R312). -/
def execSpineEgress (group vc : Nat) (s : State) : Out :=
  done (s.when (s.spExists group && !s.stopped) fun t => t.spineEgress group vc)

end Sys2Proof.Machine
end

