-- ==== Sys2Proof/Machine/Train.lean ====
section
/-! DEFINITION. Training of spine ports (R284 to R290): the states from DISABLED to ACTIVE, the training messages, and
what SP_CTRL starts (R299, R301); FRAME_SEND and FRAME_RECEIVE as commands. -/
namespace Sys2Proof.Machine

/-! ### Optical engine requests (R295, R296) -/

/-- A request enters the group's OEMI queue; one is outstanding at a time. -/
def State.oemiSend (s : State) (g op lane args : Nat) : State :=
  let v := s.spGroup g
  s.setSpGroup g { v with
    oemi := v.oemi ++ [⟨op, lane, args, v.tseq, 0, s.time.edges⟩], tseq := (v.tseq + 1) % 256 }

/-- The engine's state at start: READ_INFO, SAFETY_CFG and LASER_EN (R284, R296, R299). -/
def State.oemiStart (s : State) (g : Nat) : State :=
  let safety := fld (s.spReg g Reg.SP_CTRL) 28 28
  ((s.oemiSend g 2 15 0).oemiSend g 7 15 safety).oemiSend g 6 15 (0x1FF + 2 ^ 16)

/-! ### Training messages that this end sends (R285 to R287) -/

/-- A TRAIN word of a message, its fields in place. -/
def trainWord (msg fields : Nat) : DataWord := BitVec.ofNat 256 (5 + msg * 2 ^ 8 + fields)

/-- The wavelength that a lane transmits on: the one it was moved to, else the one its engine reports (log entry 30). -/
def State.laneTxWl (s : State) (g lane : Nat) : Nat :=
  match (s.spGroup g).txWl.get 0 lane with
  | 0 => fld (s.spReg g (Reg.LANE_STAT lane)) 20 16
  | n + 1 => n

/-- IDENT on a lane (R285). -/
def State.identWord (s : State) (g p lane : Nat) : DataWord :=
  trainWord 1 (lane * 2 ^ 16 + s.laneTxWl g lane % 32 * 2 ^ 20 + s.time.dieId.toNat * 2 ^ 25 + g % 64 * 2 ^ 42 +
    p % 8 * 2 ^ 48 + 0x32 * 2 ^ 51 + b2n ((s.spGroup g).ident.testBit lane) * 2 ^ 59)

/-- Framing latencies at a 2.0 GHz fast clock, in 1/16 NT units, rounded down: transmit and receive (R273). -/
def frameLatency (low : Bool) (w : Nat) : Nat × Nat :=
  if low then (1024, (65536 / w + 12288) / 10) else (1536, 22016)

/-- Whether this end has a usable spare lane. -/
def State.ownSpare (s : State) (g : Nat) : Bool := bit (s.spReg g Reg.SP_CTRL) 27 && s.laneUsable g 8

/-- CAP (R287). -/
def State.capWord (s : State) (g : Nat) : DataWord :=
  let w := s.spWidthLog g
  let ctrl := s.spReg g Reg.SP_CTRL
  let lat := s.spReg g Reg.SP_PMA_LAT
  let (ft, fr) := frameLatency false (2 ^ w)
  let (lt, lr) := frameLatency true (2 ^ w)
  trainWord 2 (0x32 * 2 ^ 16 + (2 ^ (w + 1) - 1) * 2 ^ 24 + b2n (s.ownSpare g) * 2 ^ 28 + fld ctrl 26 26 * 2 ^ 29 +
    fld ctrl 28 28 * 2 ^ 30 + fld lat 31 16 * 2 ^ 31 + fld lat 15 0 * 2 ^ 47 + ft * 2 ^ 63 + fr * 2 ^ 79 +
    lt * 2 ^ 95 + lr * 2 ^ 111 + 76 * 2 ^ 127)

/-- The first frame that the partner has not acknowledged: frames are numbered from it (R290). -/
def SpPort.oldest (v : SpPort) : Nat :=
  match v.sent with
  | x :: _ => x.1
  | [] => v.txSeq

/-- The words of the next training frame: the current message (R285). -/
def State.trainWords (s : State) (g p : Nat) : List DataWord :=
  let v := s.spPort g p
  let st := s.spState g p
  if st = spIDENT then (s.portLanes g p).map (s.identWord g p)
  else if st = spNEGOTIATE then
    [s.capWord g] ++ (if v.cap.isSome then [trainWord 3 (v.agr.toNat / 2 ^ 16 * 2 ^ 16)] else [])
  else if st = spDESKEW then (agrLanes v.agr).map fun _ => trainWord 4 0
  else if st = spTIME then v.ctl
  else if st = spCONFIRM then
    v.ctl ++ [trainWord 5 (v.ackSeq * 2 ^ 16 + (if s.spCircuit g then 0 else v.oldest) * 2 ^ 40)]
  else if st = spSPARING then v.ctl
  else []

/-- FRAME_SEND (R278): an ACTIVE port sends its next frame; a training or sparing one its messages, filled with HOLD
words (R285, R292). -/
def State.frameOut (s : State) (g p : Nat) : State :=
  if s.spState g p = spACTIVE then s.frameSend g p
  else
    let v := s.spPort g p
    let ws := (s.trainWords g p).map v.control
    let pad := List.replicate (v.frameWords - ws.length) (v.control 6)
    if s.spState g p < spIDENT ∨ spSPARING < s.spState g p then s.setSpPort g p { v with line := [] }
    else s.setSpPort g p { v with line := ws ++ pad, ctl := [] }

/-- FRAME_SEND (R278). -/
def execFrameSend (group port : Nat) (s : State) : Out :=
  done (s.when (s.spHas group port && !s.stopped) fun t => t.frameOut group port)

/-! ### Starting and stopping (R284, R299, R301) -/

/-- A port starts at WAIT_PMA with its attempts cleared. -/
def State.spStart (s : State) (g p : Nat) : State :=
  (s.setSpPort g p { s.spPort g p with fails := 0, fallback := false }).enterWait g p

/-- WIDTH_LOG is taken over; ports that the group no longer forms lose what they hold. -/
def State.takeWidth (s : State) (g : Nat) : State :=
  let was := s.spPorts g
  let s := s.setSpGroup g { s.spGroup g with width := fld (s.spReg g Reg.SP_CTRL) 25 24 }
  ((List.range was).filter fun p => s.spPorts g ≤ p).foldl (fun t p => (t.spDrop g p).setSpState g p spDISABLED) s

/-- The release of an eye-safety hold: LASER_EN, and the ports train from WAIT_PMA (R299). -/
def State.safetyFree (s : State) (g : Nat) : State :=
  let s := s.setSpGroup g { s.spGroup g with shut := false }
  let s := (s.setSpF g Reg.OE_STAT 29 29 0).oemiSend g 6 15 (0x1FF + 2 ^ 16)
  (List.range (s.spPorts g)).foldl (fun t p =>
    if t.spState g p = spSAFETY_HOLD then
      (if bit (t.spReg g Reg.SP_CTRL) 31 then t.spStart g p else t.setSpState g p spDISABLED)
    else t) s

/-- A SAFETY_RELEASE write: the engine's answer decides; where it is not given with the write, the request waits for
its OEMI response (R299). -/
def State.safetyRelease (s : State) (g : Nat) (accepted : Option Bool) : State :=
  if !(s.spGroup g).shut then s
  else match accepted with
    | some true => s.safetyFree g
    | some false => s
    | none => s.oemiSend g 8 15 0

/-- EN written 1: ports that are DISABLED or FAILED start; written 0: every port but one in SAFETY_HOLD is DISABLED. -/
def State.spEnableWrite (s : State) (g : Nat) (was now : Bool) : State :=
  if now then
    let s := s.when (!was) fun t => (t.takeWidth g).oemiStart g
    (List.range (s.spPorts g)).foldl (fun t p =>
      if t.spState g p = spDISABLED ∨ t.spState g p = spFAILED then t.spStart g p else t) s
  else if was then
    let s := s.oemiSend g 6 15 0x1FF
    (List.range (s.spPorts g)).foldl (fun t p =>
      if t.spState g p = spSAFETY_HOLD then t
      else
        let v := t.spPort g p
        let kept := v.kept || t.spState g p == spACTIVE || t.spState g p == spSPARING
        (t.setSpState g p spDISABLED).setSpPort g p { v with kept := kept, sparing := none }) s
  else s

/-- A write of SP_CTRL at a side that carries a spine group (R299, R301). -/
def State.spCtrlWrite (s : State) (pos side : Nat) (data : Word) (accepted : Option Bool) : State :=
  match s.groupAt pos side with
  | none => s
  | some g =>
    let was := bit (s.spReg g Reg.SP_CTRL) 31
    let s := s.plainWrite (s.spA g Reg.SP_CTRL) data
    let s := s.when (bit data 29) fun t => t.safetyRelease g accepted
    let s := s.when (bit data 30 && bit data 31) fun t => (t.takeWidth g).spRetrainGroup g
    s.spEnableWrite g was (bit data 31)

/-- SP_ENABLE (R284). -/
def execSpEnable (acc : Access) (pos : Pos) (side : Nat) (data : Word) (s : State) : Out :=
  done (guardedWrite acc (edgeA pos side Reg.SP_CTRL) (fun t => t.spCtrlWrite pos side data none) s)
/-- SP_RETRAIN (R301). -/
def execSpRetrain (acc : Access) (pos : Pos) (side : Nat) (data : Word) (s : State) : Out :=
  done (guardedWrite acc (edgeA pos side Reg.SP_CTRL) (fun t => t.spCtrlWrite pos side data none) s)
/-- SAFETY_RELEASE (R299). -/
def execSafetyRelease (acc : Access) (pos : Pos) (side : Nat) (data : Word) (accepted : Bool) (s : State) : Out :=
  done (guardedWrite acc (edgeA pos side Reg.SP_CTRL) (fun t => t.spCtrlWrite pos side data (some accepted)) s)

/-! ### Lock (R284) -/

/-- The window of a circuit group, while it may train. -/
def State.circWindow (s : State) (g : Nat) : Option CircNow :=
  match s.spine.circ.find? g with
  | some w => if w.lost || w.closed then none else some w
  | none => none

/-- Whether a port trains against a cached circuit entry (R323). -/
def State.circCached (s : State) (g : Nat) : Bool :=
  s.spCircuit g && (match s.circWindow g with | some w => w.cached | none => false)

/-- The lanes that a port locks: its own that are usable, of a cached circuit those of LANE_MASK (R323). -/
def State.trainLanes (s : State) (g p : Nat) : List Nat :=
  (s.portLanes g p).filter fun l => s.laneUsable g l &&
    (!s.circCached g || (fld (s.spReg g (Reg.SP_CIRC_AGR (s.circCur g))) 31 23).testBit l)

/-- PMA_LOCK (R284). -/
def State.pmaLock (s : State) (g lane : Nat) : State :=
  let v := s.spGroup g
  let s := s.setSpGroup g { v with sig := v.sig ||| 2 ^ lane }
  match (List.range (s.spPorts g)).find? fun p => (s.portLanes g p).contains lane with
  | none => s
  | some p =>
    if s.spState g p = spWAIT_PMA ∧ s.laneUsable g lane ∧ (!s.spCircuit g || (s.circWindow g).isSome) then s.enterLock g p
    else s

/-- PMA_LOCK (R284). -/
def execPmaLock (group lane : Nat) (s : State) : Out :=
  done (s.when (s.spExists group && decide (lane ≤ 8) && !s.stopped) fun t => t.pmaLock group lane)

/-- A port enters IDENT, where the group latches its own DIE_ID (R46, R286). -/
def State.enterIdent (s : State) (g p : Nat) : State :=
  (s.setSpState g p spIDENT).setSpF g (Reg.SP_PORT_STAT p) 23 23 (b2n (s.time.dieId == aliasId))

/-- LANE_CODEWORD_LOCK (R284): in LOCK, and for the spare lane of a sparing (R292). -/
def State.codewordLock (s : State) (g lane : Nat) : State :=
  let v := s.spGroup g
  match (List.range (s.spPorts g)).find? fun p =>
    (s.spState g p == spLOCK && (s.trainLanes g p).contains lane) ||
      (s.spState g p == spSPARING && s.freeSpare g p == some lane) with
  | none => s
  | some p =>
    if !v.sig.testBit lane then s
    else
      let s := s.setSpGroup g { v with locked := v.locked ||| 2 ^ lane }
      let all := (s.trainLanes g p).all fun l => !v.sig.testBit l || (s.spGroup g).locked.testBit l
      if s.spState g p = spLOCK ∧ all then s.enterIdent g p else s

/-- LANE_CODEWORD_LOCK (R284). -/
def execLaneCodewordLock (group lane : Nat) (s : State) : Out :=
  done (s.when (s.spExists group && decide (lane ≤ 8) && !s.stopped) fun t => t.codewordLock group lane)

/-- LOCK_TIMEOUT (R284): after 1 ms the port goes on with the lanes that locked; one with signal that did not is marked
(R291). -/
def State.lockTimeout (s : State) (g p : Nat) : State :=
  let v := s.spGroup g
  let ls := s.trainLanes g p
  if ls.all fun l => !v.locked.testBit l then s.spFail g p 1
  else
    let bad := ls.filter fun l => v.sig.testBit l && !v.locked.testBit l
    (bad.foldl (fun t l => t.markLane g l) s).enterIdent g p

/-- LOCK_TIMEOUT (R284). -/
def execLockTimeout (group port : Nat) (s : State) : Out :=
  done (s.when (s.spHas group port && !s.stopped && s.spState group port == spLOCK &&
      decide ((s.spPort group port).lockFrom + 100000 ≤ s.time.edges)) fun t => t.lockTimeout group port)

/-- TRAIN_LIMIT in AON edges. -/
def State.trainLimit (s : State) (g : Nat) : Nat := 100 * max 1 (fld (s.spReg g Reg.SP_LINK_CFG) 15 0)

/-- The lanes that failed IDENT while others of the port passed are marked (R291). -/
def State.markSilent (s : State) (g p : Nat) : State :=
  let v := s.spGroup g
  let ls := (s.trainLanes g p).filter fun l => v.locked.testBit l
  if s.spState g p = spIDENT ∧ ls.any (fun l => v.ident.testBit l) then
    (ls.filter fun l => !v.ident.testBit l).foldl (fun t l => t.markLane g l) s
  else s

/-- TRAIN_LIMIT (R290). -/
def execTrainLimit (group port : Nat) (s : State) : Out :=
  done (s.when (s.spHas group port && !s.stopped && s.spTrains group port &&
      decide ((s.spPort group port).trainFrom + s.trainLimit group ≤ s.time.edges)) fun t =>
    (t.markSilent group port).spFail group port 0x0B)

/-! ### Mislocks (R294) -/

/-- The engine gives no assistance: it has not answered, or has timed out (R295). -/
def State.oeBlind (s : State) (g : Nat) : Bool :=
  let w := s.spReg g Reg.OE_STAT
  !bit w 31 || bit w 28

/-- A relock of a lane's receiver: counted, with 100 µs to wait (R294, step 1). -/
def State.sendRelock (s : State) (g lane : Nat) : State :=
  let n := fld (s.spReg g (Reg.LANE_STAT lane)) 15 12
  let s := (s.setSpF g (Reg.LANE_STAT lane) 15 12 (n + 1)).oemiSend g 4 lane 0
  let v := s.spGroup g
  s.setSpGroup g { v with relock := v.relock.set 0 lane (s.time.edges + 1) }

/-- The lowest spare wavelength that the engine reports. -/
def State.spareWl (s : State) (g : Nat) : Option Nat := (setBits 16 (fld (s.spReg g Reg.OE_STAT) 15 0)).head?

/-- Step 2: WL_ASSIGN goes to the partner and to the own receiver, and IDENT is checked once more. -/
def State.assignWl (s : State) (g p lane wl : Nat) : State :=
  let s := (s.oemiSend g 5 lane (wl * 2 ^ 8)).setSpF g Reg.OE_STAT wl wl 0
  let v := s.spPort g p
  let s := s.setSpPort g p { v with ctl := v.ctl ++ [trainWord 8 (lane * 2 ^ 16 + wl * 2 ^ 20)] }
  let v := s.spGroup g
  s.setSpGroup g { v with assigned := v.assigned ||| 2 ^ lane, relock := v.relock.set 0 lane (s.time.edges + 1) }

/-- Step 3: the lane is marked; a port in training that has no lane left fails with MISLOCK. -/
def State.loseLane (s : State) (g p lane : Nat) : State :=
  let s := s.markLane g lane
  if s.spTrains g p && (s.trainLanes g p).all (fun l => !(s.spGroup g).locked.testBit l) then s.spFail g p 2 else s

/-- The next recourse for a mislocked lane. -/
def State.recourse (s : State) (g lane : Nat) : State :=
  match s.portOfLane g lane with
  | none => s
  | some p =>
    let n := fld (s.spReg g (Reg.LANE_STAT lane)) 15 12
    if s.oeBlind g then s.loseLane g p lane
    else if n < 3 then s.sendRelock g lane
    else match s.spareWl g with
      | some wl => if (s.spGroup g).assigned.testBit lane then s.loseLane g p lane else s.assignWl g p lane wl
      | none => s.loseLane g p lane

/-- A mislock on a lane: recorded, and its recourse begins unless one runs already. -/
def State.mislock (s : State) (g p lane : Nat) : State :=
  let s := (s.spFlag g 0).spRaise Src.LANE_MISLOCK g p lane
  let v := s.spGroup g
  let s := s.setSpGroup g { v with ident := if v.ident.testBit lane then v.ident - 2 ^ lane else v.ident }
  if (s.spGroup g).relock.get 0 lane ≠ 0 then s else s.recourse g lane

/-- RELOCK_TIMEOUT (R294). -/
def execRelockTimeout (group lane : Nat) (s : State) : Out :=
  let from' := (s.spGroup group).relock.get 0 lane
  done (s.when (s.spExists group && decide (lane ≤ 8) && !s.stopped && from' != 0 && decide (from' + 9999 ≤ s.time.edges))
    fun t =>
      let v := t.spGroup group
      (t.setSpGroup group { v with relock := v.relock.set 0 lane 0 }).recourse group lane)

/-! ### IDENT (R286) -/

/-- Fields of an IDENT: lane, wavelength, die, group, port. -/
def idLane (b : BitVec 256) : Nat := bitsOf b.toNat 19 16
/-- WL of an IDENT. -/
def idWl (b : BitVec 256) : Nat := bitsOf b.toNat 24 20
/-- DIE_ID of an IDENT. -/
def idDie (b : BitVec 256) : Nat := bitsOf b.toNat 41 25
/-- GROUP of an IDENT. -/
def idGrp (b : BitVec 256) : Nat := bitsOf b.toNat 47 42
/-- PORT of an IDENT. -/
def idPort (b : BitVec 256) : Nat := bitsOf b.toNat 50 48

/-- Whether the partner is the one that a register names by PORT, GROUP and DIE_ID. -/
def partnerIs (w : Word) (b : BitVec 256) : Bool :=
  fld w 31 29 == idPort b && fld w 28 23 == idGrp b && fld w 16 0 == idDie b

/-- Whether the partner's lane was already received on another lane: each appears once (R286). -/
def State.laneTaken (s : State) (g lane : Nat) (b : BitVec 256) : Bool :=
  (s.spGroup g).rxLane.any fun x => x.1 != lane && x.2 == idLane b + 1

/-- An IDENT of a sound partner on a lane: the wavelength is checked, and the lane passes. -/
def State.identLane (s : State) (g p lane : Nat) (b : BitVec 256) : State :=
  let v := s.spGroup g
  if s.laneTaken g lane b then s
  else if v.wlLock.testBit lane && idWl b != fld (s.spReg g (Reg.LANE_STAT lane)) 20 16 then s.mislock g p lane
  else
    let s := s.setSpF g (Reg.LANE_STAT lane) 15 12 0
    let v := s.spGroup g
    s.setSpGroup g { v with
      ident := v.ident ||| 2 ^ lane
      seen := if b.toNat.testBit 59 then v.seen ||| 2 ^ lane else v.seen
      rxLane := v.rxLane.set 0 lane (idLane b + 1), relock := v.relock.set 0 lane 0 }

/-- Whether every locked lane of the port has passed IDENT in both directions. -/
def State.identDone (s : State) (g p : Nat) : Bool :=
  let v := s.spGroup g
  let ls := (s.trainLanes g p).filter fun l => v.locked.testBit l
  !ls.isEmpty && ls.all fun l => v.ident.testBit l && v.seen.testBit l

/-- IDENT (R286). -/
def State.identIn (s : State) (g p lane : Nat) (b : BitVec 256) : State :=
  let cur := s.spReg g (Reg.SP_CIRC_EXP (s.circCur g))
  let exp := s.spReg g (Reg.SP_PARTNER_EXP p)
  if bitsOf b.toNat 58 55 ≠ 3 then (s.spRaise Src.PHIZA_VERSION g p lane).spFail g p 3
  else if s.spCircuit g ∧ !partnerIs cur b then (s.circUncache g).circAbandon g 4 true
  else if !s.spCircuit g && bit exp 17 && !partnerIs exp b then
    let s := ((s.spFlag g 6).spRaise Src.PARTNER_MISMATCH g p lane).setSpF g (Reg.SP_PORT_STAT p) 15 8 4
    s.enterFailed g p
  else
    let s := s.setReg (s.spA g (Reg.SP_PARTNER p))
      (BitVec.ofNat 32 (idPort b * 2 ^ 29 + idGrp b * 2 ^ 23 + idDie b))
    let s := s.identLane g p lane b
    if s.spState g p = spIDENT ∧ s.identDone g p then s.setSpState g p spNEGOTIATE else s

/-- IDENT (R286). -/
def execIdent (group port lane : Nat) (body : BitVec 256) (s : State) : Out :=
  done (s.when (s.spHas group port && !s.stopped && (s.spGroup group).locked.testBit lane &&
      ((s.spState group port == spIDENT && (s.trainLanes group port).contains lane) ||
        (s.spState group port == spSPARING && s.freeSpare group port == some lane))) fun t =>
    t.identIn group port lane body)

/-! ### CAP and AGREE (R287, R288) -/

/-- The agreement that this end computes (R288). -/
def State.agreeNow (s : State) (g p : Nat) (cap : BitVec 256) : Option (BitVec 256) :=
  let v := s.spGroup g
  let usable := ((s.trainLanes g p).filter fun l => v.locked.testBit l && v.ident.testBit l && v.seen.testBit l)
  let own := s.spWidthLog g
  let widths := bitsOf cap.toNat 27 24
  match ((List.range (own + 1)).filter fun k => widths.testBit k && decide (2 ^ k ≤ usable.length)).getLast? with
  | none => none
  | some k =>
    let lanes := usable.take (2 ^ k)
    let spare := if s.ownSpare g && cap.toNat.testBit 28 then (usable.drop (2 ^ k)).headD 15 else 15
    let low := bit (s.spReg g Reg.SP_CTRL) 26 && cap.toNat.testBit 29 && !(s.spPort g p).fallback
    some (agrOf k low lanes spare (0x30 + min 2 (bitsOf cap.toNat 19 16)))

/-- CAP (R287): kept, and the agreement computed from it. -/
def State.capIn (s : State) (g p : Nat) (b : BitVec 256) : State :=
  match s.agreeNow g p b with
  | none => s.spFail g p 5
  | some a => s.setSpPort g p { s.spPort g p with cap := some b, agr := a }

/-- CAP (R287). -/
def execCap (group port : Nat) (body : BitVec 256) (s : State) : Out :=
  done (s.when (s.spHas group port && !s.stopped && s.spState group port == spNEGOTIATE && !s.circCached group) fun t =>
    t.capIn group port body)

/-- The cached agreement of the current circuit entry, as an AGREE body (R323). -/
def State.cachedAgr (s : State) (g : Nat) : BitVec 256 :=
  let w := s.spReg g (Reg.SP_CIRC_AGR (s.circCur g))
  agrOf (fld w 18 16) (bit w 15) (setBits 9 (fld w 31 23)) (fld w 22 19) 0x32

/-- Whether two AGREE bodies are equal in every field. -/
def sameAgr (a b : BitVec 256) : Bool := bitsOf a.toNat 72 16 == bitsOf b.toNat 72 16

/-- AGREE while the port negotiates (R288, R323). -/
def State.agreeIn (s : State) (g p : Nat) (b : BitVec 256) : State :=
  let v := s.spPort g p
  if s.circCached g then
    if sameAgr (s.cachedAgr g) b then (s.setSpPort g p { v with agr := s.cachedAgr g }).setSpState g p spDESKEW
    else (s.circUncache g).circAbandon g 6 false
  else if v.cap.isNone then s
  else if sameAgr v.agr b then s.setSpState g p spDESKEW
  else s.spFail g p 6

/-- The port and its lanes as the agreement in force shows them (R302, R303). -/
def State.showAgr (s : State) (g p : Nat) : State :=
  let a := (s.spPort g p).agr
  let ps := Reg.SP_PORT_STAT p
  let s := ((s.setSpF g ps 27 26 (agrWidth a)).setSpF g ps 25 25 (b2n (agrLow a))).setSpF g ps 7 0 (agrVersion a)
  let low := decide (agrWidth a < fld (s.spReg g Reg.SP_CTRL) 25 24)
  let s := (s.setSpF g ps 24 24 (b2n low)).setSpF g ps 22 22 (b2n ((agrMask a).testBit 8))
  let s := s.when low fun t => t.spFlag g 2
  let s := (s.portLanes g p).foldl (fun t l =>
    (((t.setSpF g (Reg.LANE_STAT l) 31 30 0).setSpF g (Reg.LANE_STAT l) 27 24 15).setSpF g (Reg.LANE_STAT l) 23 21 0)) s
  let s := ((agrLanes a).zipIdx).foldl (fun t x =>
    (((t.setSpF g (Reg.LANE_STAT x.1) 31 30 2).setSpF g (Reg.LANE_STAT x.1) 27 24 x.2).setSpF g (Reg.LANE_STAT x.1) 23 21 p)) s
  if agrSpare a < 9 then s.setSpF g (Reg.LANE_STAT (agrSpare a)) 30 30 1 else s

/-- The end of a sparing (R292, step 7): the lane is retired and the port serves again, its frames replayed from
ACK_SEQ. -/
def State.sparingDone (s : State) (g p lane spare : Nat) : State :=
  let v := s.spPort g p
  let lanes := (agrLanes v.agr).map fun l => if l = lane then spare else l
  let s := s.retireLane g lane
  let s := s.setSpPort g p { v with
    agr := agrOf (agrWidth v.agr) (agrLow v.agr) lanes 15 (agrVersion v.agr), sparing := none, off := 0
    replay := true, resend := some v.oldest }
  let s := ((s.showAgr g p).setSpState g p spACTIVE).flowUpdate g p 7 0
  ((s.spFlag g 1).spRaise Src.LANE_SPARED g p lane).spareNext g p

/-- AGREE of a sparing: the spare in place of the lane (R292, step 6). -/
def State.agreeSparing (s : State) (g p : Nat) (b : BitVec 256) : State :=
  let v := s.spPort g p
  match v.sparing, s.freeSpare g p with
  | some x, some spare =>
    let lanes := (agrLanes v.agr).map fun l => if l = x.lane then spare else l
    let want := agrOf (agrWidth v.agr) (agrLow v.agr) lanes 15 (agrVersion v.agr)
    if x.acked && (s.spGroup g).ident.testBit spare && sameAgr want b then s.sparingDone g p x.lane spare else s
  | _, _ => s

/-- AGREE (R288, R292). -/
def execAgree (group port : Nat) (body : BitVec 256) (s : State) : Out :=
  done (s.when (s.spHas group port && !s.stopped) fun t =>
    if t.spState group port = spNEGOTIATE then t.agreeIn group port body
    else if t.spState group port = spSPARING then t.agreeSparing group port body
    else t)

/-! ### DESKEW, TIME and READY (R284, R283, R290) -/

/-- A sparing is abandoned: the lane retires all the same and the port retrains without it (R292). -/
def State.abandonSparing (s : State) (g p : Nat) : State :=
  match (s.spPort g p).sparing with
  | none => s
  | some x => ((s.retireLane g x.lane).spRaise Src.LANE_SPARED g p x.lane).spRetrain g p 0 x.lane

/-- The AGREE that this end sends for the spare (R292, step 6). -/
def State.sendSpareAgree (s : State) (g p : Nat) : State :=
  let v := s.spPort g p
  match v.sparing, s.freeSpare g p with
  | some x, some spare =>
    let lanes := (agrLanes v.agr).map fun l => if l = x.lane then spare else l
    let want := agrOf (agrWidth v.agr) (agrLow v.agr) lanes 15 (agrVersion v.agr)
    s.setSpPort g p { v with ctl := v.ctl ++ [trainWord 3 (want.toNat / 2 ^ 16 * 2 ^ 16)] }
  | _, _ => s

/-- DESKEW (R284): up to 160 ns of skew is taken up. -/
def execDeskew (group port : Nat) (skewNs : Nat) (s : State) : Out :=
  done (s.when (s.spHas group port && !s.stopped) fun t =>
    if t.spState group port = spDESKEW then
      (if skewNs ≤ 160 then
        (t.setSpPort group port { t.spPort group port with exch := [], ctl := [] }).setSpState group port spTIME
       else t.spFail group port 7)
    else if t.spState group port = spSPARING then
      (if skewNs ≤ 160 then t.sendSpareAgree group port else t.abandonSparing group port)
    else t)

/-- The loop time L in NT units (R283). The partner's framing latencies come from its CAP; where none was exchanged,
they are this end's own. -/
def State.loopTime (s : State) (g p : Nat) : Nat :=
  let v := s.spPort g p
  let low := agrLow v.agr
  let (t, r) := frameLatency low (2 ^ agrWidth v.agr)
  let (t', r') := match v.cap with
    | some c => if low then (bitsOf c.toNat 110 95, bitsOf c.toNat 126 111) else (bitsOf c.toNat 78 63, bitsOf c.toNat 94 79)
    | none => (t, r)
  2 * v.dist.toNat + (t + r + t' + r') / 16 + 32

/-- TIME is complete: D and L are recorded, and READY is exchanged. -/
def State.timeDone (s : State) (g p : Nat) (d : Int) : State :=
  let s := s.setSpPort g p { s.spPort g p with dist := d }
  (s.setReg (s.spA g (Reg.SP_LOOP p)) (BitVec.ofNat 32 (s.loopTime g p))).setSpState g p spCONFIRM

/-- One exchange in TIME: 16 of them, or one of a cached circuit, whose D must lie within 16 units (R289, R323). -/
def State.timeExchange (s : State) (g p : Nat) (d : Int) : State :=
  let v := s.spPort g p
  if s.circCached g then
    let was : Int := (s.spReg g (Reg.SP_CIRC_D (s.circCur g))).toInt
    if d - was ≤ 16 ∧ was - d ≤ 16 then s.timeDone g p d
    else (s.circUncache g).circAbandon g 8 false
  else
    let xs := d :: v.exch
    let s := s.setSpPort g p { v with exch := xs }
    if 16 ≤ xs.length then s.timeDone g p (meanInt xs) else s

/-- Words that a retrain carries over: what the unacknowledged frames held of packets and sketch flits (R290). -/
def carriedWords (fs : List (Nat × List PhizaWord)) : List PhizaWord :=
  (fs.flatMap fun f => f.2).filter fun w => !w.1 || ctype w.2 == 1 || ctype w.2 == 2

/-- The port's numbering from READY: the frames not accepted by the partner are sent again in the new framing. -/
def SpPort.renumber (v : SpPort) (ackSeq startSeq : Nat) : SpPort :=
  let gone := v.sent.takeWhile fun x => x.1 != ackSeq
  let left := if gone.length < v.sent.length ∨ v.txSeq = ackSeq then v.sent.drop gone.length else v.sent
  { v with
    txWords := carriedWords left ++ v.txWords, sent := [], txSeq := ackSeq, ackSeq := startSeq
    replay := false, resend := none, nak := false, nakDue := false, rejects := 0, kept := false, fails := 0, ctl := [] }

/-- The highest panel temperature (R125). -/
def State.maxTemp (s : State) : Int :=
  (List.range (Config.panels s.config)).foldl (fun m n => max m (s.panelTemp n)) (s.panelTemp 0)

/-- A circuit training that succeeded: UP, and the entry's cache filled (R323). -/
def State.circUp (s : State) (g : Nat) : State :=
  let n := s.circCur g
  let v := s.spPort g 0
  let s' := s.setSpF g Reg.SP_CIRC_STAT 27 27 1
  if s.circCached g then s'
  else
    let a := v.agr
    let w := agrMask a * 2 ^ 23 + agrSpare a % 16 * 2 ^ 19 + agrWidth a * 2 ^ 16 + b2n (agrLow a) * 2 ^ 15 + 2 ^ 14
    (s'.setReg (s.spA g (Reg.SP_CIRC_AGR n)) (BitVec.ofNat 32 w)).setReg (s.spA g (Reg.SP_CIRC_D n)) (BitVec.ofInt 32 v.dist)

/-- READY (R290): the port is ACTIVE. -/
def State.readyIn (s : State) (g p ackSeq startSeq : Nat) : State :=
  let s := s.setSpPort g p ((s.spPort g p).renumber (ackSeq % 2 ^ 24) (startSeq % 2 ^ 24))
  let s := (s.showAgr g p).setSpState g p spACTIVE
  let s := s.when (g == s.dieF Reg.TIME_CFG 5 0 && bit (s.die Reg.TIME_CFG) 6) fun t =>
    t.setDie Reg.TIME_TRAIN_TEMP (BitVec.ofNat 32 (encodeInt 8 t.maxTemp))
  (s.when (s.spCircuit g) fun t => t.circUp g).flowUpdate g p 7 0

/-- READY (R290). -/
def execReady (group port : Nat) (ackSeq startSeq : Nat) (s : State) : Out :=
  done (s.when (s.spHas group port && !s.stopped && s.spState group port == spCONFIRM &&
      (!s.spCircuit group || (s.circWindow group).isSome)) fun t => t.readyIn group port ackSeq startSeq)

end Sys2Proof.Machine
end

