-- ==== Sys2Proof/Machine/Beacon.lean ====
section
/-! DEFINITION. Beacons between dies (R118, R119, R123, R289): the answers this die gives, the loop that follows a parent,
and the expiry of a holdover. -/
namespace Sys2Proof.Machine

/-- A BEACON word (R289). -/
def State.beaconWord (s : State) (bseq : Nat) (reverse : Bool) (ta tb : Nat) : DataWord :=
  BitVec.ofNat 256 (3 + bseq % 256 * 2 ^ 8 + b2n reverse * 2 ^ 16 + s.timeState * 2 ^ 17 +
    s.dieF Reg.TIME_STAT 15 0 * 2 ^ 21 + s.dieF Reg.TIME_STAT 27 24 * 2 ^ 37 + ta % 2 ^ 64 * 2 ^ 41 + tb % 2 ^ 64 * 2 ^ 105)

/-- A control word waits at a port. -/
def State.spControl (s : State) (g p : Nat) (w : DataWord) : State :=
  let v := s.spPort g p
  s.setSpPort g p { v with ctl := v.ctl ++ [w] }

/-- A group's part in the time tree: `some true` for the parent, `some false` for the backup (R116); a circuit group is
never one (R319), and the root follows none. -/
def State.timeRole (s : State) (g : Nat) : Option Bool :=
  let w := s.die Reg.TIME_CFG
  if bit w 31 || s.spCircuit g then none
  else if bit w 6 && fld w 5 0 == g then some true
  else if bit w 14 && fld w 13 8 == g then some false
  else none

/-- The record of a parent, changed. -/
def State.setParent (s : State) (primary : Bool) (f : Parent → Parent) : State :=
  if primary then { s with time := { s.time with parent := f s.time.parent } }
  else { s with time := { s.time with backup := f s.time.backup } }

/-- The record of a parent. -/
def State.parentRec (s : State) (primary : Bool) : Parent := if primary then s.time.parent else s.time.backup

/-- A reverse beacon leaves a port: its t1 is kept (R118). -/
def State.sendReverse (s : State) (g p : Nat) : State :=
  let v := s.spPort g p
  let t1 := s.capture.toNat
  let s := s.draw.spControl g p (s.beaconWord v.bseq true t1 0)
  s.setSpPort g p { s.spPort g p with bseq := (v.bseq + 1) % 256, t1 := v.t1.put (v.bseq % 256) t1 }

/-- BEACON_SEND (R289): ports in TIME, and the first ACTIVE port of the parent's and the backup's group. -/
def State.beaconSend (s : State) (g : Nat) : State :=
  let ports := List.range (s.spPorts g)
  let s := (ports.filter fun p => s.spState g p == spTIME).foldl (fun t p => t.sendReverse g p) s
  match s.timeRole g, ports.find? (fun p => s.spState g p == spACTIVE) with
  | some primary, some p =>
    if s.masterRuns then (s.sendReverse g p).setParent primary fun r => { r with missed := r.missed + 1 } else s
  | some primary, none => s.when s.masterRuns fun t => t.setParent primary fun r => { r with missed := r.missed + 1 }
  | none, _ => s

/-- BEACON_SEND (R289). -/
def execBeaconSend (group : Nat) (s : State) : Out :=
  done (s.when (s.spExists group && !s.stopped) fun t => t.beaconSend group)

/-- The fixed asymmetry A of a link in 1/16 NT units (R118, R287). -/
def State.asymmetry (s : State) (g p : Nat) : Int :=
  let own := s.spReg g Reg.SP_PMA_LAT
  match (s.spPort g p).cap with
  | some c => ((bitsOf c.toNat 46 31 : Nat) : Int) + (fld own 15 0 : Nat) - (fld own 31 16 : Nat) - (bitsOf c.toNat 62 47 : Nat)
  | none => 0

/-- Whether a parent that reports a state can be followed: LOCKED, HOLDOVER or ROOT (R119, R123). -/
def followable (st : Nat) : Bool := st == 2 || st == 3 || st == 5

/-- A measurement of a parent, entered in its record: D and e of R118. -/
def Parent.measure (r : Parent) (d e : Int) (b : BitVec 256) : Parent :=
  let errs := (e :: r.errs).take 16
  let off := e - meanInt errs
  { r with
    delays := (d :: r.delays).take 16, errs := errs, good := if off ≤ 2 ∧ -2 ≤ off then r.good + 1 else 0
    missed := 0, valid := followable (bitsOf b.toNat 20 17), state := bitsOf b.toNat 20 17, depth := bitsOf b.toNat 40 37
    hold := bitsOf b.toNat 36 21, lastE := e }

/-- The registers that show the followed parent's last measurement (R142). -/
def State.showParent (s : State) (r : Parent) : State :=
  (s.setDie Reg.TIME_PHASE_ERR (BitVec.ofInt 32 r.lastE)).setDie Reg.TIME_LINK_DELAY (BitVec.ofInt 32 (meanInt r.delays))

/-- A beacon of ACQUIRING (R121): the frequency error that the residual implies is corrected, and after 8 beacons in a
row the averaged offset is applied. -/
def State.acquireBeacon (s : State) (r : Parent) : State :=
  let off := r.lastE - meanInt r.errs
  let incr : Int := (s.timeIncr : Int) + off * 160 * 2 ^ 32 / (4 * s.beaconPeriod : Int)
  let s := s.when (!incrInRange incr) fun t => t.raiseDie Src.TIME_LOCK 0 0
  let v := clampIncr incr
  let s := s.setTimeIncr v
  let s := { s with time := { s.time with incrHist := (v :: s.time.incrHist).take 16 } }
  if 8 ≤ r.good then
    let blocked := s.stencilRun && decide (8 < r.good)
    let s := if blocked && s.timeState == 1 && (decide (2 ^ 20 < meanInt r.errs) || decide (meanInt r.errs < -(2 ^ 20))) then s
      else s.acquireEnd
    if s.timeState = 2 then (s.setDepth (r.depth + 1)).setParent (s.dieF Reg.TIME_STAT 23 23 == 0) fun q => { q with errs := [] }
    else s
  else s

/-- What a measured beacon of a parent makes of this die's time (R119, R121 to R123). -/
def State.beaconActs (s : State) (primary : Bool) : State :=
  let r := s.parentRec primary
  let followed := primary == (s.dieF Reg.TIME_STAT 23 23 == 0)
  let s := s.when followed fun t => t.showParent r
  if !r.valid then s
  else match s.timeState with
    | 1 => if followed then s.acquireBeacon r else s
    | 2 =>
      if followed then
        let s := (s.loopCorrect r.lastE s.beaconPeriod).setDepth (r.depth + 1)
        s.setDieF Reg.TIME_STAT 15 0 (if r.state = 3 then r.hold else 0)
      else s
    | 3 =>
      if r.state = 3 then
        (if followed then
          let h := max s.holdUs r.hold
          let s := (s.loopCorrect r.lastE s.beaconPeriod).setDieF Reg.TIME_STAT 15 0 h
          { s with time := { s.time with holdBase := h, holdEdge := s.time.edges } }
         else s)
      else if followed || !primary then
        let s := s.when (!followed) fun t =>
          (t.setDieF Reg.TIME_STAT 23 23 1).raiseDie Src.TIME_PARENT_LOST 0 0
        ((s.setTimeState 2).loopCorrect r.lastE s.beaconPeriod).setDepth (r.depth + 1)
      else s
    | 4 =>
      if followed then (s.setTimeState 1).setParent primary fun q => { q with errs := [], good := 0 } else s
    | _ => s

/-- A forward beacon: the stamps give D and e; TIME counts the exchange, and a parent's beacon feeds the loop while the
master easel core runs (R40, R118, R119). -/
def State.forwardBeacon (s : State) (g p : Nat) (b : BitVec 256) : State :=
  let v := s.spPort g p
  let n := bitsOf b.toNat 15 8
  match v.t1.find? n with
  | none => s
  | some t1 =>
    let t4 := s.capture.toNat
    let t3 := bitsOf b.toNat 104 41
    let t2 := bitsOf b.toNat 168 105
    let d : Int := (((t4 : Int) - t1) - ((t3 : Int) - t2)) / 2
    let s := s.draw.setSpPort g p { v with t1 := v.t1.del n }
    let st := s.spState g p
    let s := match s.timeRole g with
      | some primary =>
        if s.masterRuns then
          let mean := meanInt ((d :: (s.parentRec primary).delays).take 16)
          let e : Int := (t3 : Int) + mean + s.asymmetry g p / 32 - t4
          let s := s.setParent primary fun r => r.measure d e b
          s.when (st == spACTIVE) fun t => t.beaconActs primary
        else s
      | none => s
    s.when (st == spTIME) fun t => t.timeExchange g p d

/-- A reverse beacon is answered with t2 and t3 (R289). -/
def State.reverseBeacon (s : State) (g p : Nat) (b : BitVec 256) : State :=
  let t2 := s.capture.toNat
  let s := s.draw
  let t3 := s.capture.toNat
  s.draw.spControl g p (s.beaconWord (bitsOf b.toNat 15 8) false t3 t2)

/-- BEACON (R119, R289). -/
def execBeacon (group port : Nat) (body : BitVec 256) (s : State) : Out :=
  done (s.when (s.spHas group port && !s.stopped && (s.spState group port == spTIME || s.spState group port == spACTIVE))
    fun t => if body.toNat.testBit 16 then t.reverseBeacon group port body else t.forwardBeacon group port body)

end Sys2Proof.Machine
end

