-- ==== Sys2Proof/Machine/Circuit.lean ====
section
/-! DEFINITION. Circuit groups (R319 to R326): their windows, and what starting, stopping and switching the stencils does
to them (R126, R131, R132). -/
namespace Sys2Proof.Machine

/-- The circuit groups of the die. -/
def State.circGroups (s : State) : List Nat := (List.range 64).filter fun g => s.spExists g && s.spCircuit g

/-- The record of a group's window. -/
def State.setCirc (s : State) (g : Nat) (w : Option CircNow) : State :=
  { s with spine := { s.spine with circ := match w with
      | some x => s.spine.circ.put g x
      | none => s.spine.circ.del g } }

/-- NT left in a group's circuit window. -/
def State.circLeft (s : State) (g : Nat) : Option Nat := s.windowLeft (s.spSite g).1 (s.spSite g).2
/-- The effective cutoff of a group. -/
def State.circCutoff (s : State) (g : Nat) : Nat := s.effCutoff (s.spSite g).1 (s.spSite g).2

/-- A circuit port keeps nothing of its sender and receiver; packets received whole still wait to be injected (R324). -/
def State.circFresh (s : State) (g : Nat) : State :=
  let v := s.spPort g 0
  s.setSpPort g 0 { SpPort.empty with ingress := v.ingress, fallback := v.fallback, bseq := v.bseq, t1 := v.t1 }

/-- CIRCUIT_WINDOW_START (R322, R323, R326). -/
def State.circStart (s : State) (g : Nat) : State :=
  let n := (s.circCur g + 1) % (fld (s.spReg g Reg.SP_CIRC_CFG) 27 24 + 1)
  let s := s.setSpF g Reg.SP_CIRC_STAT 31 28 n
  let cached := bit (s.spReg g (Reg.SP_CIRC_AGR n)) 14
  let s := s.setCirc g (some ⟨s.ntNat, cached, false, false⟩)
  let st := s.spState g 0
  if st = spSAFETY_HOLD then
    let s := (s.setCirc g (some ⟨s.ntNat, cached, false, true⟩)).setSpF g Reg.SP_CIRC_STAT 15 8 0x0A
    (s.count (s.spA g Reg.SP_CIRC_MISS_CNT) 1).raise Src.CIRCUIT_MISS (s.spSite g).1 (.spineGroup g) 0 0 g n
  else if st = spDISABLED then s.setCirc g (some ⟨s.ntNat, cached, false, true⟩)
  else
    let s := (s.takeWidth g).circFresh g
    if !bit (s.spReg g (Reg.SP_CIRC_EXP n)) 17 then s.circAbandon g 4 true
    else s.enterWait g 0

/-- CIRCUIT_WINDOW_START (R323). -/
def execCircuitWindowStart (group : Nat) (s : State) : Out :=
  done (s.when (s.spExists group && !s.stopped && s.spCircuit group && (s.spine.circ.find? group).isNone &&
      (s.circLeft group).isSome) fun t => t.circStart group)

/-- Whether a circuit training has run out of time (R323): FAST_LIMIT with a cached entry, else the effective cutoff. -/
def State.circLate (s : State) (g : Nat) (w : CircNow) : Bool :=
  if w.cached then decide (w.from' + 16 * max 1 (fld (s.spReg g Reg.SP_CIRC_CFG2) 31 16) ≤ s.ntNat)
  else match s.circLeft g with
    | some left => decide (left ≤ s.circCutoff g)
    | none => true

/-- CIRCUIT_TRAIN_ABANDON (R323): with code 0x01 where no lane has locked, else TRAIN_LIMIT. -/
def execCircuitTrainAbandon (group : Nat) (s : State) : Out :=
  done (s.when (s.spExists group && !s.stopped && s.spCircuit group) fun t =>
    match t.spine.circ.find? group with
    | some w =>
      if !w.lost && !bit (t.spReg group Reg.SP_CIRC_STAT) 27 && t.circLate group w then
        t.circAbandon group (if t.spState group 0 ≤ spLOCK then 1 else 0x0B) false
      else t
    | none => t)

/-- CIRCUIT_CUTOFF (R324). -/
def execCircuitCutoff (group : Nat) (s : State) : Out :=
  done (s.when (s.spExists group && !s.stopped && s.spCircuit group) fun t =>
    match t.spine.circ.find? group, t.circLeft group with
    | some w, some left => if left ≤ t.circCutoff group then t.setCirc group (some { w with closed := true }) else t
    | _, _ => t)

/-- The end of a window (R324): UP clears, frames not acknowledged are cut, and packets without their tail are lost. -/
def State.circEnd (s : State) (g : Nat) : State :=
  let v := s.spPort g 0
  let pos := (s.spSite g).1
  let cut := !v.sent.isEmpty || !v.tx.isEmpty || !v.txWords.isEmpty
  let s := (s.setCirc g none).setSpF g Reg.SP_CIRC_STAT 27 27 0
  let s := s.when (!v.rxPart.isEmpty) fun t => t.count (rtrA pos Reg.DISC_LOSS_CNT) v.rxPart.length
  let s := s.when cut fun t =>
    (t.count (t.spA g Reg.SP_CIRC_CUT_CNT) 1).raise Src.CIRCUIT_CUT pos (.spineGroup g) 0 0 g (t.circCur g)
  let s := s.circFresh g
  if s.spState g 0 = spDISABLED ∨ s.spState g 0 = spSAFETY_HOLD then s else (s.clearLanes g 0).setSpState g 0 spWAIT_PMA

/-- CIRCUIT_WINDOW_END (R324). -/
def execCircuitWindowEnd (group : Nat) (s : State) : Out :=
  done (s.when (s.spExists group && !s.stopped && (s.spine.circ.find? group).isSome && (s.circLeft group).isNone) fun t =>
    t.circEnd group)

/-- Every window in progress ends at once (R326). -/
def State.circEndAll (s : State) : State := (s.spine.circ.map (·.1)).foldl State.circEnd s
/-- CUR of every circuit group is set to COUNT (R322). -/
def State.circRewind (s : State) : State :=
  s.circGroups.foldl (fun t g => t.setSpF g Reg.SP_CIRC_STAT 31 28 (fld (t.spReg g Reg.SP_CIRC_CFG) 27 24)) s

/-- A write of SP_CIRC_CFG (R319): CIRCUIT = 1 without WIDTH_LOG 0b11 is ignored with a Note. -/
def State.circCfgWrite (s : State) (a : RegAddr) (data : Word) : State :=
  let side := a.off / 0x4000
  if bit data 31 ∧ fld (s.reg (edgeA a.pos side Reg.SP_CTRL)) 25 24 ≠ 3 then s.cfgNote a
  else s.plainWrite a data

/-- A write of SP_CIRC_EXP_n clears the entry's cache (R325). -/
def State.circExpWrite (s : State) (a : RegAddr) (data : Word) : State :=
  (s.plainWrite a data).setRegF { a with off := a.off + 4 } 14 14 0

/-! ### The stencils (R126, R131, R132) -/

/-- A write of STENCIL_CTRL, with what it does to circuit windows (R322, R326). -/
def State.stencilCtrlWrite (s : State) (data : Word) : State :=
  let was := s.stencilRun
  let s := s.stencilRunWrite data
  let s := s.when (!was && s.stencilRun) State.circRewind
  s.when (was && !s.stencilRun) State.circEndAll

/-- STENCIL_RUN (R131). -/
def execStencilRun (acc : Access) (data : Word) (s : State) : Out :=
  done (guardedWrite acc (dieA Reg.STENCIL_CTRL) (fun t => t.stencilCtrlWrite data) s)

/-- STENCIL_BANK_SWITCH (R132, R322); a glaze switch in progress makes it itself, with the routes (R362). -/
def execStencilBankSwitch (s : State) : Out :=
  done (s.when (bit (s.die Reg.STENCIL_SWITCH_ARM) 0 && decide (s.switchAt ≤ s.ntNat) &&
      !bit (s.die Reg.GLAZE_SWITCH_STAT) 31) fun t =>
    (t.circEndAll.stencilBankSwitch).circRewind)

/-- TIME_EXPIRED (R126): after 5 ms of holdover. -/
def execTimeExpired (s : State) : Out :=
  done (s.when (s.timeState == 3 && decide (5000 ≤ s.holdUs)) fun t => t.timeExpire.circEndAll)

end Sys2Proof.Machine
end

