-- ==== Sys2Proof/Machine/Panels.lean ====
section
/-! DEFINITION. Panels: idleness and gaps (R371, R372), sleep and wake (R370, R373 to R375), stretch (R368, R376, R377),
temperature (R378, R125). -/
namespace Sys2Proof.Machine

/-! ### Positions of a panel -/

/-- The positions of a panel. -/
def State.panelPos (s : State) (n : Nat) : List Nat := s.positions.filter fun p => s.panelOf p == n
/-- Whether a panel exists (R393). -/
def State.panelExists (s : State) (n : Nat) : Bool := decide (n < Config.panels s.config)

/-! ### THROTTLE and STRETCH (R377, R378, R379, R382) -/

/-- The rail of a panel and its tile clients (R381). -/
def State.panelRail (s : State) (n : Nat) : Nat := fld (s.die (Reg.RAIL_MAP (n / 8))) (4 * (n % 8) + 2) (4 * (n % 8))

/-- A panel's stretch level: the highest that the droop detectors, the rail limiter up to STRETCH_MAX and the thermal trip
request (R377). -/
def State.stretchLevel (s : State) (n : Nat) : Nat :=
  max (s.power.droop.get (0, 0) n).1
    (max (min (s.dieF (Reg.PANEL_CFG n) 26 24) (s.railLevel (s.panelRail n))) (if s.power.hot.contains n then 7 else 0))

/-- A client's THROTTLE: the highest that its rail, the thermal trip and its own excess request. -/
def State.throttleLevel (s : State) (pos : Nat) : Nat :=
  let n := s.panelOf pos
  max (s.power.viol.get 0 pos) (max (s.railLevel (s.panelRail n)) (if s.power.hot.contains n then 7 else 0))

/-- Whether a position has a budget port: the S-configuration's reduction tiles have none (R394). -/
def State.hasBudget (s : State) (pos : Nat) : Bool := s.inMesh pos && !Config.spineRole s.config

/-- THROTTLE of a client, as driven. -/
def State.driveThrottle (s : State) (pos : Nat) : State :=
  if s.hasBudget pos then s.setRegF (tileA pos Reg.TILE_BUDGET) 15 13 (min 7 (s.throttleLevel pos)) else s

/-- STRETCH of a panel and THROTTLE of its clients, as driven. -/
def State.drivePanel (s : State) (n : Nat) : State :=
  let s := s.setDieF (Reg.PANEL_STAT n) 26 24 (min 7 (s.stretchLevel n))
  (s.panelPos n).foldl State.driveThrottle s

/-! ### Idle (R371) -/

/-- Whether a position holds no flit, no running command, no outstanding read and no wash beat, and its client asserts
IDLE. -/
def State.posIdle (s : State) (n : Nat) (hold pos : Nat) : Bool :=
  (!s.hasBudget pos || s.isSpare pos || bit (s.reg (tileA pos Reg.TILE_BUDGET)) 10) &&
    (match s.power.tppAt.get 0 pos with | 0 => true | e => decide (e - 1 + hold ≤ s.time.edges)) && decide (s.panelOf pos = n)

/-- Whether a store holds something of a panel, its keys being a position times a factor and more. -/
def State.panelHolds {α : Type} (s : State) (n scale : Nat) (m : Store α) (p : α → Bool) : Bool :=
  m.any fun kv => s.panelOf (kv.1 / scale) == n && p kv.2

/-- Whether a panel is idle (R371). -/
def State.panelIdle (s : State) (n : Nat) : Bool :=
  let hold := s.dieF (Reg.PANEL_CFG n) 15 0
  !s.panelHolds n 84 s.mesh.vcs (fun b => !b.buf.isEmpty || !b.feed.isEmpty) &&
  !s.panelHolds n 32 s.redSlots (fun _ => true) &&
  !s.panelHolds n 4 s.eng.lanes (fun l => !l.isEmpty) &&
  !s.panelHolds n 256 s.eng.cmds (fun c => c.st == 2) &&
  !s.panelHolds n 64 s.eng.rdOut (fun k => k != 0) &&
  !s.panelHolds n 1 s.eng.taps (fun l => !l.isEmpty) &&
  !s.panelHolds n 32 s.mesh.intake (fun l => !l.isEmpty) &&
  !s.panelHolds n 32 s.mesh.answers (fun l => !l.isEmpty) &&
  (s.panelPos n).all fun p => s.posIdle n hold p

/-! ### Gaps (R135, R372, R375) -/

/-- Wake time of a state in NT units (R370). -/
def wakeTime (st : Nat) : Nat := match st with | 1 => 48 | 2 => 1920 | 3 => 96000 | _ => 0
/-- Entry time of a state in NT units (R370). -/
def entryTime (st : Nat) : Nat := match st with | 1 => 32 | 2 => 640 | 3 => 16000 | _ => 0

/-- The wake lead of a state in NT units: a written lead below the minimum acts as the minimum (R135). -/
def State.wakeLead (s : State) (n st : Nat) : Nat :=
  32 * (match st with
    | 1 => max 9 (s.dieF (Reg.WAKE_LEAD_A n) 15 0)
    | 2 => max 67 (s.dieF (Reg.WAKE_LEAD_A n) 31 16)
    | 3 => max 3007 (s.dieF (Reg.WAKE_LEAD_B n) 15 0)
    | _ => 0)

/-- Whether an entry needs its panel in Run: AWAKE, or a gated VC open (R128, R135). -/
def State.entryBusy (s : State) (e : BitVec 64) : Bool :=
  entAwake e || (List.range 4).any fun vc => s.gated vc && (entGate e).testBit vc

/-- NT at which the first entry that satisfies a test begins, walking from an entry on; none where a whole round has none. -/
def State.nextEntry (s : State) (pos point : Nat) (busy : BitVec 64 → Bool) : (fuel index start : Nat) → Option Nat
  | 0, _, _ => none
  | fuel + 1, index, start =>
    let e := s.stencilEntry s.stencilBank pos point index
    if busy e then some start
    else s.nextEntry pos point busy fuel (if entLast e || index == 255 then 0 else index + 1) (start + 32 * entDurEff e)

/-- NT at which the next entry of a running point that satisfies a test begins: now or earlier where it is in use. -/
def State.pointNext (s : State) (pos point : Nat) (busy : BitVec 64 → Bool) : Option Nat :=
  match s.time.gates.find? (32 * pos + point) with
  | some g =>
    if busy g.entry then some g.opens.toNat
    else s.nextEntry pos point busy 256 (if entLast g.entry || g.index == 255 then 0 else g.index + 1) g.closes
  | none => none

/-- The points of a panel that run a stencil: (position, POINT). -/
def State.panelPoints (s : State) (n : Nat) : List (Nat × Nat) :=
  (s.time.gates.map fun kv => (kv.1 / 32, kv.1 % 32)).filter fun x => x.2 != 31 && s.panelOf x.1 == n

/-- The earliest of some instants. -/
def earliest (l : List (Option Nat)) : Option Nat :=
  l.foldl (fun m x => match m, x with
    | some a, some b => some (min a b)
    | none, b => b
    | a, none => a) none

/-- NT at which a panel's stencils need it next (R135). -/
def State.panelNext (s : State) (n : Nat) : Option Nat :=
  earliest ((s.panelPoints n).map fun x => s.pointNext x.1 x.2 s.entryBusy)

/-- NT at which the wash stencil next names a writer, its withholding included (R375). -/
def State.washNext (s : State) : Option Nat :=
  if s.washRuns then
    (if s.time.wash.isSome || decide (s.ntNat < s.washFrom) then some s.ntNat
     else s.pointNext 0 31 fun e => (entWriter e).isSome)
  else none

/-- The earliest START_NT of a QUEUED timed command of a panel (R372). -/
def State.timedNext (s : State) (n : Nat) : Option Nat :=
  earliest ((s.eng.cmds.filter fun kv => s.panelOf (kv.1 / 256) == n && kv.2.st == 1 && dTimed kv.2.desc).map fun kv =>
    some (dStart kv.2.desc))

/-- NT units from now to an instant; 0 where it has passed. -/
def State.until' (s : State) (t : Option Nat) : Option Nat := t.map fun x => x - s.ntNat

/-- Whether a gap holds a state: entry time and lead fit before the next need; timed commands end it at their lead
(R372, R375). -/
def State.stateFits (s : State) (n st : Nat) : Bool :=
  let lead := s.wakeLead n st
  let need := entryTime st + lead
  let ok (t : Option Nat) (early : Nat) : Bool := match s.until' t with
    | some g => decide (need ≤ g - early)
    | none => true
  ok (s.panelNext n) 0 && ok (s.timedNext n) lead && (decide (st < 2) || ok s.washNext 0)

/-- Whether IDLE_SLEEP's wait has passed (R372). -/
def State.idleLong (s : State) (n : Nat) : Bool :=
  let from' := s.power.idleFrom.get 0 n
  from' != 0 && decide (from' - 1 + s.dieF (Reg.PANEL_CFG n) 15 0 ≤ s.time.edges)

/-- The state that an idle panel in Run enters now; none where it stays (R372). -/
def State.sleepChoice (s : State) (n : Nat) : Option Nat :=
  let cfg := s.die (Reg.PANEL_CFG n)
  let deepest := fld cfg 31 30
  if s.stencilRun && !(s.panelPoints n).isEmpty then
    ((List.range 4).filter fun st => decide (1 ≤ st) && decide (st ≤ deepest) && s.stateFits n st).getLast?
  else if bit cfg 29 && decide (1 ≤ deepest) && s.idleLong n then some 1
  else none

/-! ### Sleep and wake (R370, R372 to R375) -/

/-- PANEL_SLEEP: an idle panel in Run begins to enter a state. -/
def State.panelSleep (s : State) (n : Nat) : State :=
  if s.panelState n ≠ 0 || (s.power.entering.find? n).isSome || (s.power.waking.find? n).isSome || !s.panelIdle n then s
  else match s.sleepChoice n with
    | some st => { s with power := { s.power with entering := s.power.entering.put n (st, s.ntNat + entryTime st) } }
    | none => s

/-- PANEL_SLEEP (R372). -/
def execPanelSleep (panel : Nat) (s : State) : Out := done (s.when (s.panelExists panel && !s.stopped) fun t => t.panelSleep panel)

/-- Whether a register of a panel keeps its value in Off (R370): tables, masks, context records, queues, counters and
tree entries; the tray's own (R199, R200); the fence and the budget, which are held outside the panel. -/
def keptInOff (region off : Nat) : Bool :=
  match region with
  | 0 => decide (0x0200 ≤ off)
  | 1 => (decide (0x0140 ≤ off) && decide (off < 0x02A0)) || (decide (0x0300 ≤ off) && decide (off < 0x0400)) ||
      (decide (0x0800 ≤ off) && decide (off < 0x1800)) || (decide (0x2000 ≤ off) && decide (off < 0x6400)) ||
      (decide (0x6800 ≤ off) && decide (off < 0x6C00))
  | _ => true

/-- What a panel loses in Off: every register that is not kept is at its reset value when the panel wakes, and the
translation caches are empty (R370, log entry 32). -/
def State.panelLoses (s : State) (n : Nat) : State :=
  let mine (k : Nat) : Bool := s.panelOf (k / 2 ^ 16 % 1024) == n && !keptInOff (k / 2 ^ 26) (k % 2 ^ 16)
  { s with
    regs := s.regs.keep fun k => !mine k
    arbLive := s.arbLive.keep fun k => !mine k
    eng := { s.eng with tlb := s.eng.tlb.keep fun p => s.panelOf p != n } }

/-- The panel's On banks are held as Retain (R199). -/
def State.panelBanks (s : State) (n : Nat) : State :=
  (s.panelPos n).foldl (fun t pos =>
    let w := t.reg (tileA pos Reg.TRAY_BANK_CTRL)
    let w' := (List.range 16).foldl (fun v b => if fld v (2 * b + 1) (2 * b) = 0 then setFld v (2 * b + 1) (2 * b) 1 else v) w
    t.setReg (tileA pos Reg.TRAY_BANK_CTRL) w') s

/-- PANEL_ENTRY_DONE: the entry time has passed. -/
def State.panelEntered (s : State) (n : Nat) : State :=
  match s.power.entering.find? n with
  | some (st, at') =>
    if at' ≤ s.ntNat then
      let s := { s with power := { s.power with entering := s.power.entering.del n } }
      let s := (s.setDieF (Reg.PANEL_STAT n) 31 30 st).traceEvent 2 (n + st * 2 ^ 4)
      s.when (st == 3) fun t => (t.panelLoses n).panelBanks n
    else s
  | none => s

/-- PANEL_ENTRY_DONE (R370). -/
def execPanelEntryDone (panel : Nat) (s : State) : Out :=
  done (s.when (s.panelExists panel && !s.stopped) fun t => t.panelEntered panel)

/-- The state that a wake leaves: the panel's own, or the one it is entering (R374). -/
def State.wakingFrom (s : State) (n : Nat) : Nat :=
  match s.power.entering.find? n with
  | some (st, _) => st
  | none => s.panelState n

/-- A wake begins. With one under way the earlier completion applies, and no unplanned wake counts beside a planned one
(R373, R374). -/
def State.startWake (s : State) (n : Nat) (planned : Bool) : State :=
  let from' := s.wakingFrom n
  if from' = 0 then s
  else match s.power.waking.find? n with
    | some (t, was) =>
      if planned && !was then
        let a := dieA (Reg.PANEL_WAKE_CNT n)
        let s := s.setReg a (BitVec.ofNat 32 ((s.reg a).toNat - 1))
        { s with power := { s.power with waking := s.power.waking.put n (t, true) } }
      else s
    | none =>
      let s := s.when (!planned) fun t => t.count (dieA (Reg.PANEL_WAKE_CNT n)) 1
      { s with power := { s.power with
          waking := s.power.waking.put n (s.ntNat + wakeTime from', planned), entering := s.power.entering.del n } }

/-- PANEL_WAKE (R373). -/
def execPanelWake (panel : Nat) (s : State) : Out :=
  done (s.when (s.panelExists panel && !s.stopped) fun t => t.startWake panel false)

/-- Whether a planned wake is due: the lead of the panel's state has come before the next need (R135, R372, R375). -/
def State.wakeDue (s : State) (n : Nat) : Bool :=
  let st := s.wakingFrom n
  let lead := s.wakeLead n st
  let due (t : Option Nat) : Bool := match s.until' t with
    | some g => decide (g ≤ lead)
    | none => false
  st != 0 && s.stencilRun && (due (s.panelNext n) || due (s.timedNext n) || (decide (2 ≤ st) && due s.washNext))

/-- PANEL_WAKE_PLANNED (R135). -/
def execPanelWakePlanned (panel : Nat) (s : State) : Out :=
  done (s.when (s.panelExists panel && !s.stopped && s.wakeDue panel) fun t => t.startWake panel true)

/-- PANEL_WAKE_DONE (R373): the panel is in Run. -/
def execPanelWakeDone (panel : Nat) (s : State) : Out :=
  done (s.when (s.panelExists panel && !s.stopped) fun t =>
    match t.power.waking.find? panel with
    | some (at', _) =>
      if at' ≤ t.ntNat then
        { (t.setDieF (Reg.PANEL_STAT panel) 31 30 0).traceEvent 2 panel with power := { t.power with
            waking := t.power.waking.del panel, idleFrom := t.power.idleFrom.del panel } }
      else t
    | none => t)

/-! ### Droop (R376, R377) -/

/-- HOLD of DROOP_CFG: 0 acts as 1. -/
def State.droopHold (s : State) : Nat := max 1 (s.dieF Reg.DROOP_CFG 15 0)

/-- DROOP: a detector fires. The two detectors of the control clock branch, named by a panel beyond the last, stretch
nothing (R377). -/
def execDroop (panel : Nat) (s : State) : Out :=
  done (s.when (!s.stopped) fun t =>
    if t.panelExists panel then
      let lvl := max 1 (t.power.droop.get (0, 0) panel).1
      let t := { t with power := { t.power with droop := t.power.droop.put panel (lvl, t.cycle) } }
      ((t.setDieF (Reg.PANEL_STAT panel) 29 29 1).raiseDie Src.DROOP panel 0).drivePanel panel
    else t.raiseDie Src.DROOP_CTRL 0 0)

/-- DROOP_HOLD_END (R376): HOLD cycles after the last firing. -/
def execDroopHoldEnd (panel : Nat) (persists : Bool) (s : State) : Out :=
  let (lvl, at') := s.power.droop.get (0, 0) panel
  done (s.when (s.panelExists panel && !s.stopped && lvl != 0 && decide (at' + s.droopHold ≤ s.cycle)) fun t =>
    let d := if persists then t.power.droop.put panel (min 7 (lvl + 1), t.cycle) else t.power.droop.del panel
    ({ t with power := { t.power with droop := d } }).drivePanel panel)

/-! ### Temperature (R378, R125) -/

/-- A POWER_BUDGET flit of KIND 0 leaves the steward for a tile port (R380). -/
def State.sendBudget (s : State) (pos value : Nat) : State :=
  s.sketchSend 0
    { dest := s.tileEndpoint pos 0, src := s.physEndpoint 0 20, kvc := 2, stype := 9, ctx := 0, tag := 0, priv := 1
      body := BitVec.ofNat 256 (value % 65536 * 2 ^ 16) }

/-- A client's budget now: its share of the cap less the eighths that a warm panel takes (R378, R384). -/
def State.budgetNow (s : State) (pos : Nat) : Nat :=
  let less := s.power.warm.get 0 (s.panelOf pos) - 1
  s.power.base.get 0xFFFF pos * (8 - less) / 8

/-- The active tiles of a panel. -/
def State.activeTiles (s : State) (n : Nat) : List Nat := (s.panelPos n).filter fun p => !s.isSpare p && s.hasBudget p

/-- The warning of a panel (R378): one eighth less at each reading above WARN, one more at each 5 °C below it; the steward
acts while the master easel core runs. -/
def State.tempWarn (s : State) (n : Nat) (t : Int) : State :=
  let warn := signed 8 (s.dieF Reg.THERM_CFG 23 16)
  let old := s.power.warm.get 0 n
  let s := s.when (decide (warn < t) && old == 0) fun u =>
    (u.setDieF (Reg.PANEL_STAT n) 28 28 1).raiseDie Src.THERM_WARN n (encodeInt 8 t)
  let new := if warn < t then (if s.masterRuns then min 8 (max 1 old + 1) else max 1 old)
    else if t ≤ warn - 5 then (if s.masterRuns then old - 1 else old)
    else old
  let s := { s with power := { s.power with warm := s.power.warm.set 0 n new } }
  if new ≠ old ∧ s.masterRuns then (s.activeTiles n).foldl (fun u p => u.sendBudget p (u.budgetNow p)) s else s

/-- The thermal trip of a panel (R378): THROTTLE 7 and stretch level 7, without firmware. -/
def State.tempCrit (s : State) (n : Nat) (t : Int) : State :=
  let crit := signed 8 (s.dieF Reg.THERM_CFG 31 24)
  let was := s.power.hot.contains n
  if crit < t ∧ !was then
    let s := (s.setDieF (Reg.PANEL_STAT n) 27 27 1).raiseDie Src.THERM_CRIT n (encodeInt 8 t)
    ({ s with power := { s.power with hot := n :: s.power.hot } }).drivePanel n
  else if t ≤ crit - 5 ∧ was then
    ({ s with power := { s.power with hot := s.power.hot.filter fun x => x != n } }).drivePanel n
  else s

/-- A temperature that departs by more than 60 °C from that of the parent link's training (R125). -/
def State.tempTime (s : State) (t : Int) : State :=
  let base := signed 8 (s.dieF Reg.TIME_TRAIN_TEMP 7 0)
  let parented := s.dieF Reg.TIME_CFG 6 6 == 1 && s.groupServes (s.dieF Reg.TIME_CFG 5 0)
  if parented && (decide (60 < t - base) || decide (60 < base - t)) && s.dieF Reg.TIME_STAT 22 22 == 0 then
    (s.setDieF Reg.TIME_STAT 22 22 1).raiseDie Src.TIME_TEMP 0 0
  else s

/-- TEMP_SAMPLE (R378). -/
def execTempSample (panel : Nat) (temp : BitVec 8) (s : State) : Out :=
  done (s.when (s.panelExists panel) fun t =>
    let v := signed 8 temp.toNat
    (((t.setDieF (Reg.PANEL_STAT panel) 23 16 temp.toNat).tempTime v).tempWarn panel v).tempCrit panel v)

end Sys2Proof.Machine
end

