-- ==== Sys2Proof/Machine/Observe.lean ====
section
/-! DEFINITION. The instruments of chapter 14: engine activity (R430 to R433), congestion-map records (R435, R436) and the
swatch commands (R437 to R441). -/
namespace Sys2Proof.Machine

/-! ### Engine activity (R430 to R433) -/

/-- The RUNNING commands of an engine: (slot, command). -/
def State.runningAt (s : State) (pos q : Nat) : List (Nat × Cmd) :=
  (s.eng.cmds.filter fun kv => kv.1 / 256 == pos && kv.1 % 4 == q && kv.2.st == 2).map fun kv => (kv.1 / 4 % 64, kv.2)

/-- Whether an engine has work: a RUNNING command, or at the message unit a waiting head (R430). -/
def State.hasWork (s : State) (pos q : Nat) : Bool :=
  !(s.runningAt pos q).isEmpty || (q == 3 && (s.waiting pos).isSome)

/-- Control-clock cycles of the next `n` that a panel's clock swallows: at level k all but one of every k + 1 (R368). -/
def State.swallowed (s : State) (panel n : Nat) : Nat :=
  let k := s.dieF (Reg.PANEL_STAT panel) 26 24 + 1
  let c := s.cycle
  n - ((c + n) / k - c / k)

/-- VC of the next packet of a command; none where it has none to send now. -/
def State.nextVc (s : State) (pos slot q : Nat) (c : Cmd) : Option Nat :=
  if q = 2 then
    match s.agent? pos slot with
    | some a => (a.coll.outq.head?.filter fun p => decide (p.ty.toNat < 13)).map fun p => p.vc.toNat
    | none => none
  else if totalWords c.desc ≤ c.issued ∨ dOp c.desc = opWASH ∨ (dOp c.desc ≤ 4 ∧ dLane c.desc ≠ 0) then none
  else some (cmdVc c.desc)

/-- The lane that the next flit of a command waits for. -/
def laneOfCmd (c : Cmd) : Nat := if dOp c.desc ≤ 4 ∧ c.issued < totalWords c.desc then dLane c.desc else 0

/-- The lowest cause of R431 for a command that moves nothing, the swallowed edge left out. Where nothing else holds a
packet back, the injection path is another engine's. -/
def State.stallOf (s : State) (pos slot q : Nat) (c : Cmd) : Nat :=
  let vc := s.nextVc pos slot q c
  let on (p : Nat → Bool) : Bool := match vc with | some v => p v | none => false
  let lane := laneOfCmd c
  let laneFull := lane != 0 && (match s.laneFar pos lane with
    | some far => s.eng.laneOff.get 0 (4 * far + (laneBack lane - 1)) == 1
    | none => false)
  let wash := dOp c.desc == opWASH && decide (c.issued < totalWords c.desc) && !s.mayWash pos
  let causes : List (Nat × Bool) :=
    [(0x2, s.fenced pos || bit (s.die Reg.COOLANT_STAT) 31),
     (0x3, on fun v => s.hold.testBit v),
     (0x4, on fun v => !s.gateOpen pos 14 v),
     (0x5, (on fun v => !(s.vcb pos 0 v).feed.isEmpty) || laneFull),
     (0x7, on fun v => !s.shaperOk pos slot v),
     (0x8, c.walk.isSome),
     (0x9, isRead c.desc && vc.isSome && !s.rdRoom pos slot),
     (0xC, q == 2 && vc.isNone),
     (0xD, wash),
     (0xB, vc.isNone && lane == 0)]
  match causes.find? fun x => x.2 with
  | some x => x.1
  | none => 6

/-- The stall code of an engine that has work and moves nothing (R431). -/
def State.stallCode (s : State) (pos q : Nat) : Nat :=
  let codes := (s.runningAt pos q).map fun sc => s.stallOf pos sc.1 q sc.2
  match codes with
  | [] => 0xE
  | c :: cs => cs.foldl min c

/-- The engines that are not IDLE, as 4 * position + q. -/
def State.liveEngines (s : State) : List Nat :=
  let running : List Nat := (s.eng.cmds.filter fun kv => kv.2.st == 2).map fun kv => 4 * (kv.1 / 256) + kv.1 % 4
  let waiting : List Nat := s.msgWait.map fun kv => 4 * kv.1 + 3
  let moving : List Nat := s.act.moved.map fun x => x.1
  (running ++ waiting ++ moving).eraseDups

/-- A wrapping per-slot counter rises (R433). -/
def State.slotCount (s : State) (a : RegAddr) (n : Nat) : State := if n = 0 then s else s.setReg a (wrapAdd (s.reg a) n)

/-- One engine over `n` cycles: BUSY in the cycle in which it moved data, STALL in the others that find work. -/
def State.engineCycles (s : State) (n key : Nat) : State :=
  let pos := key / 4; let q := key % 4
  if !s.panelRuns pos then s
  else
    let slots := (s.act.moved.filter fun x => x.1 == key).map (·.2)
    let b := if slots.isEmpty then 0 else min 1 n
    let st := if s.hasWork pos q then n - b else 0
    let lost := min st (s.swallowed (s.panelOf pos) n)
    let sel := fld (s.reg (tileA pos (Reg.ENG_STAT q))) 3 0
    let hits := (if sel = 1 then lost else 0) + (if st ≠ 0 ∧ s.stallCode pos q = sel then st - lost else 0)
    let a := s.act
    let up (m : Store Nat) (x : Nat) : Store Nat := m.set 0 key (m.get 0 key + x)
    let s := { s with act := { a with
      busy := up a.busy b, stall := up a.stall st, work := up a.work (b + st)
      rsn := a.rsn.set 0 key (min 0xFFFFFFFF (a.rsn.get 0 key + hits)) } }
    let s := (slots.filter fun x => decide (x < 64)).foldl (fun t slot => t.slotCount (tileA pos (Reg.SLOT_BUSY slot)) b) s
    ((s.runningAt pos q).map (·.1)).foldl (fun t slot => t.slotCount (tileA pos (Reg.SLOT_STALL slot)) st) s

/-- Some control-clock cycles pass for the activity counters (R430, R432) and PANEL_STRETCH_CNT (R393). -/
def State.activityCycles (s : State) (n : Nat) : State :=
  let s := s.liveEngines.foldl (fun t k => t.engineCycles n k) s
  let s := (List.range (Config.panels s.config)).foldl (fun t p =>
    if t.panelState p = 0 then
      (let x := t.swallowed p n; if x = 0 then t else t.count (dieA (Reg.PANEL_STRETCH_CNT p)) x)
    else { t with act := { t.act with asleep := t.act.asleep.set 0 p (t.act.asleep.get 0 p + n) } }) s
  { s with act := { s.act with cycles := s.act.cycles + n, moved := [] } }

/-- Cycles in which a position's panel was not in Run. -/
def State.sleptAt (s : State) (pos : Nat) : Nat := s.act.asleep.get 0 (s.panelOf pos)

/-- Live TP_SLEEP. -/
def State.liveSleep (s : State) (pos : Nat) : Nat := ((s.sleptAt pos : Int) + s.act.sleep.get 0 pos).toNat

/-- Live IDLE of an engine: what its cycles in Run leave (R430). -/
def State.liveIdle (s : State) (pos q : Nat) : Nat :=
  ((s.act.cycles : Int) - s.sleptAt pos - s.act.work.get 0 (4 * pos + q) + s.act.idle.get 0 (4 * pos + q)).toNat

/-- The counters of a tile port as a SNAP captures them (R432). -/
def State.engineSnap (s : State) (pos : Nat) (live : State) : State :=
  let s := (List.range 4).foldl (fun t q =>
    let k := 4 * pos + q
    let t := t.setReg64 (tileA pos (Reg.ENG_BUSY_LO q)) (live.act.busy.get 0 k)
    let t := t.setReg64 (tileA pos (Reg.ENG_STALL_LO q)) (live.act.stall.get 0 k)
    let t := t.setReg64 (tileA pos (Reg.ENG_IDLE_LO q)) (live.liveIdle pos q)
    t.setReg (tileA pos (Reg.ENG_RSN_CNT q)) (lo32 (live.act.rsn.get 0 k))) s
  s.setReg64 (tileA pos Reg.TP_SLEEP_LO) (live.liveSleep pos)

/-- A TP_SNAP write: the counters are captured with the counts of the write's own cycle (R432). -/
def State.tpSnap (s : State) (pos : Nat) (data : Word) : State :=
  s.when (bit data 0) fun t => t.engineSnap pos (t.activityCycles 1)

/-- TP_SNAP (R432). -/
def execTpSnap (acc : Access) (pos : Pos) (data : Word) (s : State) : Out :=
  done (guardedWrite acc (tileA pos Reg.TP_SNAP) (fun t => t.tpSnap pos data) s)

/-- The 64-bit counter at an offset is written: the live counter takes the value, and reads give it until the next SNAP
(R432). -/
def State.engineWrite (s : State) (pos off v : Nat) : State :=
  let s := s.setReg64 (tileA pos off) v
  let q := (off - 0x6800) / 0x40
  let k := 4 * pos + q
  let a := s.act
  if off = Reg.TP_SLEEP_LO then { s with act := { a with sleep := a.sleep.set 0 pos ((v : Int) - s.sleptAt pos) } }
  else if off = Reg.ENG_BUSY_LO q then { s with act := { a with busy := a.busy.set 0 k v } }
  else if off = Reg.ENG_STALL_LO q then { s with act := { a with stall := a.stall.set 0 k v } }
  else { s with act := { a with idle := a.idle.set 0 k ((v : Int) - (a.cycles - s.sleptAt pos - a.work.get 0 k)) } }

/-- A write of ENG_RSN_CNT. -/
def State.rsnWrite (s : State) (pos q : Nat) (data : Word) : State :=
  { s.setReg (tileA pos (Reg.ENG_RSN_CNT q)) data with
    act := { s.act with rsn := s.act.rsn.set 0 (4 * pos + q) data.toNat } }

/-- ENG_STAT as it reads: the live state and stall code, and RSN_SEL (R432). -/
def State.engStatRead (s : State) (pos q : Nat) : Word :=
  let sel := fld (s.reg (tileA pos (Reg.ENG_STAT q))) 3 0
  let moving := s.act.moved.any fun x => x.1 == 4 * pos + q
  let (st, why) := if !s.panelRuns pos then (2, 0)
    else if moving then (0, 0)
    else if s.hasWork pos q then (1, s.stallCode pos q)
    else (2, 0)
  BitVec.ofNat 32 (st * 2 ^ 30 + why * 2 ^ 26 + sel)

/-! ### Congestion-map records (R435, R436) -/

/-- A snapshot register of the window that is copied. -/
def State.cmapReg (s : State) (pos off : Nat) : Nat := (s.cmap.snap.get 0 (rtrA pos off).key).toNat

/-- Bins 1 to 3 of an input and VC. -/
def State.cmapBins (s : State) (pos i v : Nat) : Nat × Nat × Nat :=
  let j := 4 * (6 * i + v)
  (s.cmapReg pos (Reg.HISTOGRAM (j + 1)), s.cmapReg pos (Reg.HISTOGRAM (j + 2)), s.cmapReg pos (Reg.HISTOGRAM (j + 3)))

/-- The 256 B record of a router (R435). -/
def State.cmapRecord (s : State) (pos : Nat) : List Byte :=
  let total (i v : Nat) : Nat := let (a, b, c) := s.cmapBins pos i v; max s.cmap.cycles.toNat (a + b + c)
  let t := total 0 0
  let sat := (List.range 14).any (fun o => s.cmapReg pos (Reg.UTIL_CNT o) == 0xFFFFFFFF) || s.cmap.cycles == 0xFFFFFFFF ||
    (List.range 84).any fun j => let (a, b, c) := s.cmapBins pos (j / 6) (j % 6)
      a == 0xFFFFFFFF || b == 0xFFFFFFFF || c == 0xFFFFFFFF
  let util := (List.range 14).flatMap fun o => bytesOf 2 (min 65535 (65535 * s.cmapReg pos (Reg.UTIL_CNT o) / t))
  let bins := (List.range 84).flatMap fun j =>
    let (a, b, c) := s.cmapBins pos (j / 6) (j % 6)
    let n := total (j / 6) (j % 6)
    bytesOf 1 (255 * (a + b + c) / n) ++ bytesOf 1 (255 * c / n)
  bytesOf 4 s.cmap.win.toNat ++ bytesOf 8 s.cmap.endNt ++
    bytesOf 4 (rowOf pos + colOf pos * 2 ^ 8 + s.panelOf pos * 2 ^ 16 + b2n sat * 2 ^ 24) ++ bytesOf 4 t ++ bytesOf 12 0 ++
    util ++ bytesOf 4 0 ++ bins ++ bytesOf 24 0

/-- Bytes that a die-level feature writes to its claimed region. -/
def State.claimBytes (s : State) (c : Claim) (off : Nat) (bs : List Byte) : State :=
  (s.writeWords c.pos ((4096 * c.first + off) / 32) swNone 0 (bytesWords (bs.length / 32) bs)).2

/-- CMAP_RECORD_COPY: one panel easel core writes the records of its panel; after the last the master core writes LAST_ID
(R436). -/
def State.cmapCopy (s : State) (panel : Nat) : State :=
  match s.trayClaim 4 none with
  | none => s
  | some c =>
    let half := s.cmap.win.toNat % 2 * s.cmapHalf
    let s := (s.panelPos panel).foldl (fun t pos =>
      t.claimBytes c (half + 256 * (Config.cols t.config * rowOf pos + colOf pos)) (t.cmapRecord pos)) s
    let left := s.cmap.left.filter fun p => p != panel
    let s := { s with cmap := { s.cmap with left := left } }
    s.when (left.isEmpty && s.masterRuns) fun t => t.setDie Reg.CMAP_LAST t.cmap.win

/-- CMAP_RECORD_COPY (R435). -/
def execCmapRecordCopy (panel : Nat) (s : State) : Out :=
  done (s.when (!s.stopped && s.cmap.left.contains panel && s.coreRuns panel) fun t => t.cmapCopy panel)

/-! ### Swatch units (R437 to R441) -/

/-- Whether a unit runs. -/
def State.swActive (s : State) (pos u : Nat) : Bool := bit (s.reg (swA pos (Reg.SW_STAT u))) 31

/-- The 64 B record of a unit at DONE (R441). -/
def State.swRecord (s : State) (pos u : Nat) (scan : Bool) (stamp : BitVec 64) : List Byte :=
  let r (off : Nat) : Nat := (s.reg (swA pos off)).toNat
  let c := s.reg (swA pos (Reg.SW_CTRL u))
  let st := s.reg (swA pos (Reg.SW_STAT u))
  bytesOf 4 (r (Reg.SW_WORDS u)) ++ bytesOf 4 (r (Reg.SW_COUNT u)) ++ bytesOf 4 (r (Reg.SW_NAN u)) ++
    bytesOf 4 (r (Reg.SW_INF u)) ++ bytesOf 4 (r (Reg.SW_ZERO u)) ++
    bytesOf 4 (fld c 23 20 + b2n scan * 2 ^ 4 + fld st 29 29 * 2 ^ 5 + fld c 19 19 * 2 ^ 6 + fld st 28 28 * 2 ^ 7) ++
    bytesOf 8 (s.reg64 (swA pos (Reg.SW_DIG_LO u))) ++ bytesOf 4 (r (Reg.SW_MIN u)) ++ bytesOf 4 (r (Reg.SW_MAX u)) ++
    bytesOf 8 (s.reg64 (swA pos (Reg.SW_SUM_LO u))) ++ bytesOf 8 (s.reg64 (swA pos (Reg.SW_SUMABS_LO u))) ++
    bytesOf 8 stamp.toNat

/-- DONE: the comparison, the record where the tile has a claim, and the event (R440, R441, R445). -/
def State.swDone (s : State) (pos u : Nat) (scan : Bool) : State :=
  let key := 4 * pos + u
  let c := s.reg (swA pos (Reg.SW_CTRL u))
  let hit := bit c 19 && s.reg64 (swA pos (Reg.SW_DIG_LO u)) == s.reg64 (swA pos (Reg.SW_REF_LO u))
  let stamp := s.stamp pos
  let st := setBit (setBit (setBit (s.reg (swA pos (Reg.SW_STAT u))) 31 false) 30 true) 29 hit
  let s := (s.setReg (swA pos (Reg.SW_STAT u)) st).draw
  let runs := s.trays.swRuns.get 0 key
  let s := match s.trayClaim 3 (some pos) with
    | some cl => s.claimBytes cl (64 * (u + 4 * (runs % max 1 (16 * cl.count)))) (s.swRecord pos u scan stamp)
    | none => s
  let s := { s with trays := { s.trays with
    swRuns := s.trays.swRuns.set 0 key (runs + 1), swScan := s.trays.swScan.filter fun x => x != key } }
  s.traceEvent 0x0C (pos + u * 2 ^ 10 + b2n hit * 2 ^ 12)

/-- A start zeroes the results, and DONE and MATCH with them. -/
def State.swStart (s : State) (pos u : Nat) (scan : Bool) : State :=
  let s := [Reg.SW_WORDS u, Reg.SW_COUNT u, Reg.SW_NAN u, Reg.SW_INF u, Reg.SW_ZERO u, Reg.SW_MIN u, Reg.SW_MAX u,
    Reg.SW_DIG_LO u, Reg.SW_DIG_HI u, Reg.SW_SUM_LO u, Reg.SW_SUM_HI u, Reg.SW_SUMABS_LO u, Reg.SW_SUMABS_HI u].foldl
    (fun t off => t.setReg (swA pos off) 0) s
  let st := setBit (setFld (s.reg (swA pos (Reg.SW_STAT u))) 30 29 0) 31 true
  let rest := s.trays.swScan.filter fun x => x != 4 * pos + u
  { s.setReg (swA pos (Reg.SW_STAT u)) st with
    trays := { s.trays with swScan := if scan then (4 * pos + u) :: rest else rest } }

/-- Whether a start is accepted: an element format, and a range inside the tray (R439, R440). -/
def State.swMayStart (s : State) (pos u : Nat) : Bool :=
  let base := (s.reg (swA pos (Reg.SW_BASE u))).toNat
  let len := (s.reg (swA pos (Reg.SW_LEN u))).toNat
  decide (fld (s.reg (swA pos (Reg.SW_CTRL u))) 23 20 < 8) && len != 0 && decide (base + len ≤ s.traySize)

/-- An SW_CTRL write (R440): its fields, then STOP, then ARM or SCAN; both together start neither (R456). -/
def State.swCtrlWrite (s : State) (pos u : Nat) (data : Word) : State :=
  let s := s.plainWrite (swA pos (Reg.SW_CTRL u)) data
  let arm := bit data 31; let scan := bit data 29
  let s := s.when (bit data 30 && s.swActive pos u && !s.trays.swScan.contains (4 * pos + u)) fun t => t.swDone pos u false
  if !arm && !scan then s
  else if (arm && scan) || !s.swMayStart pos u then s.setRegF (swA pos (Reg.SW_STAT u)) 27 27 1
  else s.swStart pos u scan

/-- SWATCH_ARM (R440). -/
def execSwatchArm (acc : Access) (pos : Pos) (u : Nat) (data : Word) (s : State) : Out :=
  done (s.when (decide (u < 4)) (guardedWrite acc (swA pos (Reg.SW_CTRL u)) fun t => t.swCtrlWrite pos u data))

/-- SWATCH_STOP (R440). -/
def execSwatchStop (acc : Access) (pos : Pos) (u : Nat) (data : Word) (s : State) : Out :=
  done (s.when (decide (u < 4)) (guardedWrite acc (swA pos (Reg.SW_CTRL u)) fun t => t.swCtrlWrite pos u data))

/-- SWATCH_SCAN (R440). -/
def execSwatchScan (acc : Access) (pos : Pos) (u : Nat) (data : Word) (s : State) : Out :=
  done (s.when (decide (u < 4)) (guardedWrite acc (swA pos (Reg.SW_CTRL u)) fun t => t.swCtrlWrite pos u data))

/-- One word of a scan: an uncorrectable one is skipped, with UE (R437, R440). -/
def State.swScanWord (s : State) (pos u k : Nat) : State :=
  let (w, ue, s) := s.readWord pos k
  if ue then s.setRegF (swA pos (Reg.SW_STAT u)) 28 28 1 else s.swWord pos u k w

/-- The words of a scan. -/
def State.swScanRun (s : State) (pos u k : Nat) : (n : Nat) → State
  | 0 => s
  | n + 1 => (s.swScanWord pos u k).swScanRun pos u (k + 1) n

/-- SWATCH_SCAN_DONE: every word of the range has been read (R437, R440). -/
def State.swScanDone (s : State) (pos u : Nat) : State :=
  let base := (s.reg (swA pos (Reg.SW_BASE u))).toNat
  let len := (s.reg (swA pos (Reg.SW_LEN u))).toNat
  (s.swScanRun pos u (base / 32) (len / 32)).swDone pos u true

/-- SWATCH_SCAN_DONE (R440). -/
def execSwatchScanDone (pos : Pos) (u : Nat) (s : State) : Out :=
  done (s.when (decide (u < 4) && s.trays.swScan.contains (4 * pos + u) && s.panelRuns pos && !s.stopped) fun t =>
    t.swScanDone pos u)

end Sys2Proof.Machine
end

