-- ==== Sys2Proof/Machine/Fault.lean ====
section
/-! DEFINITION. The fault collector: records, reactions, escalation and merging (R396 to R411), block resets (R403),
retirement of parts (R412 to R416), fences (R417, R418), the job-failure list (R419) and the easel watchdogs (R39). -/
namespace Sys2Proof.Machine

/-! ### Records -/

/-- The endpoint of the block that raised a record (R396, R407). -/
def State.faultEndpoint (s : State) (r : FaultRec) : BitVec 32 :=
  match r.block with
  | .tilePort => s.tileEndpoint r.pos 0
  | .spineGroup g => match Config.spineSite s.config g with
    | some x => s.physEndpoint r.pos (16 + x.2.2)
    | none => s.physEndpoint r.pos 31
  | .memoryPort side => s.physEndpoint r.pos (16 + side)
  | .hostPort side => s.physEndpoint r.pos (16 + side)
  | .die => s.physEndpoint 0 20
  | .easel _ => s.physEndpoint 0 20
  | _ => s.physEndpoint r.pos 31

/-- The 48 bytes of a log record (R396, R407), little-endian. -/
def State.logBytes (s : State) (l : LogRec) : Nat :=
  let r := l.what
  r.source.toNat + r.unit.toNat * 2 ^ 8 + r.temp.toNat * 2 ^ 16 + r.lvl.toNat * 2 ^ 24 + r.tstamp.toNat * 2 ^ 32 +
    r.entry.toNat * 2 ^ 96 + b2n r.noStencil * 2 ^ 104 + r.ctx.toNat * 2 ^ 112 + r.arg0.toNat * 2 ^ 128 +
    r.arg1.toNat * 2 ^ 192 + (s.faultEndpoint r).toNat * 2 ^ 256 +
    (l.sev + b2n l.escalated * 4 + b2n l.pin * 8 + b2n l.blockNa * 16 + b2n l.chipHeld * 32 + b2n l.merged * 64) * 2 ^ 288

/-- Word `w` of a log record. -/
def State.logWord (s : State) (l : LogRec) (w : Nat) : Word := BitVec.ofNat 32 (s.logBytes l >>> (32 * w))

/-- The severity of a record before escalation: the higher of LVL and SEV for TILE_CLIENT_ERR, else SEV (R399, R401). -/
def State.baseSev (s : State) (r : FaultRec) : Nat :=
  let sev := s.srcSev r.source.toNat
  if r.source.toNat = Src.TILE_CLIENT_ERR then max r.lvl.toNat sev else sev

/-- FAULT_STAT.MERGE_MODE: the mesh has more than 144 routers (R410). -/
def State.mergeMode (s : State) : Bool := decide (144 < Config.routers s.config)

/-- Whether a source is active (R409). -/
def State.srcActive (s : State) (c : Nat) : Bool := bit (s.die (Reg.FAULT_SRC_STAT c)) 31

/-! ### Block resets (R403) -/

/-- The commands in service at a tile port: key and command. -/
def State.cmdsAt (s : State) (pos : Nat) : List (Nat × Cmd) := s.eng.cmds.filter fun kc => kc.1 / 256 == pos

/-- Every command in service at a tile port ends FAILED with a code, and every queue is STOPPED. -/
def State.endAll (s : State) (pos code : Nat) : State :=
  let s := (s.cmdsAt pos).foldl (fun t kc =>
    t.endCommand pos (kc.1 / 4 % 64) (kc.1 % 4) { kc.2 with walk := none } stateFailed code) s
  (List.range 256).foldl (fun t i => t.sqStop pos (i / 4) (i % 4)) s

/-- A block reset of a tile port. -/
def State.tileReset (s : State) (pos : Nat) : State :=
  let s := s.endAll pos stABORTED
  { s with eng := { s.eng with tlb := s.eng.tlb.set [] pos [] } }

/-- A slot is freed without emission and reported as RED_UE (R238). -/
def State.slotLost (s : State) (pos : Nat) (kv : Nat × RedSlot) : State :=
  (s.delSlot kv.1).raise Src.RED_UE pos .reducer 0 kv.2.first.ctx.toNat kv.2.tag.toNat kv.2.group

/-- Retirement: every held slot is freed and reported (R416). -/
def State.reducerRetire (s : State) (pos : Nat) : State := (s.slotsAt pos).foldl (fun t kv => t.slotLost pos kv) s

/-- A block reset of a reducer: every held slot is freed without emission, and each reduction that held one, an index of
TAG, is reported once (R231, R403). -/
def State.reducerReset (s : State) (pos : Nat) : State :=
  ((s.slotsAt pos).foldl (fun (acc : List Nat × State) kv =>
    let n := redIndex kv.2.tag
    if acc.1.contains n then (acc.1, acc.2.delSlot kv.1) else (n :: acc.1, acc.2.slotLost pos kv)) ([], s)).2

/-- QUIET_US in AON edges: 0 acts as 1, above 1,000,000 as 1,000,000 (R428). -/
def State.quietEdges (s : State) : Nat := 100 * min 1000000 (max 1 (s.dieF Reg.FAULT_CTRL 19 0))

/-- The data memory of an easel core is scrubbed (R39): with the master core's, the fault log and the events of its
retirement windows (R404, R429). -/
def State.easelScrub (s : State) (core : Nat) : State :=
  let s := { s with core := { s.core with mem := s.core.mem.keep fun k => !(k / 2 ^ 19 == 2 * core + 1) } }
  s.when (core == s.masterCore) fun t => { t with flt := { t.flt with log := [], events := [] } }

/-- An easel core's watchdog expires (R39): the core restarts, or stays halted after a second expiry within QUIET_US of
the first. -/
def State.easelExpire (s : State) (core : Nat) : State :=
  let again := match s.flt.wdtLast.find? core with
    | some e => decide (s.time.edges ≤ e + s.quietEdges)
    | none => false
  let s := { s with flt := { s.flt with wdtLast := s.flt.wdtLast.put core s.time.edges } }
  if again then { s with easel := s.easel.set 0 core 1 } else s.easelScrub core

/-- A block reset of the raising block; whether it is not available (R403). A combiner of a sketch router has none. -/
def State.blockReset (s : State) (r : FaultRec) : Bool × State :=
  match r.block with
  | .tilePort => (false, s.tileReset r.pos)
  | .reducer => (false, s.reducerReset r.pos)
  | .easel c => (false, s.easelExpire c)
  | .spineGroup g => (false, s.spRetrainGroup g)
  | .memoryPort side => (false, s.memReset r.pos side)
  | .hostPort side =>
    let k := match s.edgePort r.pos side with | .host k => k | _ => 0
    (false, { s.memReset r.pos side with hostReqs := s.hostReqs.filter fun q => q.port != k })
  | _ => (true, s)

/-! ### Reactions (R402 to R405) -/

/-- An ERRPIN reaction: ERR_OUT_N is driven low, its minimum restarts and a pending RELEASE is cancelled (R405). -/
def State.errPin (s : State) : State :=
  { s.setDieF Reg.ERR_PIN 31 31 1 with flt := { s.flt with pinEdge := s.time.edges, pinRelease := false } }

/-- The reactions of a configuration word (R401) that set status bits and the pin. -/
def State.reactBits (s : State) (cfg : Nat) : State :=
  let s := s.when (cfg.testBit 29) fun t => t.setDieF Reg.FAULT_IRQ_STAT (bitsOf cfg 28 27) (bitsOf cfg 28 27) 1
  let s := s.when (cfg.testBit 26) fun t => t.setDieF Reg.FAULT_IRQ_STAT 4 4 1
  s.when (cfg.testBit 23) State.errPin

/-- Whether a chip reset request is held back (R404). -/
def State.chipHeld (s : State) : Bool := s.mode == 0 || bit (s.die Reg.COOLANT_STAT) 31

/-- A chip reset request: the die restarts 10 µs after the first of them (R404). -/
def State.chipRequest (s : State) : State :=
  if s.chipHeld || s.flt.chipReset.isSome then s
  else { s with flt := { s.flt with chipReset := some s.time.edges } }

/-- The resets that a configuration asks for: whether a block reset is not available, whether a chip reset is held, and
the state after. COOLANT_STOP brings none (R401). -/
def State.reactResets (s : State) (cfg : Nat) (r : FaultRec) : Bool × Bool × State :=
  let (na, s) := if cfg.testBit 25 then s.blockReset r else (false, s)
  let held := cfg.testBit 24 && s.chipHeld
  (na, held, s.when (cfg.testBit 24) State.chipRequest)

/-! ### Capture (R406 to R411) -/

/-- The fault state: it lasts from any record of Minor or above (R411). -/
def State.inFault (s : State) (sev : Nat) : State :=
  s.when (sev != 0) fun t =>
    { t.setDieF Reg.FAULT_STAT 31 31 1 with flt := { t.flt with lastMinor := t.time.edges } }

/-- FIRST takes a record of Minor or above while it is empty (R406). -/
def State.fillFirst (s : State) (l : LogRec) : State :=
  if l.sev ≠ 0 ∧ !bit (s.die Reg.FAULT_STAT) 27 then
    (List.range 12).foldl (fun t w => t.setDie (Reg.FAULT_FIRST w) (t.logWord l w)) (s.setDieF Reg.FAULT_STAT 27 27 1)
  else s

/-- A merged repeat (R410). -/
def State.mergeRecord (s : State) (r : FaultRec) (sev : Nat) (pin : Bool) : Option LogRec × State :=
  let c := r.source.toNat
  let n := fld (s.die (Reg.FAULT_SRC_STAT c)) 15 0
  let s := (s.setDieF (Reg.FAULT_SRC_STAT c) 15 0 (min 65535 (n + 1))).inFault sev
  let queued := bit (s.die (Reg.FAULT_SRC_CFG c)) 22 && r.ctx != 0
  (if queued then some ⟨r, sev, false, pin, false, false, true⟩ else none, s)

/-- The steps of R406 but the queue: count, escalate or merge, react, fill FIRST. The record to queue, and the state. -/
def State.capture' (s : State) (r : FaultRec) (pin : Bool) : Option LogRec × State :=
  let c := r.source.toNat
  let repeat' := s.srcActive c
  let base := s.baseSev r
  let s := (s.count (dieA (Reg.FAULT_SRC_CNT c)) 1).setDieF (Reg.FAULT_SRC_STAT c) 31 31 1
  if repeat' && s.mergeMode then
    let (l, s) := s.mergeRecord r base pin
    (l, s.traceFault c base true false)
  else
    let sev := if repeat' then min 3 (base + 1) else base
    let cfg := (s.die (Reg.FAULT_SRC_CFG c)).toNat
    let extra := if repeat' || s.srcSev c < sev then sevReactions sev else 0
    let (na, held, s) := (s.reactBits cfg).reactResets cfg r
    let s := (s.reactBits extra).inFault sev
    let l : LogRec := ⟨r, sev, repeat', pin, na, held, false⟩
    (some l, (s.fillFirst l).traceFault c sev false repeat')

/-- A record enters the AON record queue; whether it found the queue full (R407). -/
def State.pushRecord (s : State) (l : LogRec) : Bool × State :=
  if s.flt.queue.length < 16 then (false, { s with flt := { s.flt with queue := s.flt.queue ++ [l] } })
  else (true, s)

/-- The master easel core's aborts that a record brings about, merged or not (R249, R255). -/
def State.recordAborts (s : State) (r : FaultRec) : State :=
  if r.source.toNat = Src.RED_SIG then s.abortIndex (bitsOf r.arg1.toNat 15 10) stSIG_MISMATCH
  else if r.source.toNat = Src.RED_UE then s.abortIndex (bitsOf r.arg0.toNat 15 10) stDATA_LOSS
  else s

/-- The central AON block handles a record (R406, R407). Codes that R400 does not list are raised by no block. -/
def State.handle (s : State) (r : FaultRec) (pin : Bool) : State :=
  if (defaultSev r.source.toNat).isNone then s
  else
    let (l, s) := s.capture' r pin
    let s := match l with
      | none => s
      | some l =>
        let (full, s) := s.pushRecord l
        if !full then s
        else if bit (s.die Reg.FAULT_STAT) 29 then s
        else
          let s := s.setDieF Reg.FAULT_STAT 29 29 1
          (s.capture' (s.faultRec Src.FAULT_OVERFLOW 0 .die 0 0 0 0 0) false).2.draw
    s.recordAborts r

/-! ### FAULT (R396, R397, R406) -/

/-- Whether a record in flight is the one a FAULT command names. -/
def FaultRec.is (r : FaultRec) (m : FaultMsg) : Bool :=
  r.source == m.source && r.unit == m.unit && r.lvl == m.lvl && r.ctx == m.ctx && r.arg0 == m.arg0 && r.arg1 == m.arg1 &&
    r.pos == m.pos

/-- The block that raises a source (R400) where no command of this model raised the record. -/
def State.blockOf (s : State) (m : FaultMsg) : BlockKind :=
  let c := m.source.toNat
  if c = Src.RED_SIG ∨ c = Src.RED_UE ∨ c = Src.RED_RETIRE then .reducer
  else if c = Src.EASEL_WDT ∨ c = Src.EASEL_START then .easel m.arg0.toNat
  else if 0x40 ≤ c ∧ c ≤ 0x4E then
    match (List.range 4).findSome? fun side => match s.edgePort m.pos side with | .spine g => some g | _ => none with
    | some g => .spineGroup g
    | none => .die
  else if c = Src.MEM_UE then .memoryPort (if colOf m.pos = 0 then 3 else 1)
  else if 0x10 ≤ c ∧ c ≤ 0x14 ∨ c = Src.PKT_DISCARD then .router
  else if c = Src.SKETCH_DISCARD then .sketchRouter
  else if (0x20 ≤ c ∧ c ≤ 0x29) ∨ c = Src.QUEUE_ERR then .tilePort
  else .die

/-- The record that a FAULT command names: the oldest in flight that matches, else one whose cause lies outside the
commands of this model (an upset of a circuit), formed now. -/
def State.takeFault (s : State) (m : FaultMsg) : FaultRec × State :=
  match takeFirst (fun r => FaultRec.is r m) s.flt.inFlight with
  | some (r, rest) => (r, { s with flt := { s.flt with inFlight := rest } })
  | none =>
    (s.faultRec m.source.toNat m.pos (s.blockOf m) m.unit.toNat m.ctx.toNat m.arg0.toNat m.arg1.toNat m.lvl.toNat, s.draw)

/-- A FAULT flit of the severity its summary wire shows has come (R398). -/
def State.wireSeen (s : State) (r : FaultRec) : State :=
  if (s.flt.wires.get (0, 0) r.pos).1 = s.srcSev r.source.toNat then
    { s with flt := { s.flt with wires := s.flt.wires.del r.pos } }
  else s

/-- A slot that a reducer found uncorrectable is freed and counted (R238); its RED_UE report is the FAULT command itself. -/
def State.slotUpset (s : State) (m : FaultMsg) : State :=
  if m.source.toNat = Src.RED_UE then
    match (s.slotsAt m.pos).find? fun kv => kv.2.tag.toNat == m.arg0.toNat && kv.2.group == m.arg1.toNat with
    | some kv => (s.delSlot kv.1).count (rtrA m.pos Reg.DISC_LOSS_CNT) 1
    | none => s
  else s

/-- FAULT (R406). -/
def execFault (msg : FaultMsg) (s : State) : Out :=
  done (s.when (s.inMesh msg.pos) fun t =>
    let t := if t.flt.inFlight.any fun r => r.is msg then t else t.slotUpset msg
    let (r, t) := t.takeFault msg
    (t.wireSeen r).handle r false)

/-- PIN_SUMMARY (R398): a nonzero level for which no FAULT flit came within 2 µs. -/
def execPinSummary (pos : Pos) (level : Nat) (s : State) : Out :=
  let w := s.flt.wires.get (0, 0) pos
  done (s.when (decide (w.1 ≠ 0 ∧ w.1 = level ∧ w.2 + 200 ≤ s.time.edges)) fun t =>
    let t := { t with flt := { t.flt with wires := t.flt.wires.del pos } }
    (t.handle (t.faultRec Src.PIN_SUMMARY 0 .die 0 0 pos 0 level) true).draw)

/-! ### Fences (R417, R418) -/

/-- Whether a member sends in an operation: every member does, but for a BROADCAST's receivers (R255). -/
def memberSends (d : BitVec 512) (me : Nat) : Bool := dOp d != opBROADCAST || cRoot d == me

/-- The collectives in which a member of a position sends, each by its COLL_ID. -/
def State.sendsIn (s : State) (pos : Nat) : List Nat :=
  (s.eng.copies.filter fun kc => kc.1 / 64 == pos).filterMap fun kc =>
    if s.eng.cmds.any fun x => x.1 % 4 == 2 && dOp x.2.desc != opTRIGGER && dPeer x.2.desc == kc.2.id &&
      memberSends x.2.desc kc.2.me then some kc.2.id else none

/-- A tile port is fenced (R417, R418): its commands end FENCED, its queues stop, and the collectives in which it sends
abort. -/
def State.fenceTile (s : State) (pos cause : Nat) : State :=
  if s.fenced pos then s
  else
    let ids := s.sendsIn pos
    let s := (s.setRegF (tileA pos Reg.TP_FENCE) 30 30 1).setRegF (tileA pos Reg.TP_FENCE) 3 0 cause
    let s := s.endAll pos stFENCED
    let s := if s.masterRuns then ids.foldl (fun t id => t.collAbort id stFENCED) s else s
    s.raise Src.TILE_FENCED pos .tilePort 0 0 cause 0

/-- A TP_FENCE write. -/
def State.fenceWrite (s : State) (pos : Nat) (data : Word) : State := s.when (bit data 31) fun t => t.fenceTile pos 1

/-- FENCE (R417). -/
def execFence (acc : Access) (pos : Pos) (data : Word) (s : State) : Out :=
  done (guardedWrite acc (tileA pos Reg.TP_FENCE) (fun t => t.fenceWrite pos (setBit data 31 true)) s)

/-- TILE_CLIENT_ERR (R399): a new level of the error line; a rise is reported, and level 3 fences the port. -/
def State.clientErr (s : State) (pos level : Nat) : State :=
  let old := s.flt.cerr.get 0 pos
  let s := { s with flt := { s.flt with cerr := s.flt.cerr.set 0 pos level } }
  if old < level then
    let s := s.raiseFull Src.TILE_CLIENT_ERR pos .tilePort 0 0 0 0 level
    s.when (level == 3) fun t => t.fenceTile pos 3
  else s

/-- TILE_CLIENT_ERR (R399). -/
def execTileClientErr (pos : Pos) (level : Nat) (s : State) : Out :=
  done (s.when (s.inMesh pos && decide (level < 4)) fun t => t.clientErr pos level)

/-! ### ERR_OUT_N and the fault state (R405, R411) -/

/-- Whether the 20-cycle minimum of ERR_OUT_N has ended. -/
def State.pinMinOver (s : State) : Bool := decide (s.flt.pinEdge + 20 ≤ s.time.edges)

/-- ERR_OUT_N rises. -/
def State.pinRise (s : State) : State :=
  { s.setDieF Reg.ERR_PIN 31 31 0 with flt := { s.flt with pinRelease := false } }

/-- An ERR_PIN write: RELEASE takes effect now, or as the minimum pulse ends; with the pin high it has none (R405). -/
def State.errPinWrite (s : State) (data : Word) : State :=
  if bit data 30 ∧ bit (s.die Reg.ERR_PIN) 31 then
    if s.pinMinOver then s.pinRise else { s with flt := { s.flt with pinRelease := true } }
  else s

/-- ERR_PIN_RELEASE (R405). -/
def execErrPinRelease (acc : Access) (data : Word) (s : State) : Out :=
  done (guardedWrite acc (dieA Reg.ERR_PIN) (fun t => t.errPinWrite (setBit data 30 true)) s)

/-- ERR_PIN_MIN_END (R405). -/
def execErrPinMinEnd (s : State) : Out :=
  done (s.when (s.flt.pinRelease && s.pinMinOver) State.pinRise)

/-- The quiet period has passed: the fault state ends (R411). -/
def State.faultQuiet (s : State) : State :=
  if bit (s.die Reg.FAULT_STAT) 31 ∧ s.flt.lastMinor + s.quietEdges ≤ s.time.edges then
    let s := s.setDieF Reg.FAULT_STAT 31 31 0
    let s := (List.range 256).foldl (fun t c => t.setDieF (Reg.FAULT_SRC_STAT c) 31 31 0) s
    s.count (dieA Reg.RECOVERY_CNT) 1
  else s

/-- FAULT_QUIET (R411). -/
def execFaultQuiet (s : State) : Out := done s.faultQuiet

/-! ### Retirement (R415, R416) -/

/-- LIMIT and WINDOW_MS of a kind of part: 0 acts as 1 (R415). -/
def State.retireCfg (s : State) (k : Nat) : Nat × Nat :=
  let w := s.die (Reg.RETIRE_CFG k)
  (max 1 (fld w 31 24), max 1 (fld w 23 0))

/-- Frees a packet's claims at a router and cuts the flits of it that went on, along its path (R416). The packet is the
one whose tail has not come to the given buffer; its destination answers what it held. -/
def State.cutPath (s : State) : (fuel pos input vc : Nat) → State
  | 0, _, _, _ => s
  | fuel + 1, pos, input, vc =>
    let b := s.vcb pos input vc
    let kept := (b.buf.reverse.dropWhile fun f => !f.tail).reverse
    let lost := b.buf.drop kept.length
    if b.dropping then s.setVcb pos input vc { b with dropping := false }
    else if lost.isEmpty ∧ !(b.buf.isEmpty ∧ b.route.isSome) then s
    else if kept.isEmpty then
      let s := s.setVcb pos input vc ({ b with buf := [], route := none }.settle (s.onOff pos))
      match b.route with
      | none => s
      | some r =>
        r.legs.foldl (fun t l =>
          let o := t.outp pos l.out
          let t := t.setOutp pos l.out { o with
            owner := if o.owner = some (input, vc) then none else o.owner
            claims := o.claims.filter fun c => c != (vc, input) }
          if r.sent = 0 then t
          else if 1 ≤ l.out ∧ l.out ≤ 8 then t.cutPath fuel (neighbour pos ((l.out - 1) % 4)) (farInput l.out) vc
          else t.answer pos 31 l.pkt stDATA_LOSS) s
    else s.setVcb pos input vc ({ b with buf := kept }.settle (s.onOff pos))

/-- The packet of a pair is thrown away; where no flit of it waits here, its later ones are as they come. -/
def State.dropOrForget (s : State) (pos input vc : Nat) : State :=
  let b := s.vcb pos input vc
  if b.buf.isEmpty then s.setVcb pos input vc { b with route := none, dropping := true }
  else s.dropFront pos input vc

/-- A packet of the sending router that takes a retired lane is lost: counted and answered; its other legs go on. -/
def State.cutLeg (s : State) (pos out : Nat) (w : Nat × Nat) : State :=
  let b := s.vcb pos w.1 w.2
  match b.route with
  | none => s
  | some r =>
    match r.legs.find? fun l => l.out == out && !l.free with
    | none => s
    | some l =>
      let s := s.discardLoss pos 31 l.pkt
      let o := s.outp pos out
      let s := s.setOutp pos out { o with
        owner := if o.owner = some w then none else o.owner
        claims := o.claims.filter fun c => c != (w.2, w.1) }
      let rest := r.legs.filter fun l => l.out != out
      if rest.isEmpty then s.dropOrForget pos w.1 w.2
      else s.setVcb pos w.1 w.2 { b with route := some { r with legs := rest } }

/-- A mesh link lane retires (R416). -/
def State.retireMesh (s : State) (pos out : Nat) : State :=
  let s := allPairs.foldl (fun t w => t.cutLeg pos out w) s
  (List.range 6).foldl (fun t vc =>
    t.cutPath (Config.routers t.config + 1) (neighbour pos ((out - 1) % 4)) (farInput out) vc) s

/-- The commands in service on a neighbour lane end with DATA_LOSS (R416). -/
def State.retireNbr (s : State) (part : Nat) : State :=
  let pos := part / 2
  let dir := if part % 2 = 0 then 1 else 4
  match s.laneEnd pos dir with
  | none => s
  | some far =>
    let onLane (p d : Nat) (kc : Nat × Cmd) : Bool :=
      kc.1 / 256 == p && ((decide (dOp kc.2.desc ≤ 4) && dLane kc.2.desc == d) ||
        (match s.agent? p (kc.1 / 4 % 64) with
          | some a => kc.1 % 4 == 2 && dOp kc.2.desc == opRING_PASS && (a.ringEnt.lane == d || a.prevLane == some d)
          | none => false))
    let hit := s.eng.cmds.filter fun kc => onLane pos dir kc || onLane far (laneBack dir) kc
    hit.foldl (fun t kc => t.endCommand (kc.1 / 256) (kc.1 / 4 % 64) (kc.1 % 4) kc.2 stateFailed stDATA_LOSS) s

/-- A tray bank retires: it acts as Off with RETIRED, and the tile port is fenced with CAUSE 2 (R416). -/
def State.retireBank (s : State) (pos b : Nat) : State :=
  let s := (s.clearBank pos b).setRegF (tileA pos Reg.TRAY_BANK_STAT) (16 + b) (16 + b) 1
  s.fenceTile pos 2

/-- The position by which a part is named in its record. -/
def partPos (kind part : Nat) : Nat :=
  match kind with
  | 0 => part / 14
  | 1 | 2 => part / 2
  | 3 => if part < 32 then part else if part < 1056 then part - 32 else part - 1056
  | 4 => part / 16
  | 5 => part
  | _ => part / 4096

/-- The unit by which a part is named in its record. -/
def partUnit (kind part : Nat) : Nat :=
  match kind with
  | 0 => part % 14
  | 1 | 2 => part % 2
  | 4 => part % 16
  | _ => 0

/-- A part retires (R416): it leaves service until PORST_N, raises its source, and sets DEGRADED. -/
def State.retire (s : State) (kind part events info : Nat) : State :=
  if s.partRetired kind part then s
  else if kind = 7 then s.markLane (part / 16) (part % 16)
  else
    let pos := partPos kind part
    let s := { s with flt := { s.flt with
      retired := s.flt.retired ++ [(kind, part)]
      training := s.flt.training.filter fun x => x != (kind, part) } }
    let s := (s.setDieF Reg.BRINGUP_STAT 23 23 1).traceEvent 9 kind
    let s := match kind with
      | 0 => s.retireMesh pos (part % 14)
      | 1 => s.retireNbr part
      | 4 => s.retireBank pos (part % 16)
      | 5 => s.reducerRetire pos
      | _ => s
    match kind with
    | 4 => s.raise Src.TRAY_RETIRE pos .tilePort (part % 16) 0 (part % 16 + 16 * info) 0
    | 5 => s.raise Src.RED_RETIRE pos .reducer 0 0 kind events
    | 6 => s.raise Src.ROUTE_UE pos .router 0 0 kind events
    | _ => s.raise Src.ODL_RETIRE pos (if kind = 2 then .sketchRouter else if kind = 0 then .router else .tilePort)
        (partUnit kind part) 0 kind events

/-- The retirement windows: every part with LIMIT events in the last WINDOW_MS retires; older events are forgotten
(R415). -/
def State.retireWindows (s : State) : State :=
  let live := s.flt.events.filter fun e => decide (s.nowMs < e.ms + (s.retireCfg e.kind).2)
  let s := { s with flt := { s.flt with events := live } }
  live.foldl (fun t e =>
    let n := (live.filter fun x => x.kind == e.kind && x.part == e.part).length
    if (t.retireCfg e.kind).1 ≤ n then
      let t := t.retire e.kind e.part n e.info
      { t with flt := { t.flt with events := t.flt.events.filter fun x => !(x.kind == e.kind && x.part == e.part) } }
    else t) s

/-! ### The log and the job-failure list (R407, R419) -/

/-- Whether a job stands in the list. -/
def State.jobListed (s : State) (job : Nat) : Bool :=
  (List.range 16).any fun j => bit (s.die (Reg.JOB_FAIL j)) 31 && fld (s.die (Reg.JOB_FAIL j)) 15 0 == job

/-- A record with JOBFAIL enters the job of its context in the first free place (R419). -/
def State.jobFail (s : State) (l : LogRec) : State :=
  let c := l.what.source.toNat
  let cfg := s.die (Reg.FAULT_SRC_CFG c)
  if !bit cfg 22 || l.what.ctx == 0 then s
  else match s.jobOf l.what.ctx.toNat with
    | none => s
    | some job =>
      if s.jobListed job then s
      else match (List.range 16).find? fun j => !bit (s.die (Reg.JOB_FAIL j)) 31 with
        | none => s.setDieF Reg.FAULT_STAT 29 29 1
        | some j =>
          let s := s.setDie (Reg.JOB_FAIL j) (BitVec.ofNat 32 (2 ^ 31 + c * 2 ^ 16 + job % 2 ^ 16))
          s.setDieF Reg.FAULT_IRQ_STAT (fld cfg 28 27) (fld cfg 28 27) 1

/-- The master core drains one record: into the log, unless it is merged, and into the job-failure list (R407, R419). -/
def State.drainOne (s : State) (l : LogRec) : State :=
  let s := if l.merged then s
    else
      let n := (s.die Reg.FAULT_LOG_HEAD).toNat
      let s := s.when (decide (1024 ≤ n)) fun t => t.setDieF Reg.FAULT_STAT 28 28 1
      { s.setDie Reg.FAULT_LOG_HEAD (BitVec.ofNat 32 (n + 1)) with flt := { s.flt with log := s.flt.log.put (n % 1024) l } }
  s.jobFail l

/-- FAULT_LOG_DRAIN: the running master core empties the queue, and looks at its retirement windows (R407, R415, R419). -/
def execFaultLogDrain (s : State) : Out :=
  done (s.when (s.masterRuns && !s.stopped) fun t =>
    let q := t.flt.queue
    (q.foldl State.drainOne { t with flt := { t.flt with queue := [] } }).retireWindows)

/-! ### On-die links (R412 to R414) -/

/-- The part number of an on-die link: a mesh lane by its output index, a neighbour lane or sketch link by 0 east,
1 south (R415, R421). -/
def odlPart (kind pos output : Nat) : Nat := if kind = 0 then 14 * pos + output else 2 * pos + output

/-- Whether an on-die link exists. -/
def State.odlExists (s : State) (kind pos output : Nat) : Bool :=
  s.inMesh pos &&
  (match kind with
    | 0 => decide (1 ≤ output) && decide (output ≤ 8) && s.hasOutput pos output
    | 1 => decide (output < 2) && (s.laneEnd pos (if output = 0 then 1 else 4)).isSome
    | 2 => decide (output < 2) && Config.hasLink s.config (rowOf pos) (colOf pos) (1 + output)
    | _ => false)

/-- The kind of block at which an on-die link ends. -/
def odlBlock (kind : Nat) : BlockKind := if kind = 0 then .router else if kind = 1 then .tilePort else .sketchRouter

/-- SOAK_ERR counts and reports each error of a soak (R427). -/
def State.soakError (s : State) (pos : Nat) : State :=
  s.when (bit (s.die Reg.SOAK_STAT) 31) fun t =>
    (t.count (dieA Reg.SOAK_ERR_CNT) 1).raise Src.SOAK_ERR pos .die 0 0 0 0

/-- One corrected block of an on-die link (R412, R413). -/
def State.odlCe (s : State) (kind pos output : Nat) : State :=
  let s := (s.raise Src.ODL_CE pos (odlBlock kind) output 0 0 0).tagEvent pos 0
  ((s.entryEvent pos).partCe (kind + 1) (odlPart kind pos output)).soakError pos

/-- One rejection of a flit, and its replay (R413). -/
def State.odlReject (s : State) (kind pos output : Nat) : State :=
  let s := (s.raise Src.ODL_REPLAY pos (odlBlock kind) output 0 0 0).tagEvent pos 1
  (s.entryEvent pos).soakError pos

/-- A receiver's errors on one flit: corrected blocks, and rejections; the fifth makes the link retrain (R413, R414). -/
def State.odlReplay (s : State) (kind pos output corrected rejected : Nat) : State :=
  let part := odlPart kind pos output
  let s := (List.range corrected).foldl (fun t _ => t.odlCe kind pos output) s
  let s := (List.range (min rejected 5)).foldl (fun t _ => t.odlReject kind pos output) s
  if 5 ≤ rejected then { s with flt := { s.flt with training := s.flt.training ++ [(kind, part)] } } else s

/-- ODL_REPLAY (R413). -/
def execOdlReplay (kind : Nat) (pos : Pos) (output corrected rejected : Nat) (s : State) : Out :=
  let part := odlPart kind pos output
  done (s.when (s.odlExists kind pos output && !s.partRetired kind part && !s.partTraining kind part && !s.stopped) fun t =>
    t.odlReplay kind pos output corrected rejected)

/-- The end of a retrain (R414): the link resumes from the first unaccepted flit, or it retires at once. -/
def State.odlRetrained (s : State) (kind pos output : Nat) (ok : Bool) : State :=
  let part := odlPart kind pos output
  let s := { s with flt := { s.flt with training := s.flt.training.filter fun x => x != (kind, part) } }
  if ok then
    let s := s.raise Src.ODL_RETRAIN pos (odlBlock kind) output 0 0 0
    ((s.tagEvent pos 1).partRetrain (kind + 1) part).partEvent kind part 0
  else
    let n := (s.flt.events.filter fun e => e.kind == kind && e.part == part).length
    s.retire kind part n 0

/-- ODL_RETRAIN_DONE (R414). -/
def execOdlRetrainDone (kind : Nat) (pos : Pos) (output : Nat) (ok : Bool) (s : State) : Out :=
  done (s.when (s.partTraining kind (odlPart kind pos output) && !s.stopped) fun t => t.odlRetrained kind pos output ok)

/-- An ERR_ENTRY_SEL write: a change of position or POINT zeroes the counters (R426, R428). -/
def State.errEntrySelWrite (s : State) (data : Word) : State :=
  let old := s.die Reg.ERR_ENTRY_SEL
  let s := s.plainWrite (dieA Reg.ERR_ENTRY_SEL) data
  s.when (old.toNat >>> 8 != (s.die Reg.ERR_ENTRY_SEL).toNat >>> 8) fun t => { t with flt := { t.flt with entryCnt := [] } }

/-- ERR_ENTRY_SEL_WRITE (R426). -/
def execErrEntrySelWrite (acc : Access) (data : Word) (s : State) : Out :=
  done (guardedWrite acc (dieA Reg.ERR_ENTRY_SEL) (fun t => t.errEntrySelWrite data) s)

/-! ### Easel watchdogs (R39) -/

/-- EASEL_WDT (R39): the AON latches record the expiry, naming the core; a frozen or halted core's does not count. -/
def execEaselWdt (core : Nat) (s : State) : Out :=
  done (s.when (decide (core ≤ s.masterCore) && s.coreRuns core && !s.stopped) fun t =>
    (t.raise Src.EASEL_WDT 0 (.easel core) 0 0 core 0).easelExpire core)

end Sys2Proof.Machine
end

