-- ==== Sys2Proof/Machine/Optics.lean ====
section
/-! DEFINITION. Lanes in service: sparing (R292, R293), wavelengths (R294), the optical engine (R295 to R299), lanes that are
lost (R290, R291), and access to the partner die's registers (R304). -/
namespace Sys2Proof.Machine

/-! ### Sparing (R292) -/

/-- Step 3: the spare's latest sample shows its wavelength locked and enough power; a failed check abandons it. -/
def State.checkSpare (s : State) (g p : Nat) : State :=
  match s.freeSpare g p with
  | none => s.abandonSparing g p
  | some l =>
    let rxp := signed 16 (fld (s.spReg g (Reg.LANE_RXP l)) 15 0)
    let least := signed 16 (fld (s.spReg g Reg.OE_CFG2) 31 16)
    if (s.spGroup g).wlLock.testBit l && decide (least ≤ rxp) then s else s.abandonSparing g p

/-- Both ends hold: every class is OFF (R292, step 2). -/
def State.holdSparing (s : State) (g p : Nat) (x : Sparing) : State :=
  (s.setSpPort g p { s.spPort g p with sparing := some { x with acked := true }, off := 127 }).checkSpare g p

/-- A partner's request for a lane is taken: SPARE_ACK goes out. -/
def State.takeSpareReq (s : State) (g p lane : Nat) : State :=
  let v := s.spPort g p
  let s := s.setSpPort g p { v with ctl := v.ctl ++ [trainWord 7 (lane * 2 ^ 16)] }
  (s.setSpState g p spSPARING).holdSparing g p ⟨lane, s.time.edges, false, true⟩

/-- Whether the partner's request wins over this end's: the lower DIE_ID, then the lower GROUP (R292). -/
def State.partnerWins (s : State) (g p : Nat) : Bool :=
  let w := s.spReg g (Reg.SP_PARTNER p)
  let d := fld w 16 0
  decide (d < s.time.dieId.toNat) || (d == s.time.dieId.toNat && decide (fld w 28 23 < g))

/-- SPARE_REQ (R292); within a circuit window it is refused and the lane excluded at the next one (R326). -/
def State.spareReqIn (s : State) (g p lane : Nat) : State :=
  if s.spCircuit g then s.when (s.spState g p == spACTIVE) fun t => t.markLane g lane
  else if s.spState g p = spACTIVE then
    if (agrMask (s.spPort g p).agr).testBit lane ∧ (s.freeSpare g p).isSome then s.takeSpareReq g p lane else s
  else match (s.spPort g p).sparing with
    | none => s
    | some x =>
      if x.lane = lane then s.takeSpareReq g p lane
      else if x.own && !x.acked && s.partnerWins g p then (s.noteMark g x.lane).takeSpareReq g p lane
      else s

/-- SPARE_REQ (R292). -/
def execSpareReq (group port : Nat) (lane : Nat) (s : State) : Out :=
  done (s.when (s.spHas group port && decide (lane ≤ 8) && !s.stopped) fun t => t.spareReqIn group port lane)

/-- SPARE_ACK (R292). -/
def execSpareAck (group port : Nat) (lane : Nat) (s : State) : Out :=
  done (s.when (s.spHas group port && !s.stopped && s.spState group port == spSPARING) fun t =>
    match (t.spPort group port).sparing with
    | some x => if x.lane = lane ∧ x.own ∧ !x.acked then t.holdSparing group port x else t
    | none => t)

/-- SPARING_TIMEOUT (R292): 20 µs after its request the spare is abandoned. -/
def execSparingTimeout (group port : Nat) (s : State) : Out :=
  done (s.when (s.spHas group port && !s.stopped && s.spState group port == spSPARING) fun t =>
    match (t.spPort group port).sparing with
    | some x => if x.edge + 2000 ≤ t.time.edges then t.abandonSparing group port else t
    | none => t)

/-! ### Wavelengths and powers (R294, R297, R298) -/

/-- WL_ASSIGN from the partner: this end's transmitter for the lane moves through its own engine (R294). -/
def execWlAssign (group port : Nat) (lane wl : Nat) (s : State) : Out :=
  done (s.when (s.spHas group port && decide (lane ≤ 8) && !s.stopped) fun t =>
    let t := t.oemiSend group 5 lane (1 + wl % 32 * 2 ^ 8)
    let v := t.spGroup group
    t.setSpGroup group { v with txWl := v.txWl.set 0 lane (wl % 32 + 1) })

/-- RXP_REPORT (R297): the partner's received powers. -/
def execRxpReport (group port : Nat) (powers : List (BitVec 16)) (s : State) : Out :=
  done (s.when (s.spHas group port && !s.stopped && s.spState group port == spACTIVE) fun t =>
    ((powers.take 9).zipIdx).foldl (fun u x => u.setSpF group (Reg.LANE_RXP x.2) 31 16 x.1.toNat) t)

/-- BIAS_MAX is set and reported once (R298). -/
def State.biasMax (s : State) (g lane : Nat) : State :=
  if bit (s.spReg g Reg.SP_FLAG_STAT) 5 then s
  else (s.spFlag g 5).spRaise Src.OE_BIAS_MAX g ((s.portOfLane g lane).getD 0) lane

/-- The bias loop of one lane (R298): at most one BIAS_REQ a second; the bias is never lowered. -/
def State.biasLoop (s : State) (g lane : Nat) : State :=
  let far := signed 16 (fld (s.spReg g (Reg.LANE_RXP lane)) 31 16)
  let cfg := s.spReg g Reg.OE_CFG
  let cfg2 := s.spReg g Reg.OE_CFG2
  let low := decide (far < signed 16 (fld cfg 31 16) - (fld cfg 15 0 : Int))
  let b := s.spReg g (Reg.LANE_BIAS lane)
  let last := (s.spGroup g).biasAt.get 0 lane
  let s :=
    if !low then s
    else if fld b 31 16 ≤ fld b 15 0 then s.biasMax g lane
    else if last = 0 ∨ last + 99999999 ≤ s.time.edges then
      let s := s.oemiSend g 3 lane (fld cfg2 15 0)
      let v := s.spGroup g
      s.setSpGroup g { v with biasAt := v.biasAt.set 0 lane (s.time.edges + 1) }
    else s
  if far < signed 16 (fld cfg2 31 16) then s.markLane g lane else s

/-- A sample of one lane (R297, R303). -/
def State.monSample (s : State) (g lane : Nat) (m : LaneMon) : State :=
  let s := s.setSpF g (Reg.LANE_RXP lane) 15 0 m.rxp.toNat
  let s := s.setReg (s.spA g (Reg.LANE_BIAS lane)) (BitVec.ofNat 32 (m.biasMax.toNat * 2 ^ 16 + m.bias.toNat))
  let s := s.setSpF g (Reg.LANE_STAT lane) 20 16 m.wl.toNat
  let v := s.spGroup g
  let rest := if v.wlLock.testBit lane then v.wlLock - 2 ^ lane else v.wlLock
  s.setSpGroup g { v with wlLock := if m.locked then rest + 2 ^ lane else rest }

/-- The RXP_REPORT that goes to the partner (R275, R297). -/
def State.rxpWord (s : State) (g : Nat) : DataWord :=
  BitVec.ofNat 256 ((List.range 9).foldl (fun n l =>
    n + fld (s.spReg g (Reg.LANE_RXP l)) 15 0 * 2 ^ (16 * l + 16)) 4)

/-- READ_MON (R297, R298): every active and spare lane. -/
def State.readMon (s : State) (g : Nat) (rs : List (Nat × LaneMon)) : State :=
  let on (t : State) (l : Nat) : Bool := fld (t.spReg g (Reg.LANE_STAT l)) 31 30 != 0
  let s := rs.foldl (fun t x => if x.1 ≤ 8 then t.monSample g x.1 x.2 else t) s
  let s := (List.range (s.spPorts g)).foldl (fun t p =>
    if t.spState g p = spACTIVE then
      let v := t.spPort g p
      t.setSpPort g p { v with ctl := v.ctl ++ [t.rxpWord g] }
    else t) s
  (List.range 9).foldl (fun t l => if on t l then t.biasLoop g l else t) s

/-- READ_MON (R297). -/
def execReadMon (group : Nat) (readings : List (Nat × LaneMon)) (s : State) : Out :=
  done (s.when (s.spExists group && !s.stopped && bit (s.spReg group Reg.SP_CTRL) 31) fun t => t.readMon group readings)

/-- SER_CHECK (R291, R293): the symbols of the millisecond are compared with SER_LIMIT. -/
def execSerCheck (group lane : Nat) (s : State) : Out :=
  done (s.when (s.spExists group && decide (lane ≤ 8) && !s.stopped) fun t =>
    let v := t.spGroup group
    let n := v.symNow.get 0 lane
    let t := t.setSpGroup group { v with symNow := v.symNow.set 0 lane 0, symMs := v.symMs.set 0 lane n }
    let busy := match t.portOfLane group lane with
      | some p => t.spState group p == spACTIVE
      | none => false
    t.when (busy && decide (fld (t.spReg group Reg.SP_LANE_CFG) 31 16 < n)) fun u => u.markLane group lane)

/-! ### The engine's responses (R295, R296) -/

/-- The outstanding request is done with; the next one leaves now. -/
def State.oemiNext (s : State) (g : Nat) : State :=
  let v := s.spGroup g
  let rest := match v.oemi.tail with
    | x :: xs => { x with edge := s.time.edges } :: xs
    | [] => []
  s.setSpGroup g { v with oemi := rest }

/-- A failed transaction: sent again, or OE_TIMEOUT after the third failure. -/
def State.oemiFail (s : State) (g : Nat) : State :=
  match (s.spGroup g).oemi with
  | [] => s
  | x :: xs =>
    if x.tries + 1 < 3 then
      s.setSpGroup g { s.spGroup g with oemi := { x with tries := x.tries + 1, edge := s.time.edges } :: xs }
    else
      (((s.setSpF g Reg.OE_STAT 28 28 1).spFlag g 4).spRaise Src.OE_TIMEOUT g 0 0).oemiNext g

/-- What an answered request does (R296, R298, R299). -/
def State.oemiTake (s : State) (g : Nat) (x : OemiReq) (status args : Nat) : State :=
  match x.op with
  | 1 => if status = 0 ∧ x.lane ≤ 8 then
      s.monSample g x.lane ⟨BitVec.ofNat 16 args, BitVec.ofNat 16 (args / 2 ^ 16), BitVec.ofNat 16 (args / 2 ^ 32),
        (args / 2 ^ 48).testBit 0, BitVec.ofNat 8 (args / 2 ^ 56)⟩
    else s
  | 2 => if status = 0 then
      ((s.setSpF g Reg.OE_STAT 31 31 1).setSpF g Reg.OE_STAT 23 16 (bitsOf args 15 8)).setSpF g Reg.OE_STAT 15 0 (bitsOf args 31 16)
    else s
  | 3 => if x.lane ≤ 8 then
      let s := s.when (status == 0 || status == 3) fun t => t.setSpF g (Reg.LANE_BIAS x.lane) 15 0 (bitsOf args 15 0)
      s.when (status == 3) fun t => t.biasMax g x.lane
    else s
  | 7 => if status = 0 then s.setSpF g Reg.OE_STAT 30 30 x.args else s
  | 8 => if status = 0 then (if (s.spGroup g).shut then s.safetyFree g else s) else s
  | _ => s

/-- OEMI_RESPONSE (R295): a frame with a bad CRC or an unused opcode counts as a failure; one whose TSEQ or opcode is not
that of the outstanding request is ignored. -/
def State.oemiResponse (s : State) (g : Nat) (f : BitVec 128) : State :=
  match (s.spGroup g).oemi with
  | [] => s
  | x :: _ =>
    let n := f.toNat
    let op := bitsOf n 7 0
    if crc32c (bytesOf 12 n) ≠ bitsOf n 127 96 ∨ ((op < 1 ∨ 8 < op) ∧ (op < 0x80 ∨ 0x82 < op)) then s.oemiFail g
    else if bitsOf n 23 16 ≠ x.tseq ∨ op ≠ x.op then s
    else (s.oemiNext g).oemiTake g x (bitsOf n 31 24) (bitsOf n 95 32)

/-- OEMI_RESPONSE (R295). -/
def execOemiResponse (group : Nat) (frame : BitVec 128) (s : State) : Out :=
  done (s.when (s.spExists group && !s.stopped) fun t => t.oemiResponse group frame)

/-- OEMI_TIMEOUT (R295): 100 µs without a response. -/
def execOemiTimeout (group : Nat) (s : State) : Out :=
  let due := match (s.spGroup group).oemi with
    | x :: _ => decide (x.edge + 10000 ≤ s.time.edges)
    | [] => false
  done (s.when (s.spExists group && !s.stopped && due) fun t => t.oemiFail group)

/-! ### Events of the engine (R294, R299) -/

/-- WL_LOCK_CHANGE (R294): a lock ends a relock's wait, and the lane's IDENT is checked again; an unlock is a mislock. -/
def State.wlLockChange (s : State) (g lane : Nat) (locked : Bool) (wl : Nat) : State :=
  let v := s.spGroup g
  let rest := if v.wlLock.testBit lane then v.wlLock - 2 ^ lane else v.wlLock
  if locked then
    (s.setSpGroup g { v with wlLock := rest + 2 ^ lane, relock := v.relock.set 0 lane 0 }).setSpF g (Reg.LANE_STAT lane) 20 16 wl
  else
    let s := s.setSpGroup g { v with wlLock := rest }
    match s.portOfLane g lane with
    | some p => if s.laneUsable g lane && spIDENT ≤ s.spState g p && s.spState g p ≤ spSPARING then s.mislock g p lane else s
    | none => s

/-- WL_LOCK_CHANGE (R294). -/
def execWlLockChange (group lane : Nat) (locked : Bool) (wl : Nat) (s : State) : Out :=
  done (s.when (s.spExists group && decide (lane ≤ 8) && !s.stopped) fun t => t.wlLockChange group lane locked wl)

/-- A port of a group whose lanes are all lost: one in service retrains, one that trains fails with no lane (R290, R293). -/
def State.allLost (s : State) (g p : Nat) : State :=
  if s.spState g p = spACTIVE ∨ s.spState g p = spSPARING then s.spRetrain g p 0 0
  else if s.spTrains g p then s.spFail g p 1
  else s

/-- EYE_SHUT (R299): a safety-class group holds; another loses every lane. -/
def State.eyeShut (s : State) (g : Nat) : State :=
  let s := s.setSpF g Reg.OE_STAT 29 29 1
  let ports := List.range (s.spPorts g)
  if bit (s.spReg g Reg.SP_CTRL) 28 then
    let s := (s.setSpGroup g { s.spGroup g with shut := true }).spFlag g 3
    let s := ports.foldl (fun t p =>
      ((t.setSpState g p spSAFETY_HOLD).setSpF g (Reg.SP_PORT_STAT p) 15 8 0x0A).spDrop g p) s
    s.spRaise Src.OE_EYE_SHUT g 0 0
  else
    let v := s.spGroup g
    let s := s.setSpGroup g { v with sig := 0, locked := 0 }
    (ports.foldl (fun t p => t.allLost g p) s).spRaise Src.OE_EYE_SHUT g 0 0

/-- EYE_SHUT (R299). -/
def execEyeShut (group : Nat) (s : State) : Out :=
  done (s.when (s.spExists group && !s.stopped) fun t => t.eyeShut group)

/-- LANE_FAULT (R291). -/
def execLaneFault (group lane : Nat) (s : State) : Out :=
  done (s.when (s.spExists group && decide (lane ≤ 8) && !s.stopped) fun t => t.markLane group lane)

/-- LANE_LOST (R290): an ACTIVE port retrains straight to LOCK, and the retrain counts against the lane (R415, R421); a
training port that has no lane left fails (R293). -/
def State.laneLost (s : State) (g lane : Nat) : State :=
  let v := s.spGroup g
  let clear (m : Nat) : Nat := if m.testBit lane then m - 2 ^ lane else m
  let owner := s.portOfLane g lane
  let s := s.setSpGroup g { v with sig := clear v.sig, locked := clear v.locked, ident := clear v.ident }
  match owner with
  | none => s
  | some p =>
    if s.spState g p = spACTIVE then
      if (agrMask (s.spPort g p).agr).testBit lane then
        let s := (s.partEvent 7 (lanePart7 g lane) 0).partRetrain 6 (lanePart7 g lane)
        s.spRetrain g p 0 lane
      else s
    else if s.spTrains g p && (s.trainLanes g p).all (fun l => !(s.spGroup g).sig.testBit l) then s.spFail g p 1
    else s

/-- LANE_LOST (R290). -/
def execLaneLost (group lane : Nat) (s : State) : Out :=
  done (s.when (s.spExists group && decide (lane ≤ 8) && !s.stopped) fun t => t.laneLost group lane)

/-! ### Partner register access (R304) -/

/-- Where a register request goes: PORT 20 at row 0, column 0 for region 0x03, else PORT 21 at its position (R458). -/
def blockEndpoint (die : BitVec 17) (a : RegAddr) : BitVec 32 :=
  if a.region = 3 then endpoint die 0 0 20 else endpoint die (rowOf a.pos) (colOf a.pos) 21

/-- The request that a partner access sends (R304, R458). -/
def State.peerFlit (s : State) (g : Nat) : SFlit :=
  let site := s.spSite g
  let write := bit (s.spReg g Reg.SP_PEER_CTRL) 30
  let addr := s.spReg g Reg.SP_PEER_ADDR
  let data := if write then (s.spReg g Reg.SP_PEER_DATA).toNat else 0
  { dest := blockEndpoint aliasId (RegAddr.ofWord addr), src := s.physEndpoint site.1 22, kvc := 0
    stype := if write then 1 else 0, ctx := 0, tag := 0, priv := 1
    body := BitVec.ofNat 256 (addr.toNat + data * 2 ^ 32) }

/-- A write of SP_PEER_CTRL (R304). -/
def State.peerCtrlWrite (s : State) (pos side : Nat) (data : Word) : State :=
  match s.groupAt pos side with
  | none => s
  | some g =>
    let s := s.plainWrite (s.spA g Reg.SP_PEER_CTRL) data
    let p := fld data 29 27
    if !bit data 31 then s
    else if bit (s.spReg g Reg.SP_PEER_STAT) 31 || !(s.spHas g p && s.spState g p == spACTIVE) then
      s.setSpF g Reg.SP_PEER_STAT 28 28 1
    else
      let s := s.setSpF g Reg.SP_PEER_STAT 31 31 1
      let s := s.setSpGroup g { s.spGroup g with peer := some (p, s.time.edges) }
      let v := s.spPort g p
      s.setSpPort g p { v with sk := v.sk ++ [s.peerFlit g] }

/-- PEER_ACCESS (R304). -/
def execPeerAccess (acc : Access) (pos : Pos) (side : Nat) (data : Word) (s : State) : Out :=
  done (guardedWrite acc (edgeA pos side Reg.SP_PEER_CTRL) (fun t => t.peerCtrlWrite pos side data) s)

/-- The first received partner flit of a port that satisfies a test leaves the list. -/
def State.takePeer (s : State) (g p : Nat) (f : SFlit → Bool) : State :=
  match takeFirst (fun x : Nat × SFlit => x.1 == 8 * g + p && f x.2) s.spine.peerIn with
  | some (_, rest) => { s with spine := { s.spine with peerIn := rest } }
  | none => s

/-- PEER_RESPONSE (R304): a response that nothing waits for is discarded. -/
def State.peerResponse (s : State) (g p : Nat) (data : Word) (status : BitVec 8) : State :=
  let s := s.takePeer g p fun f => f.stype == 2
  match (s.spGroup g).peer with
  | some (q, _) =>
    if q ≠ p then s
    else
      let s := s.when (!bit (s.spReg g Reg.SP_PEER_CTRL) 30) fun t => t.setReg (t.spA g Reg.SP_PEER_DATA) data
      let s := ((s.setSpF g Reg.SP_PEER_STAT 7 0 status.toNat).setSpF g Reg.SP_PEER_STAT 31 30 1)
      s.setSpGroup g { s.spGroup g with peer := none }
  | none => s

/-- PEER_RESPONSE (R304). -/
def execPeerResponse (group port : Nat) (data : Word) (status : BitVec 8) (s : State) : Out :=
  done (s.when (s.spHas group port && !s.stopped) fun t => t.peerResponse group port data status)

/-- PEER_ACCESS_TIMEOUT (R304): 100 µs without a response, or the port left ACTIVE. -/
def execPeerAccessTimeout (group : Nat) (s : State) : Out :=
  done (s.when (s.spExists group && !s.stopped) fun t =>
    match (t.spGroup group).peer with
    | some (p, e) =>
      if e + 10000 ≤ t.time.edges ∨ t.spState group p ≠ spACTIVE then
        let t := (t.setSpF group Reg.SP_PEER_STAT 29 29 1).setSpF group Reg.SP_PEER_STAT 31 31 0
        t.setSpGroup group { t.spGroup group with peer := none }
      else t
    | none => t)

end Sys2Proof.Machine
end

