-- ==== Sys2Proof/Machine/Steward.lean ====
section
/-! DEFINITION. Budgets (R379, R380), rail limits (R381, R382), the die cap (R383 to R385), power shifts between dies (R386 to
R388), the job energy table (R390) and the coolant stop (R392). -/
namespace Sys2Proof.Machine

/-! ### Budgets (R379, R380) -/

/-- A POWER_BUDGET whose KIND a tile port does not take (R31, R380). -/
def State.discardFlit (s : State) (pos : Nat) (f : SFlit) : State :=
  s.raise Src.SKETCH_DISCARD pos .sketchRouter 0 f.ctx.toNat f.src.toNat 0

/-- POWER_BUDGET (R380): the BUDGET that the port drives; a client above a lowered one starts its 10 µs anew (R395). -/
def State.powerBudget (s : State) (pos : Nat) (f : SFlit) : State :=
  if f.field 0 1 ≠ 0 then s.discardFlit pos f
  else if !s.hasBudget pos then s
  else
    let v := f.field 2 2
    let lower := decide (v < fld (s.reg (tileA pos Reg.TILE_BUDGET)) 31 16)
    let s := s.setRegF (tileA pos Reg.TILE_BUDGET) 31 16 v
    let above := decide (v < fld (s.reg (tileA pos Reg.TILE_POWER)) 15 0)
    s.when (lower && above) fun t =>
      { t.setRegF (tileA pos Reg.TILE_BUDGET) 11 11 1 with power := { t.power with
          excess := t.power.excess.set 0 pos 0, powSum := t.power.powSum.set 0 pos 0 } }

/-- POWER_BUDGET (R380). -/
def execPowerBudget (pos : Pos) (flit : SFlit) (s : State) : Out :=
  done (s.when (s.inMesh pos && flit.stype.toNat == 9 && !s.stopped) fun t => (t.takeFlit pos flit).powerBudget pos flit)

/-- The number of the 10 µs period. -/
def State.period (s : State) : Nat := s.time.edges / 1000

/-- BUDGET_VIOL (R379): after 100 µs of excess OVER_BUDGET is set and reported, and THROTTLE rises by 1 in each 10 µs. -/
def State.budgetViol (s : State) (pos : Nat) : State :=
  if s.power.excess.get 0 pos < 10 ∨ s.power.violAt.get 0 pos = s.period + 1 then s
  else
    let first := s.power.viol.get 0 pos == 0
    let s := s.setRegF (tileA pos Reg.TILE_BUDGET) 11 11 1
    let s := s.when first fun t => t.raise Src.BUDGET_VIOL pos .tilePort 0 0 pos 0
    let s := { s with power := { s.power with
        viol := s.power.viol.set 0 pos (min 7 (s.power.viol.get 0 pos + 1)), violAt := s.power.violAt.set 0 pos (s.period + 1) } }
    s.driveThrottle pos

/-- BUDGET_VIOL (R379). -/
def execBudgetViol (pos : Pos) (s : State) : Out :=
  done (s.when (s.hasBudget pos && !s.stopped) fun t => t.budgetViol pos)

/-- One client's report of an AON cycle (R379, R389): TILE_POWER, IDLE, the running 10 µs, and the energy of its slot. -/
def State.takeReport (s : State) (r : TileReport) : State :=
  if !s.hasBudget r.pos || s.isSpare r.pos then s
  else
    let p := r.power.toNat
    let s := s.setReg (tileA r.pos Reg.TILE_POWER) (BitVec.ofNat 32 (r.slot.toNat * 2 ^ 16 + p))
    let s := s.setRegF (tileA r.pos Reg.TILE_BUDGET) 10 10 (b2n r.idle)
    let s := { s with power := { s.power with
        powSum := s.power.powSum.set 0 r.pos (s.power.powSum.get 0 r.pos + p), computeSum := s.power.computeSum + p } }
    s.charge r.pos (if s.slotValid r.pos r.slot.toNat then some r.slot.toNat else none) (100 * p)

/-- The end of a 10 µs period at every client that reported or was above its budget (R379): its average against BUDGET. -/
def State.budgetPeriod (s : State) : State :=
  let n := max 1 (s.time.edges - s.power.sumAt)
  let who := ((s.power.powSum.map (·.1)) ++ (s.power.excess.map (·.1)) ++ (s.power.viol.map (·.1))).eraseDups
  let s := who.foldl (fun t pos =>
    let b := fld (t.reg (tileA pos Reg.TILE_BUDGET)) 31 16
    let high := decide (11 * b * n < 10 * t.power.powSum.get 0 pos)
    let t := { t with power := { t.power with excess := t.power.excess.set 0 pos (if high then t.power.excess.get 0 pos + 1 else 0) } }
    if high ∨ t.power.viol.get 0 pos = 0 then t
    else ({ t with power := { t.power with viol := t.power.viol.set 0 pos 0 } }).driveThrottle pos) s
  { s with power := { s.power with powSum := [], sumAt := s.time.edges } }

/-! ### Rail limits (R381, R382) -/

/-- The panels of a rail. -/
def State.railPanels (s : State) (r : Nat) : List Nat :=
  (List.range (Config.panels s.config)).filter fun n => s.panelRail n == r

/-- A rail's current over the last microsecond in 0.1 A: the reports of its clients, leakage by panel state, and its
logic's activity (R381). -/
def State.railSample (s : State) (r : Nat) : Nat :=
  let leak := s.die Reg.RAIL_LEAK
  let leakOf (n : Nat) : Nat := match s.panelState n with
    | 0 => fld leak 7 0 | 1 => fld leak 15 8 | 2 => fld leak 23 16 | _ => fld leak 31 24
  let mw := (s.railPanels r).foldl (fun m n =>
    (s.activeTiles n).foldl (fun k p => k + 10 * fld (s.reg (tileA p Reg.TILE_POWER)) 15 0) (m + 100 * leakOf n)) 0
  let mv := 5 * s.dieF (Reg.RAIL_CFG r) 7 0
  if mv = 0 then Config.railNoVolt r s.fresh else (mw + Config.railActivity r s.fresh) * 10 / mv

/-- WIN of a rail (R393). -/
def State.railWin (s : State) (r : Nat) : Nat := max 1 (min 100 (s.dieF (Reg.RAIL_CFG r) 15 8))

/-- The members of a rail take a new level. -/
def State.setRail (s : State) (r lvl : Nat) : State :=
  let s := { s with power := { s.power with rail := s.power.rail.set 0 r lvl } }
  (s.railPanels r).foldl State.drivePanel s

/-- RAIL_LIMIT (R382). -/
def State.railLimit (s : State) (r : Nat) : State :=
  let xs := (s.railSample r :: s.power.railI.get [] r).take (s.railWin r)
  let est := min 65535 (xs.foldl (· + ·) 0 / xs.length)
  let s := { s.draw with power := { s.power with railI := s.power.railI.set [] r xs } }
  let s := s.setDieF (Reg.RAIL_STAT r) 15 0 est
  let limit := s.dieF (Reg.RAIL_CFG r) 31 16
  let lvl := s.railLevel r
  if limit = 0 then s
  else if limit < est then
    let s := (s.setDieF (Reg.RAIL_STAT r) 31 31 1).raiseDie Src.RAIL_LIMIT r est
    ({ s with power := { s.power with railLow := s.power.railLow.set 0 r 0 } }).setRail r (min 7 (lvl + 1))
  else if 10 * est < 9 * limit then
    let n := s.power.railLow.get 0 r + 1
    if s.railWin r ≤ n then
      ({ s with power := { s.power with railLow := s.power.railLow.set 0 r 0 } }).setRail r (lvl - 1)
    else { s with power := { s.power with railLow := s.power.railLow.set 0 r n } }
  else { s with power := { s.power with railLow := s.power.railLow.set 0 r 0 } }

/-- RAIL_LIMIT (R382). -/
def execRailLimit (rail : Nat) (s : State) : Out :=
  done (s.when (decide (rail < 8) && !s.stopped) fun t => t.railLimit rail)

/-! ### The die cap (R383 to R385) -/

/-- The order of the domains; an order with 3 or a repeated domain acts as the reset order (R393). -/
def State.domOrder (s : State) : List Nat :=
  let w := s.die Reg.POWER_CTRL
  let l := [fld w 5 4, fld w 3 2, fld w 1 0]
  if l.contains 3 || l.eraseDups.length != 3 then [2, 1, 0] else l

/-- A domain's draw over the last period in 0.1 W (R383). -/
def State.domDraw (s : State) (d n : Nat) : Nat :=
  match d with
  | 0 => s.power.computeSum / n / 10
  | 1 => s.power.memAll * s.dieF Reg.ENERGY_MODEL2 31 16 * 1000 / n / 10 ^ 6
  | _ => s.power.xAll * s.dieF Reg.ENERGY_MODEL 15 0 * 1000 / n / 10 ^ 6

/-- The grants of R383 in 0.1 W, or none where the floors cannot be covered. -/
def State.grants (s : State) (avail : Int) (demand : Nat → Nat) : Option (Store Nat) :=
  let floor (d : Nat) : Nat := s.dieF (Reg.DOM_LIMIT d) 15 0
  let floors : Int := floor 0 + floor 1 + floor 2
  if avail < floors then none
  else
    let start : Store Nat × Int := ([], avail - floors)
    let (g, _) := s.domOrder.foldl (fun (acc : Store Nat × Int) d =>
      let want : Int := max 0 ((min (s.dieF (Reg.DOM_LIMIT d) 31 16) (demand d) : Int) - floor d)
      let add := min acc.2 want
      (acc.1.put d (floor d + add.toNat), acc.2 - add)) start
    some g

/-- Each active tile's budget from the grant of COMPUTE, by its panel's weight (R384). -/
def State.shareCompute (s : State) (grant : Nat) : State :=
  let weight (pos : Nat) : Nat := max 1 (s.dieF (Reg.PANEL_CFG (s.panelOf pos)) 23 16)
  let tiles := (List.range (Config.panels s.config)).flatMap s.activeTiles
  let sum := max 1 (tiles.foldl (fun n p => n + weight p) 0)
  tiles.foldl (fun t p =>
    let t := { t with power := { t.power with base := t.power.base.set 0xFFFF p (min 0xFFFF (grant * 10 * weight p / sum)) } }
    t.sendBudget p (t.budgetNow p)) s

/-- CAP_DIVIDE (R383): the effective cap among the three domains; POWER_CAP 0 is no cap. -/
def State.capDivide (s : State) : State :=
  let n := max 1 (s.time.edges - s.power.capAt)
  let demand (d : Nat) : Nat := let w := s.domDraw d n; w + w / 8
  let unctrl := (Config.uncontrolled s.fresh).toNat
  let cap := s.dieF Reg.POWER_CAP 15 0
  let avail : Int := (if cap = 0 then 3 * 65535 else (cap : Int) + signed 16 (s.dieF Reg.PWR_SHIFT 15 0)) - (if cap = 0 then 0 else unctrl)
  let s := s.draw.setDieF Reg.POWER_STAT 15 0 unctrl
  let g := s.grants avail demand
  let s := s.when g.isNone fun t => (t.setDieF Reg.POWER_STAT 31 31 1).raiseDie Src.CAP_UNATTAINABLE cap unctrl
  let grant (d : Nat) : Nat := match g with
    | some m => m.get 0 d
    | none => s.dieF (Reg.DOM_LIMIT d) 15 0
  let s := (List.range 3).foldl (fun t d =>
    t.setReg (dieA (Reg.DOM_STAT d)) (BitVec.ofNat 32 (min 65535 (demand d) * 2 ^ 16 + min 65535 (grant d)))) s
  let s := { s with power := { s.power with
      computeSum := 0, memWords := [], xFlits := [], memAll := 0, xAll := 0, capAt := s.time.edges } }
  s.shareCompute (grant 0)

/-- CAP_DIVIDE (R383). -/
def execCapDivide (s : State) : Out :=
  done (s.when (bit (s.die Reg.POWER_CTRL) 31 && s.masterRuns && !s.stopped) State.capDivide)

/-! ### Shifts between dies (R386 to R388) -/

/-- A DIE_SHIFT to a member (R380, R387). -/
def State.sendShift (s : State) (die : Nat) (shift : Int) (round : Nat) : State :=
  s.sketchSend 0
    { dest := endpoint (BitVec.ofNat 17 die) 0 0 20, src := s.physEndpoint 0 20, kvc := 2, stype := 9, ctx := 0, tag := 0
      priv := 1, body := BitVec.ofNat 256 (1 + encodeInt 16 shift * 2 ^ 16 + round * 2 ^ 32) }

/-- Whether a report goes before another: greater SLACK, then lower DIE_ID. -/
def slackBefore (a b : Nat × Nat × Int) : Bool := decide (b.2.1 < a.2.1) || (a.2.1 == b.2.1 && decide (a.1 < b.1))

/-- The reports in the order of R387. -/
def slackSort (l : List (Nat × Nat × Int)) : List (Nat × Nat × Int) :=
  l.foldl (fun out x => (out.takeWhile fun y => slackBefore y x) ++ x :: (out.dropWhile fun y => slackBefore y x)) []

/-- The shifts of R387: early dies give, late dies take. -/
def shiftPairs (th step most : Int) : (fuel : Nat) → List (Nat × Nat × Int) → List (Nat × Int)
  | 0, l => l.map fun x => (x.1, x.2.2)
  | fuel + 1, l =>
    match l, l.getLast? with
    | a :: _ :: _, some z =>
      let mid := (l.drop 1).dropLast
      if th < (a.2.1 : Int) - z.2.1 then
        if -most ≤ a.2.2 - step ∧ z.2.2 + step ≤ most then
          (a.1, a.2.2 - step) :: shiftPairs th step most fuel mid ++ [(z.1, z.2.2 + step)]
        else (a.1, a.2.2) :: shiftPairs th step most fuel mid ++ [(z.1, z.2.2)]
      else l.map fun x => (x.1, x.2.2)
    | _, _ => l.map fun x => (x.1, x.2.2)

/-- A complete round is decided: DIE_SHIFT to each member whose SHIFT changed (R387). -/
def State.decideRound (s : State) (r : SlackRound) : State :=
  let cfg := s.die Reg.PWR_SHIFT_CFG
  let new := shiftPairs (s.dieF Reg.PWR_SLACK_CFG 31 16) (fld cfg 15 0) (fld cfg 31 16) r.got.length (slackSort r.got)
  new.foldl (fun t x =>
    if r.got.any (fun y => y.1 == x.1 && y.2.2 != x.2) then t.sendShift x.1 x.2 r.round else t) s

/-- Whether this die coordinates its group now (R386, R388). -/
def State.coordinates (s : State) : Bool :=
  let w := s.die Reg.PWR_GROUP_CFG
  bit w 31 && bit w 30 && s.masterRuns && !s.stopped

/-- POWER_SLACK (R387). -/
def State.powerSlack (s : State) (f : SFlit) : State :=
  let die := (dieOf f.src).toNat
  let round := f.field 6 4
  let item := (die, f.field 0 4, signed 16 (f.field 4 2))
  let s := { s with power := { s.power with members := if s.power.members.contains die then s.power.members else die :: s.power.members } }
  let old : SlackRound := (s.power.rounds.find? fun r => r.round == round).getD ⟨round, s.time.edges, []⟩
  let new : SlackRound := if old.got.any (fun x => x.1 == die) then old else { old with got := old.got ++ [item] }
  let rest := s.power.rounds.filter fun r => r.round != round
  if s.dieF Reg.PWR_GROUP_CFG 16 0 ≤ new.got.length then
    ({ s with power := { s.power with rounds := rest } }).decideRound new
  else { s with power := { s.power with rounds := rest ++ [new] } }

/-- POWER_SLACK (R387). -/
def execPowerSlack (flit : SFlit) (s : State) : Out :=
  done (s.when (!s.stopped && s.coordinates && flit.stype.toNat == 0x0A) fun t => (t.takeFlit 0 flit).powerSlack flit)

/-- SLACK_ROUND_TIMEOUT (R387): every round not complete within TIMEOUT resets the group. -/
def execSlackRoundTimeout (s : State) : Out :=
  done (s.when (!s.stopped && s.coordinates) fun t =>
    let limit := 100 * max 1 (t.dieF Reg.PWR_SLACK_CFG 15 0)
    let late := t.power.rounds.filter fun r => decide (r.edge + limit ≤ t.time.edges)
    late.foldl (fun u r =>
      let u := { u with power := { u.power with rounds := u.power.rounds.filter fun x => x.round != r.round } }
      (u.power.members.foldl (fun v die => v.sendShift die 0 r.round) u).count (dieA Reg.PWR_GROUP_RESET_CNT) 1) t)

/-- DIE_SHIFT (R388): a round older than the last applied is discarded; it takes effect at the next division (R385). -/
def execDieShift (flit : SFlit) (s : State) : Out :=
  done (s.when (bit (s.die Reg.PWR_GROUP_CFG) 31 && s.masterRuns && !s.stopped && flit.stype.toNat == 9 && flit.field 0 1 == 1)
    fun t =>
      let t := t.takeFlit 0 flit
      let round := flit.field 4 4
      let old := match t.power.lastRound with | some r => decide (round < r) | none => false
      if old then t
      else { t.setDie Reg.PWR_SHIFT (BitVec.ofNat 32 (flit.field 2 2)) with power := { t.power with lastRound := some round } })

/-! ### Job energy (R390) -/

/-- JOB_ENERGY_VISIT (R390): a slot's growth since the last visit goes to its job. -/
def State.jobVisit (s : State) (pos slot : Nat) : State :=
  let k := 64 * pos + slot
  let now := s.reg64 (tileA pos (Reg.ENERGY_LO slot))
  let was := s.power.seen.get 0 k
  let grown := if was ≤ now then now - was else now
  let s := { s with power := { s.power with seen := s.power.seen.set 0 k now } }
  let job := s.slotJob pos slot
  match s.power.jobs.find? job with
  | some e => { s with power := { s.power with jobs := s.power.jobs.put job (1 + (e - 1 + grown) % 2 ^ 64) } }
  | none =>
    if s.power.jobs.length < 1024 then { s with power := { s.power with jobs := s.power.jobs.put job (1 + grown) } }
    else (s.charge 0 none (1000 * grown)).setDieF Reg.JOB_E_CTRL 30 30 1

/-- JOB_ENERGY_VISIT (R390). -/
def execJobEnergyVisit (pos : Pos) (slot : Nat) (s : State) : Out :=
  done (s.when (s.inMesh pos && decide (slot < 64) && s.slotValid pos slot && s.masterRuns && !s.stopped) fun t =>
    t.jobVisit pos slot)

/-- A write of JOB_E_CTRL (R393): CLR frees the entry of JOB_ID. -/
def State.jobECtrlWrite (s : State) (data : Word) : State :=
  let s := s.plainWrite (dieA Reg.JOB_E_CTRL) data
  s.when (bit data 31) fun t =>
    { t with power := { t.power with jobs := t.power.jobs.del (t.dieF Reg.JOB_E_SEL 15 0) } }

/-- JOB_E_CLR (R393). -/
def execJobEClr (acc : Access) (data : Word) (s : State) : Out :=
  done (guardedWrite acc (dieA Reg.JOB_E_CTRL) (fun t => t.jobECtrlWrite data) s)

/-- Energy of the job that JOB_E_SEL names; none without an entry. -/
def State.jobEnergy (s : State) : Option Nat := (s.power.jobs.find? (s.dieF Reg.JOB_E_SEL 15 0)).map fun e => e - 1

/-! ### The coolant stop (R392) -/

/-- COOLANT_STOP: injection, the links, the tile clients and every clock but the AON domain's stop, until a restart. -/
def State.coolantStop (s : State) : State :=
  let s := s.raiseDie Src.COOLANT_STOP 0 0
  let s := (s.setDieF Reg.COOLANT_STAT 31 30 3).setReg64 (dieA Reg.COOLANT_NT_LO) (s.ntNat / 2 * 2 + 1)
  let s := s.positions.foldl (fun t p => if t.hasBudget p then t.setRegF (tileA p Reg.TILE_BUDGET) 12 12 1 else t) s
  let s := ((List.range 64).filter s.spExists).foldl (fun t g =>
    (List.range (t.spPorts g)).foldl (fun u p => (u.setSpPort g p (u.spPort g p).hold).setSpState g p spDISABLED) t) s
  { s with release := false }

/-- COOLANT_STOP (R392). -/
def execCoolantStop (s : State) : Out :=
  done (s.when (!bit (s.die Reg.COOLANT_STAT) 31) State.coolantStop)

end Sys2Proof.Machine
end

