-- ==== Sys2Proof/Machine/Wear.lean ====
section
/-! DEFINITION. Wear (R421 to R424) and the soak self-test (R427). -/
namespace Sys2Proof.Machine

/-! ### Parts and their scores (R421, R422) -/

/-- Whether a part of a wear kind exists. -/
def State.wearExists (s : State) (kind part : Nat) : Bool :=
  match kind with
  | 0 => decide (part < Config.panels s.config)
  | 1 => s.odlExists 0 (part / 14) (part % 14)
  | 2 => s.odlExists 1 (part / 2) (part % 2)
  | 3 => s.odlExists 2 (part / 2) (part % 2)
  | 4 | 5 => s.inMesh part
  | 6 | 7 => s.spExists (part / 16) && decide (part % 16 < 9)
  | 8 => s.spExists part
  | _ => false

/-- Every part that has a score: (kind, part), by kind, then position or group, then unit. -/
def State.wearParts (s : State) : List (Nat × Nat) :=
  let at' (kind n : Nat) : List (Nat × Nat) := s.positions.flatMap fun p => (List.range n).map fun u => (kind, n * p + u)
  let sp (kind n w : Nat) : List (Nat × Nat) :=
    (List.range (Config.spgroups s.config)).flatMap fun g => (List.range n).map fun u => (kind, w * g + u)
  let all := (List.range (Config.panels s.config)).map (fun n => (0, n)) ++ at' 1 14 ++ at' 2 2 ++ at' 3 2 ++ at' 4 1 ++
    at' 5 1 ++ sp 6 9 16 ++ sp 7 9 16 ++ sp 8 1 1
  all.filter fun x => s.wearExists x.1 x.2

/-- The key of a part's score. -/
def wearKey (kind part : Nat) : Nat := 2 ^ 24 * kind + part

/-- Whether a part is retired: its score is 0 (R422). -/
def State.wearRetired (s : State) (kind part : Nat) : Bool :=
  match kind with
  | 1 | 2 | 3 => s.partRetired (kind - 1) part
  | 5 => s.partRetired 5 part
  | 6 | 7 => s.partRetired 7 part
  | _ => false

/-- WORN and GOOD of an indicator: WEAR_IND_CFG. -/
def State.indCfg (s : State) (i : Nat) : Word := s.flt.indCfg.get (BitVec.ofNat 32 (indReset i)) i

/-- The score of an indicator's value (R422). -/
def State.indScore (s : State) (i x : Nat) : Nat :=
  let worn : Int := fld (s.indCfg i) 31 16
  let good : Int := fld (s.indCfg i) 15 0
  (max 0 (min 1000 (Int.fdiv (1000 * (worn - x)) (worn - good)))).toNat

/-- A ratio in 1/1000; a free value where its divisor is 0. -/
def State.milli (s : State) (i a b : Nat) : Nat := if b = 0 then Config.noRatio i s.fresh else 1000 * a / b

/-- The indicators of a part with their values (R421): corrected blocks of the current operating hour, retrains since the
last mark of 24 hours (log entry 36). -/
def State.indicators (s : State) (kind part : Nat) : List (Nat × Nat) :=
  let ce := s.flt.ceCount.get 0 (wearKey kind part)
  let re := s.flt.reCount.get 0 (wearKey kind part)
  match kind with
  | 0 => [(0, Config.ageing part s.fresh)]
  | 1 | 2 | 3 => [(1, ce), (2, re)]
  | 4 =>
    let used (b : Nat) : Nat := ((List.range 2).map fun h =>
      let w := s.reg (tileA part (Reg.TRAY_REPAIR b h))
      b2n (bit w 31) + b2n (bit w 15)).foldl (· + ·) 0
    [(1, ce), (3, 1000 * ((List.range 16).map used).foldl max 0 / 4)]
  | 5 => [(1, ce)]
  | 6 =>
    let g := part / 16; let l := part % 16
    [(5, s.milli 5 ((s.spGroup g).symMs.get 0 l) (fld (s.spReg g Reg.SP_LANE_CFG) 31 16)), (2, re)]
  | 7 =>
    let w := s.spReg (part / 16) (Reg.LANE_BIAS (part % 16))
    [(4, s.milli 4 (fld w 15 0) (fld w 31 16))]
  | 8 =>
    let v := s.spGroup part
    let lane := b2n ((List.range 9).any fun l => s.laneDead part l)
    [(3, min 1000 (1000 * (lane + popCount 9 v.assigned) / (1 + popCount 16 (fld (s.spReg part Reg.OE_STAT) 15 0))))]
  | _ => []

/-- A part's score and the indicator that set it. -/
def State.wearScore (s : State) (kind part : Nat) : Nat × Nat :=
  let l := (s.indicators kind part).map fun x => (s.indScore x.1 x.2, x.1)
  let low := l.foldl (fun m x => if x.1 < m.1 then x else m) (l.headD (1000, 0))
  if s.wearRetired kind part then (0, low.2) else low

/-- The position that a part's record names. -/
def State.wearPos (s : State) (kind part : Nat) : Nat :=
  match kind with
  | 0 => ((s.panelPos part).head?).getD 0
  | 1 => part / 14
  | 2 | 3 => part / 2
  | 4 | 5 => part
  | 6 | 7 => (s.spSite (part / 16)).1
  | _ => (s.spSite part).1

/-- The UNIT of a part. -/
def wearUnit (kind part : Nat) : Nat :=
  match kind with
  | 1 => part % 14
  | 2 | 3 => part % 2
  | 6 | 7 => part % 16
  | _ => 0

/-- One part is scored; below WARN it raises WEAR_LOW once. ARG0 holds KIND and UNIT as WEAR_SEL does (R422). -/
def State.scorePart (s : State) (x : Nat × Nat) : State :=
  let key := wearKey x.1 x.2
  let sc := s.wearScore x.1 x.2
  let s := { s with flt := { s.flt with scores := s.flt.scores.set (1000, 0) key sc }, fresh := s.fresh + 1 }
  if sc.1 < s.dieF Reg.WEAR_CFG 9 0 ∧ !s.flt.wearTold.contains key then
    { s with flt := { s.flt with wearTold := key :: s.flt.wearTold } }.raise Src.WEAR_LOW (s.wearPos x.1 x.2) .die 0 0
      (x.1 * 2 ^ 28 + wearUnit x.1 x.2) sc.1
  else s

/-- WEAR_UPDATE: the master core recomputes every score, once per second (R421). -/
def execWearUpdate (s : State) : Out :=
  done (s.when (s.masterRuns && !s.stopped) fun t => t.wearParts.foldl State.scorePart t)

/-! ### The history (R423) -/

/-- Where the 64 B history of a part lies: in the FAULT tray claim, the parts in the order above (log entry 36). -/
def State.wearPlace (s : State) (kind part : Nat) : Option (Nat × Nat) :=
  match s.trayClaim 6 none with
  | none => none
  | some c =>
    let i := s.wearParts.findIdx fun x => x == (kind, part)
    if 64 * (i + 1) ≤ 4096 * c.count then some (c.pos, 4096 * c.first + 64 * i) else none

/-- The word of a part's history: its place's bytes. -/
def State.histWord (s : State) (kind part w : Nat) : Word :=
  match s.wearPlace kind part with
  | some (pos, off) => BitVec.ofNat 32 (ofBytes (s.trayBytes pos (off + 4 * w) 4))
  | none => 0

/-- A word of a part's history is written; without a claim nothing is kept (R423). -/
def State.histPut (s : State) (kind part w : Nat) (v : Word) : State :=
  match s.wearPlace kind part with
  | some (pos, off) => (s.writeBytesIn pos (off + 4 * w) swNone 0 (bytesOf 4 v.toNat)).2
  | none => s

/-- The sample count and the hour of the last sample: [7:0] and [31:8] of the header (log entry 36). -/
def State.histHead (s : State) (kind part : Nat) : Nat × Nat :=
  let w := s.histWord kind part 0
  (min 30 (fld w 7 0), fld w 31 8)

/-- The samples of a part, oldest first. -/
def State.samples (s : State) (kind part : Nat) : List Nat :=
  (List.range (s.histHead kind part).1).map fun i => fld (s.histWord kind part (1 + i / 2)) (16 * (i % 2) + 15) (16 * (i % 2))

/-- A part's score is appended; the last 30 samples stay (R423). -/
def State.histAppend (s : State) (x : Nat × Nat) : State :=
  let old := s.samples x.1 x.2
  let l := (if 30 ≤ old.length then old.drop 1 else old) ++ [(s.flt.scores.get (1000, 0) (wearKey x.1 x.2)).1]
  let s := s.histPut x.1 x.2 0 (BitVec.ofNat 32 (l.length + (s.die Reg.OPER_HOURS).toNat * 2 ^ 8))
  (List.range 15).foldl (fun t j =>
    t.histPut x.1 x.2 (1 + j) (BitVec.ofNat 32 (l.getD (2 * j) 0 + l.getD (2 * j + 1) 0 * 2 ^ 16))) s

/-- WEAR_HISTORY: at every 24 operating hours (R423). -/
def execWearHistory (s : State) : Out :=
  done (s.when (s.masterRuns && !s.stopped && (s.die Reg.OPER_HOURS).toNat % 24 == 0) fun t =>
    t.wearParts.foldl State.histAppend t)

/-- OPER_HOUR: one more whole hour with PORST_N high (R423); the counts behind the rates start anew (log entry 36). -/
def State.operHour (s : State) : State :=
  let s := s.setDie Reg.OPER_HOURS (wrapAdd (s.die Reg.OPER_HOURS) 1)
  { s with flt := { s.flt with
    ceCount := [], reCount := if (s.die Reg.OPER_HOURS).toNat % 24 = 0 then [] else s.flt.reCount } }

/-- OPER_HOUR (R423). -/
def execOperHour (s : State) : Out := done (s.when (s.phase != 0) State.operHour)

/-! ### The prediction (R424) -/

/-- The integer square root, one bit at a time from bit `k - 1` down. -/
def isqrt (n : Nat) : (k r : Nat) → Nat
  | 0, r => r
  | k + 1, r => let c := r + 2 ^ k; isqrt n k (if c * c ≤ n then c else r)

/-- The quotient rounded to the nearest integer. -/
def nearest (a b : Nat) : Nat := (2 * a + b) / (2 * b)

/-- HOURS of a prediction: none reads all ones. -/
def eolWord (v : Option Nat) : Word :=
  match v with
  | some h => BitVec.ofNat 32 (min h 0xFFFFFFFF)
  | none => 0xFFFFFFFF

/-- WEAR_EOL, LO and HI of samples taken every 24 hours, with the current score and hour (R424). With n samples y_i at
i = 0 to n - 1: sxx and sxy are n times the sums of squares and products, and d n^2 times the product that gives the
standard error; its root is taken to 64 fraction bits. -/
def predict (ys : List Nat) (score hour : Nat) : Option Nat × Option Nat × Option Nat :=
  let n := ys.length
  let is := (List.range n).zip ys
  let sum (f : Nat × Nat → Nat) : Nat := (is.map f).foldl (· + ·) 0
  let sx := sum (·.1); let sy := sum (·.2)
  let sxx := n * sum (fun x => x.1 * x.1) - sx * sx
  let sxy : Int := (n * sum (fun x => x.1 * x.2) : Nat) - (sx * sy : Nat)
  let syy := n * sum (fun x => x.2 * x.2) - sy * sy
  if n < 7 ∨ 0 ≤ sxy then (none, none, none)
  else
    let m := sxy.natAbs
    let d := syy * sxx - m * m
    let root := isqrt (d * 2 ^ 128 / (n - 2)) 128 0
    let slope := m * 10000 * 2 ^ 64
    let band := 12816 * root
    let top := 24 * score * sxx * 10000 * 2 ^ 64
    (some (hour + nearest top slope), some (hour + nearest top (slope + band)),
      if slope ≤ band then none else some (hour + nearest top (slope - band)))

/-- The prediction of a part. -/
def State.prediction (s : State) (kind part : Nat) : Option Nat × Option Nat × Option Nat :=
  predict (s.samples kind part) (s.flt.scores.get (1000, 0) (wearKey kind part)).1 (s.die Reg.OPER_HOURS).toNat

/-! ### The window (R428) -/

/-- The part that WEAR_SEL names. -/
def State.wearSel (s : State) : Option (Nat × Nat) :=
  let w := s.die Reg.WEAR_SEL
  let kind := fld w 31 28
  let pos := mkPos (fld w 25 21) (fld w 20 16)
  let unit := fld w 5 0
  let group := match s.edgePort pos (fld w 7 6) with | .spine g => some g | _ => none
  let part : Option Nat :=
    match kind with
    | 0 => if s.inMesh pos then some (s.panelOf pos) else none
    | 1 => if unit < 14 then some (14 * pos + unit) else none
    | 2 | 3 => if unit < 2 then some (2 * pos + unit) else none
    | 4 | 5 => some pos
    | 6 | 7 => if unit < 9 then group.map fun g => 16 * g + unit else none
    | 8 => group
    | _ => none
  (part.filter fun p => s.wearExists kind p && s.inMesh pos).map fun p => (kind, p)

/-- A wear register as it reads (R428). -/
def State.wearRead (s : State) (off : Nat) : Word :=
  match s.wearSel with
  | none => if off = Reg.WEAR_SCORE ∨ off = Reg.WEAR_HIST_DATA then 0 else 0xFFFFFFFF
  | some (kind, part) =>
    if off = Reg.WEAR_SCORE then
      let sc := s.flt.scores.get (1000, 0) (wearKey kind part)
      BitVec.ofNat 32 (sc.1 + sc.2 * 2 ^ 24)
    else if off = Reg.WEAR_HIST_DATA then s.histWord kind part (s.dieF Reg.WEAR_HIST_SEL 3 0)
    else
      let p := s.prediction kind part
      eolWord (if off = Reg.WEAR_EOL then p.1 else if off = Reg.WEAR_EOL_LO then p.2.1 else p.2.2)

/-- A WEAR_HIST_DATA write. -/
def State.wearHistWrite (s : State) (data : Word) : State :=
  match s.wearSel with
  | some (kind, part) => s.histPut kind part (s.dieF Reg.WEAR_HIST_SEL 3 0) data
  | none => s

/-- A WEAR_IND_CFG write for the indicator that WEAR_IND_SEL names: GOOD equal to WORN, or an unused indicator, is
ignored with a Note (R428). -/
def State.indCfgWrite (s : State) (data : Word) : State :=
  let i := s.dieF Reg.WEAR_IND_SEL 2 0
  if 6 ≤ i then s
  else if fld data 31 16 = fld data 15 0 then s.cfgNote (dieA Reg.WEAR_IND_CFG)
  else { s with flt := { s.flt with indCfg := s.flt.indCfg.set (BitVec.ofNat 32 (indReset i)) i data } }

/-! ### The soak (R427) -/

/-- Whether a context is bound on the die. -/
def State.anyBound (s : State) : Bool := (List.range 4096).any fun c => bit (s.ctxJob c) 31

/-- Whether a GO takes effect: TEST mode, a SOAK timer channel, no bound context, and a used PATTERN. -/
def State.soakMay (s : State) : Bool :=
  s.mode == 2 && ((List.range 32).any fun c => s.holds 9 1 c) && !s.anyBound && decide (s.dieF Reg.SOAK_CTRL 15 8 ≤ 3)

/-- The soak ends: every tray is zeroed again, and DONE is set. -/
def State.soakFinish (s : State) : State :=
  let s := { s with trays := { s.trays with mem := [], bad := [] } }
  (s.setDieF Reg.SOAK_STAT 31 31 0).setDieF Reg.SOAK_STAT 30 30 1

/-- A SOAK_CTRL write: its fields, then STOP, then GO. -/
def State.soakCtrlWrite (s : State) (data : Word) : State :=
  let s := s.plainWrite (dieA Reg.SOAK_CTRL) data
  let s := s.when (bit data 30 && bit (s.die Reg.SOAK_STAT) 31) State.soakFinish
  if !bit data 31 then s
  else if s.soakMay then
    let secs := max 1 (s.die Reg.SOAK_TIME).toNat
    { s.setDieF Reg.SOAK_STAT 31 31 1 with flt := { s.flt with soakEnd := s.time.edges + secs * 100000000 } }
  else s.setDieF Reg.SOAK_STAT 29 29 1

/-- SOAK_GO (R427). -/
def execSoakGo (acc : Access) (data : Word) (s : State) : Out :=
  done (guardedWrite acc (dieA Reg.SOAK_CTRL) (fun t => t.soakCtrlWrite (setBit data 31 true)) s)

/-- SOAK_STOP (R427). -/
def execSoakStop (acc : Access) (data : Word) (s : State) : Out :=
  done (guardedWrite acc (dieA Reg.SOAK_CTRL) (fun t => t.soakCtrlWrite (setBit data 30 true)) s)

/-- SOAK_END: SOAK_TIME has passed (R427). -/
def execSoakEnd (s : State) : Out :=
  done (s.when (bit (s.die Reg.SOAK_STAT) 31 && decide (s.flt.soakEnd ≤ s.time.edges) && !s.stopped) State.soakFinish)

end Sys2Proof.Machine
end

