-- ==== Sys2Proof/Machine/RegWrite.lean ====
section
/-! DEFINITION. What a read and a write of each register do (R8 to R12): the effects of registers with commands of their
own, 64-bit pairs, index windows, and access types for all others. The canvas loader's own registers are with the loader. -/
namespace Sys2Proof.Machine

/-! ### 64-bit pairs (R10) -/

/-- The low halves of the 64-bit quantities of region 0x01. -/
def tilePair (off : Nat) : Bool :=
  off == 0x0114 || off == 0x00E0 || off == 0x6900 ||
  (decide (0x6200 ≤ off) && decide (off < 0x6400) && off % 8 == 0) ||
  (decide (0x6800 ≤ off) && decide (off < 0x6900) && (off % 0x40 == 0 || off % 0x40 == 8 || off % 0x40 == 0x10)) ||
  (decide (0x6C00 ≤ off) && decide (off < 0x6D00) && (off % 0x40 == 0x2C || off % 0x40 == 0x34)) ||
  (decide (0x6D00 ≤ off) && decide (off < 0x6D40) && off % 8 == 0)

/-- The low halves of the 64-bit quantities of region 0x03. -/
def diePair (off : Nat) : Bool :=
  [0x0800, 0x0810, 0x0818, 0x0908, 0x0910, 0x0924, 0x0948, 0x1904, 0x1910, 0x1934].contains off ||
  (decide (0x1480 ≤ off) && decide (off < 0x14E0) && off % 8 == 0) ||
  (decide (0x8020 ≤ off) && decide (off < 0x8060) && off % 16 == 8)

/-- Whether a register is the low half of a 64-bit quantity. -/
def pairLow (a : RegAddr) : Bool :=
  match a.region with
  | 1 => tilePair a.off
  | 3 => diePair a.off
  | _ => false

/-- Whether a register is the high half of a 64-bit quantity. -/
def pairHigh (a : RegAddr) : Bool := decide (4 ≤ a.off) && pairLow { a with off := a.off - 4 }

/-- A write of a plain 64-bit register: a high half is staged, a low half takes both (R10). -/
def State.pairWrite (s : State) (p : Path) (a : RegAddr) (data : Word) : State :=
  let hi := { a with off := a.off + 4 }
  (s.plainWrite a data).plainWrite hi (s.staged p hi)

/-! ### Index windows (R241, R258, R261, R320) -/

/-- The position that the upper half of an index register names. -/
def selPos (w : Word) : Nat := mkPos (fld w 25 21) (fld w 20 16)

/-- Where a window of region 0x03 leads: its index register, and the register of the position that it selects. -/
def windowOf (off : Nat) : Option (Nat × (Word → Nat)) :=
  match off with
  | 0x0C04 => some (Reg.RED_SEL, fun w => Reg.W_RED_TREE (fld w 5 0))
  | 0x0C08 => some (Reg.RED_SEL, fun w => Reg.W_RED_SIG (fld w 5 0))
  | 0x0C0C => some (Reg.RED_SEL, fun _ => Reg.W_RED_CFG)
  | 0x0C10 => some (Reg.RED_SEL, fun _ => Reg.W_RED_STAT)
  | 0x0C14 => some (Reg.RED_SEL, fun _ => Reg.W_RED_FLUSH)
  | 0x0C18 => some (Reg.RED_SEL, fun _ => Reg.W_RED_OVF)
  | 0x0C1C => some (Reg.RED_SEL, fun _ => Reg.W_RED_MSIG)
  | 0x1054 => some (Reg.BAR_SEL, fun w => Reg.W_BAR_LO (fld w 5 0))
  | 0x1058 => some (Reg.BAR_SEL, fun w => Reg.W_BAR_HI (fld w 5 0))
  | 0x105C => some (Reg.BAR_SEL, fun w => Reg.W_BAR_COUNT (fld w 5 0))
  | 0x1060 => some (Reg.BAR_SEL, fun _ => Reg.W_BAR_LATE)
  | 0x1084 => some (Reg.WASH_SEL, fun w => Reg.W_WASH_LAND (fld w 3 0))
  | 0x1088 => some (Reg.WASH_SEL, fun _ => Reg.W_WASH_LOSS)
  | 0x1104 => some (Reg.BYP_SEL, fun w => Reg.W_BYP_MAP (fld w 5 0) (fld w 31 31))
  | _ => none

/-- The register behind a window; none where its index register names no router. -/
def State.windowAt (s : State) (sel : Nat) (f : Word → Nat) : Option RegAddr :=
  let w := s.die sel
  if s.inMesh (selPos w) then some ⟨64, selPos w, f w⟩ else none

/-- A write through a window (R241): one that names no router is ignored. -/
def State.windowWrite (s : State) (off sel : Nat) (f : Word → Nat) (data : Word) : State :=
  match s.windowAt sel f with
  | none => s
  | some w => if off = Reg.RED_TREE then s.redTreeWindow data else s.plainWrite w data

/-- A read through a window: SLOTS_USED is the live number (R241). -/
def State.windowRead (s : State) (off sel : Nat) (f : Word → Nat) : Word :=
  match s.windowAt sel f with
  | none => 0
  | some w => if off = Reg.RED_STAT then setFld (s.reg w) 13 8 (s.slotsAt w.pos).length else s.reg w

/-! ### Routers (region 0x00) -/

/-- The bank and index of a route-entry or spray register: 0 the entry, 1 the set. -/
def routeReg (off : Nat) : Option (Nat × Nat × Nat) :=
  if 0x4000 ≤ off ∧ off < 0x5300 then some (0, 0, (off - 0x4000) / 4)
  else if 0x6000 ≤ off ∧ off < 0x7300 then some (0, 1, (off - 0x6000) / 4)
  else if 0x7400 ≤ off ∧ off < 0x7500 then some (1, 0, (off - 0x7400) / 4)
  else if 0x7500 ≤ off ∧ off < 0x7600 then some (1, 1, (off - 0x7500) / 4)
  else none

/-- A write of a router's register; thresholds outside R90 raise a Note naming the router. -/
def State.routerWrite (s : State) (a : RegAddr) (data : Word) : State :=
  match routeReg a.off with
  | some (0, bank, i) => s.routeEntryWrite a.pos bank i data
  | some (_, bank, i) => s.spraySetWrite a.pos bank i data
  | none =>
    if a.off = Reg.ARB_COMMIT then s.arbCommitWrite a.pos data
    else if a.off = Reg.ONOFF_CFG then
      (s.plainWrite a data).when (!(decide (4 ≤ fld data 3 0) && decide (fld data 3 0 < fld data 7 4) &&
        decide (fld data 7 4 ≤ 8))) fun t => t.raise Src.CFG_ADJUSTED a.pos .router 0 0 a.pos 0
    else s.plainWrite a data

/-- A router's register as it reads. -/
def State.routerRead (s : State) (a : RegAddr) : Word :=
  if a.off = Reg.CMAP_WINDOW_ID then s.mesh.cmapId
  else if 0x2000 ≤ a.off ∧ a.off < 0x2540 then s.histRead a.pos ((a.off - 0x2000) / 4)
  else s.reg a

/-! ### Tile ports (region 0x01) -/

/-- A slot's ENERGY is written: the count that the job table has seen and the hidden fraction follow (R390, R391). -/
def State.energyWrite (s : State) (p : Path) (a : RegAddr) (data : Word) : State :=
  let k := 64 * a.pos + (a.off - 0x6200) / 8
  let s := s.pairWrite p a data
  { s with
    eng := { s.eng with energy := s.eng.energy.set 0 k 0 }
    power := { s.power with seen := s.power.seen.set 0 k (s.reg64 a) } }

/-- A write of the tile port's own registers, below the queues (R151 to R201). -/
def State.tileLowWrite (s : State) (p : Path) (a : RegAddr) (data : Word) : State :=
  let off := a.off
  if 0x00C0 ≤ off ∧ off < 0x0100 then s.ctxRecordWrite p a.pos (fld (s.reg (tileA a.pos Reg.CTX_SEL)) 5 0) ((off - 0x00C0) / 4) data
  else if off = Reg.PREEMPT_CTRL then s.preemptWrite a.pos data
  else if off = Reg.XLATE_INV then s.xlateInvWrite a.pos data
  else if off = Reg.SCRUB_CTRL then s.scrubWrite a.pos data
  else if off = Reg.TRAY_BANK_CTRL then s.bankCtrlWrite a.pos data
  else if off = Reg.TP_FENCE then s.fenceWrite a.pos data
  else if pairHigh a then s.stageHigh p a data
  else if pairLow a then s.pairWrite p a data
  else s.plainWrite a data

/-- A write of a queue's registers (R156). -/
def State.queueWrite (s : State) (a : RegAddr) (data : Word) : State :=
  let slot := (a.off - 0x0800) / 64
  let q := a.off / 16 % 4
  match a.off % 16 with
  | 0 => s.sqCfgWrite a.pos slot q data
  | 4 => s.sqTailWrite a.pos slot q data
  | 12 => s.sqCtrlWrite a.pos slot q data
  | _ => s

/-- A write of a ring's registers (R202). -/
def State.ringWrite (s : State) (a : RegAddr) (data : Word) : State :=
  let r := (a.off - 0x1800) / 32
  match a.off % 32 with
  | 0 => s.ringCfgWrite a.pos r data
  | 16 => s.ringHeadWrite a.pos r data
  | _ => s.plainWrite a data

/-- A write of the activity registers and swatch units (R432, R440). -/
def State.activityWrite (s : State) (p : Path) (a : RegAddr) (data : Word) : State :=
  if a.off = Reg.TP_SNAP then s.tpSnap a.pos data
  else if 0x6C00 ≤ a.off ∧ a.off < 0x6D00 ∧ a.off % 0x40 = 0 then s.swCtrlWrite a.pos ((a.off - 0x6C00) / 0x40) data
  else if a.off < 0x6900 ∧ a.off % 0x40 = 0x18 then s.rsnWrite a.pos ((a.off - 0x6800) / 0x40) data
  else if pairHigh a then s.stageHigh p a data
  else if a.off < 0x6A00 ∧ pairLow a then
    s.engineWrite a.pos a.off (join64 data (s.staged p { a with off := a.off + 4 }))
  else if pairLow a then s.pairWrite p a data
  else s.plainWrite a data

/-- A write of a tile port's register. -/
def State.tileWrite (s : State) (p : Path) (a : RegAddr) (data : Word) : State :=
  let off := a.off
  if off < 0x0800 then s.tileLowWrite p a data
  else if off < 0x1800 then s.queueWrite a data
  else if off < 0x2000 then s.ringWrite a data
  else if off < 0x6200 then s.plainWrite a data
  else if off < 0x6400 then if pairHigh a then s.stageHigh p a data else s.energyWrite p a data
  else if off < 0x6500 then
    if off % 16 = 0 then s.wellCfgWrite a.pos ((off - 0x6400) / 16) data else s.plainWrite a data
  else s.activityWrite p a data

/-- A tile port's register as it reads, its high-half latch apart; a die of the spine role has no budget port (R394). -/
def State.tileRead (s : State) (a : RegAddr) : Word :=
  let off := a.off
  if 0x0010 ≤ off ∧ off < 0x0020 then s.nbrRead a.pos ((off - 0x0010) / 4)
  else if 0x00C0 ≤ off ∧ off < 0x0100 then s.ctxRecordRead a.pos (fld (s.reg (tileA a.pos Reg.CTX_SEL)) 5 0) ((off - 0x00C0) / 4)
  else if 0x6800 ≤ off ∧ off < 0x6900 ∧ off % 0x40 = 0x1C then s.engStatRead a.pos ((off - 0x6800) / 0x40)
  else if (off = Reg.TILE_BUDGET ∨ off = Reg.TILE_POWER) ∧ Config.spineRole s.config then 0
  else s.reg a

/-! ### Edge ports (region 0x02) -/

/-- Whether a word of an egress port table holds an unused value, 9 to 15 (R312). -/
def egressUnused (w : Word) : Bool := (List.range 8).any fun i => decide (9 ≤ fld w (4 * i + 3) (4 * i))

/-- A write of an edge port's register. -/
def State.edgeWrite (s : State) (a : RegAddr) (data : Word) : State :=
  let side := a.off / 0x4000
  let off := a.off % 0x4000
  let sel := fld (s.reg (edgeA a.pos side Reg.POLICE_SEL)) 7 0
  if off = Reg.POLICE_CFG then s.policeCfgWrite a.pos side data
  else if off = Reg.POLICE_PDROP_CNT then s.setReg (policePdropA a.pos side sel) data
  else if off = Reg.POLICE_MAP then
    s.setReg (policeMapA a.pos side (fld (s.reg (edgeA a.pos side Reg.POLICE_MAP_SEL)) 11 0)) (data &&& 0xFF)
  else if off = Reg.SP_CTRL then s.spCtrlWrite a.pos side data none
  else if off = Reg.SP_PEER_CTRL then s.peerCtrlWrite a.pos side data
  else if off = Reg.SP_CIRC_CFG then s.circCfgWrite a data
  else if 0x0840 ≤ off ∧ off < 0x0940 ∧ off % 16 = 0 then s.circExpWrite a data
  else if 0x1000 ≤ off ∧ off < 0x1660 then (s.plainWrite a data).when (egressUnused data) fun t => t.cfgNote a
  else s.plainWrite a data

/-- MP_STAT as it reads (R472). -/
def State.mpStat (s : State) (pos side : Nat) : Word :=
  let here (k : Nat) : Bool := k / 1024 == halfKey pos side
  BitVec.ofNat 32 (b2n (s.halfInReset pos side) * 2 ^ 31 + (s.mem.quar.filter here).length * 2 ^ 16 +
    (s.mem.reqs.filter fun kv => here kv.1).length)

/-- The register requests outstanding at the host port of a side (R30). -/
def State.hostOut (s : State) (pos side : Nat) : Nat :=
  match s.edgePort pos side with
  | .host k => (s.outstanding k).length
  | _ => 0

/-- An edge port's register as it reads: the registers of a spine port that its group does not form read 0 (R302). -/
def State.edgeRead (s : State) (a : RegAddr) : Word :=
  let side := a.off / 0x4000
  let off := a.off % 0x4000
  let sel := fld (s.reg (edgeA a.pos side Reg.POLICE_SEL)) 7 0
  if off = Reg.POLICE_CFG then s.reg (policeCfgA a.pos side sel)
  else if off = Reg.POLICE_LEVEL then BitVec.ofNat 32 (s.policeLevel a.pos side sel / 16)
  else if off = Reg.POLICE_PDROP_CNT then s.reg (policePdropA a.pos side sel)
  else if off = Reg.POLICE_MAP then
    s.reg (policeMapA a.pos side (fld (s.reg (edgeA a.pos side Reg.POLICE_MAP_SEL)) 11 0))
  else if off = Reg.MP_STAT then s.mpStat a.pos side
  else if off = Reg.HP_STAT then setFld (s.reg a) 3 0 (s.hostOut a.pos side)
  else if 0x0440 ≤ off ∧ off < 0x0540 then
    match s.groupAt a.pos side with
    | some g => if s.spHas g ((off - 0x0440) / 0x20) then s.reg a else 0
    | none => 0
  else s.reg a

/-! ### Die-level blocks (region 0x03) -/

/-- The minimum lead of each state of R135: Gated, Parked, Off. -/
def leadShort (off : Nat) (w : Word) : Bool :=
  if off % 8 = 0 then decide (fld w 15 0 < 9) || decide (fld w 31 16 < 67) else decide (fld w 15 0 < 3007)

/-- Whether FIRST, SECOND and THIRD name the three domains once each (R393). -/
def orderGood (w : Word) : Bool :=
  let a := fld w 5 4; let b := fld w 3 2; let c := fld w 1 0
  decide (a < 3) && decide (b < 3) && decide (c < 3) && a != b && b != c && a != c

/-- An easel core's instruction trace is enabled: it emits a sync record (R444). How many instructions it has retired,
and where a running core stands, is free. -/
def State.insnSync (s : State) (core : Nat) : State :=
  let pc := if s.coreRuns core then Config.easel s.fresh (64 * core) else s.core.regs.get 0 (64 * core)
  let no := if core = s.masterCore then 31 else core
  (s.traceCapture (16 + core) [traceUnit s.capture 2 false 0
    (no + 2 * 2 ^ 5 + (Config.easel s.fresh (64 * core + 63)).toNat % 128 * 2 ^ 7 + pc.toNat / 2 * 2 ^ 14)]).draw

/-- A TRACE_INSN_EN write: bit 16 is the master core. -/
def State.insnEnWrite (s : State) (data : Word) : State :=
  let old := (s.die Reg.TRACE_INSN_EN).toNat
  let s := s.plainWrite (dieA Reg.TRACE_INSN_EN) data
  let rising := setBits 17 ((s.die Reg.TRACE_INSN_EN).toNat &&& (old ^^^ 0x1FFFF))
  rising.foldl (fun t n => let core := if n = 16 then t.masterCore else n
    t.when (decide (core ≤ t.masterCore) && !(n != 16 && core == t.masterCore)) fun t => t.insnSync core) s

/-- A write of a fault source's configuration: unused codes and COOLANT_STOP ignore it (R400, R401). -/
def State.srcWrite (s : State) (a : RegAddr) (data : Word) : State :=
  let c := a.off % 0x400 / 4
  if (defaultSev c).isNone || (decide (a.off < 0x2800) && c == Src.COOLANT_STOP) then s else s.plainWrite a data

/-- The key of the temperature counter that ERR_TAG_SEL names. -/
def State.tagKey (s : State) : Nat := 16 * s.dieF Reg.ERR_TAG_SEL 7 4 + s.dieF Reg.ERR_TAG_SEL 3 0

/-- A write of time, stencil and drain registers (0x0000 to 0x0BFF). -/
def State.dieTimeWrite (s : State) (p : Path) (a : RegAddr) (data : Word) : State :=
  match a.off with
  | 0x0010 => s.dieIdWrite data
  | 0x0400 => s.drainHold data
  | 0x040C => s.routeSwap data
  | 0x0420 => s.cmapCtrlWrite data
  | 0x080C => s.timeCfgWrite data
  | 0x0818 => s.timeSetWrite p data
  | 0x0900 => s.stencilCtrlWrite data
  | 0x0908 => s.stencilEpochWrite p false data
  | 0x090C => s.stencilEpochWrite p true data
  | 0x0918 => s.stencilSwitchArm data
  | 0x0924 => s.stencilDataWrite p data
  | 0x0930 => s.washOwnerWrite data
  | off =>
    if pairHigh a then s.stageHigh p a data
    else if pairLow a then s.pairWrite p a data
    else if 0x0980 ≤ off ∧ off < 0x0B80 then (s.plainWrite a data).when (leadShort off data) fun t => t.cfgNote a
    else s.plainWrite a data

/-- A write of the collectives' registers outside the windows (0x1000 to 0x13FF). -/
def State.dieCollWrite (s : State) (a : RegAddr) (data : Word) : State :=
  let n := s.collSel
  match a.off with
  | 0x1004 => s.setArm n { s.arm n with id := data }
  | 0x1008 => s.setArm n { s.arm n with tree := data &&& 0x000FFFFF }
  | 0x100C => s.setArm n { s.arm n with ctx := data &&& 0x0FFF0FFF }
  | 0x1010 => s.collArmWrite data
  | 0x1024 => s.collAbortWrite data
  | _ => s.plainWrite a data

/-- A write of power, fault, wear and trace registers (0x1800 up). -/
def State.dieHighWrite (s : State) (p : Path) (a : RegAddr) (data : Word) : State :=
  match a.off with
  | 0x1814 => (s.plainWrite a data).when (!orderGood data) fun t => t.cfgNote a
  | 0x190C => s.jobECtrlWrite data
  | 0x1910 => let s := s.pairWrite p a data; { s with eng := { s.eng with energyDie := 0 } }
  | 0x200C => s.errPinWrite data
  | 0x3024 => s.indCfgWrite data
  | 0x3034 => s.wearHistWrite data
  | 0x3108 => { s with flt := { s.flt with tags := s.flt.tags.set 0 s.tagKey data } }
  | 0x3110 => s.errEntrySelWrite data
  | 0x3114 => { s with flt := { s.flt with entryCnt := s.flt.entryCnt.set 0 (s.dieF Reg.ERR_ENTRY_SEL 7 0) data } }
  | 0x3200 => s.soakCtrlWrite data
  | 0x8000 => s.traceCtrlWrite data
  | 0x8010 => s.insnEnWrite data
  | 0x8018 => s.traceMark data
  | off =>
    if 0x2400 ≤ off ∧ off < 0x3000 then s.srcWrite a data
    else if pairHigh a then s.stageHigh p a data
    else if pairLow a then s.pairWrite p a data
    else s.plainWrite a data

/-- A write of a die-level register, the canvas loader's own apart. -/
def State.dieWrite (s : State) (p : Path) (a : RegAddr) (data : Word) : State :=
  match windowOf a.off with
  | some (sel, f) => s.windowWrite a.off sel f data
  | none =>
    if a.off < 0x0C00 then s.dieTimeWrite p a data
    else if a.off < 0x1400 then s.dieCollWrite a data
    else if a.off < 0x1800 then s.plainWrite a data
    else s.dieHighWrite p a data

/-- Word `w` of the log record that FAULT_LOG_SEL names; 0 where nothing is logged there. -/
def State.logRead (s : State) (w : Nat) : Word :=
  match s.flt.log.find? (s.dieF Reg.FAULT_LOG_SEL 9 0) with
  | some l => s.logWord l w
  | none => 0

/-- A die-level register as it reads, its latch and the effects of its read apart. -/
def State.dieValue (s : State) (off : Nat) : Word :=
  match off with
  | 0x0404 => setFld (s.die off) 5 0 s.emptyBits
  | 0x0800 => lo32 s.ntNat
  | 0x0804 => hi32 s.ntNat
  | 0x0924 => lo32 s.entrySelected.toNat
  | 0x0928 => hi32 s.entrySelected.toNat
  | 0x1004 => (s.arm s.collSel).id
  | 0x1008 => (s.arm s.collSel).tree
  | 0x100C => (s.arm s.collSel).ctx
  | 0x1010 => BitVec.ofNat 32 (b2n (s.arm s.collSel).valid * 2 ^ 31)
  | 0x1904 => lo32 (s.jobEnergy.getD 0)
  | 0x1908 => hi32 (s.jobEnergy.getD 0)
  | 0x190C => setBit (s.die off) 29 s.jobEnergy.isSome
  | 0x2004 => setFld (setBit (s.die off) 30 s.mergeMode) 4 0 s.flt.queue.length
  | 0x3024 => s.indCfg (s.dieF Reg.WEAR_IND_SEL 2 0)
  | 0x3108 => s.flt.tags.get 0 s.tagKey
  | 0x3114 => s.flt.entryCnt.get 0 (s.dieF Reg.ERR_ENTRY_SEL 7 0)
  | off =>
    if 0x2080 ≤ off ∧ off < 0x20B0 then s.logRead ((off - 0x2080) / 4)
    else if [Reg.WEAR_SCORE, Reg.WEAR_EOL, Reg.WEAR_EOL_LO, Reg.WEAR_EOL_HI, Reg.WEAR_HIST_DATA].contains off then s.wearRead off
    else match windowOf off with
      | some (sel, f) => s.windowRead off sel f
      | none => s.die off

/-! ### Any register -/

/-- The tray offset of the region 0x04 aperture: a BASE at or above the tray size acts as 0 (R201). -/
def State.aperture (s : State) (pos : Nat) : Nat :=
  let b := 65536 * fld (s.reg (tileA pos Reg.TRAY_APERTURE)) 3 0
  if b < s.traySize then b else 0

/-- A register write takes effect: region 0x04 writes 4 B of a tray (R8). The canvas loader's own registers keep their
access types here. -/
def State.regEffect (s : State) (p : Path) (a : RegAddr) (data : Word) : State :=
  match a.region with
  | 0 => s.routerWrite a data
  | 1 => s.tileWrite p a data
  | 2 => s.edgeWrite a data
  | 3 => s.dieWrite p a data
  | 4 => (s.writeBytesIn a.pos (s.aperture a.pos + a.off) swNone 0 (bytesOf 4 data.toNat)).2
  | _ => s

/-- A register's value before R10's latch. -/
def State.regValue (s : State) (a : RegAddr) : Word :=
  match a.region with
  | 0 => s.routerRead a
  | 1 => s.tileRead a
  | 2 => s.edgeRead a
  | 3 => s.dieValue a.off
  | _ => 0

/-- A read of 4 B of a tray through region 0x04 (R8, R198). -/
def State.trayRegRead (s : State) (a : RegAddr) : Word × State :=
  let off := s.aperture a.pos + a.off
  let (w, _, s) := s.readWord a.pos (off / 32)
  (lo32 (w.toNat >>> (8 * (off % 32))), s)

/-- A register read on a path: a low half latches its high half (R10); a read of STENCIL_DATA_LO and of TRACE_RD_DATA_3
advances its index (R142, R450). -/
def State.regRead (s : State) (p : Path) (a : RegAddr) : Word × State :=
  if a.region = 4 then s.trayRegRead a
  else if a = dieA Reg.STENCIL_DATA_LO then s.stencilDataRead p
  else if a.region = 3 ∧ 0x8104 ≤ a.off ∧ a.off < 0x8114 then s.traceRead ((a.off - 0x8104) / 4)
  else if unused then (0, s)
  else
    let v := s.regValue a
    if pairLow a then (v, s.latchHigh p { a with off := a.off + 4 } (s.regValue { a with off := a.off + 4 }))
    else if pairHigh a then (s.latched p a v, s)
    else (v, s)
where
  /-- A register of an unused fault source reads 0 (R400). -/
  unused : Bool := a.region == 3 && decide (0x2400 ≤ a.off) && decide (a.off < 0x3000) && (defaultSev (a.off % 0x400 / 4)).isNone

end Sys2Proof.Machine
end

