-- ==== Sys2Proof/Machine/Canvas.lean ====
section
/-! DEFINITION. The canvas loader (R337 to R355): reading an image, checking and applying each record, merging glazes
and claims, and undoing a copy that fails. Every error is a code of R361 with an offset in 16 B units. -/
namespace Sys2Proof.Machine

/-- A part of the loader's work: it goes on, or the copy fails with a code and an offset. -/
abbrev Load := Except (Nat × Nat) State

/-- Fails with a code at an offset unless a condition holds. -/
def need (c : Bool) (code off : Nat) (s : State) : Load := if c then .ok s else .error (code, off)

/-- `n` little-endian bytes at an offset. -/
def leAt (b : List Byte) (off n : Nat) : Nat := ofBytes ((b.drop off).take n)

/-! ### The header (R340) -/

/-- What is wrong with a header: a code of R361, 0 for none. -/
def State.headerErr (s : State) (b : List Byte) : Nat :=
  let len := leAt b 16 4
  if leAt b 0 4 ≠ 0x564E434B then 2
  else if leAt b 60 4 ≠ crc32c (b.take 60) then 3
  else if leAt b 4 1 ≠ 1 ∨ leAt b 8 4 / 256 ≠ 0x2F1703 then 4
  else if leAt b 12 4 ≠ s.config.toNat then 5
  else if 8 < leAt b 24 1 ∨ 2 < leAt b 25 1 ∨ len % 16 ≠ 0 ∨ len < 96 then 3
  else if Config.flashHalf < len then 9
  else 0

/-- A value of which 0 means a default (R340). -/
def orDefault (v d : Nat) : Nat := if v = 0 then d else v

/-- The header is taken: 64 B (R338, R340). -/
def State.takeHeader (s : State) : Load :=
  let b := s.load.image.take 64
  match s.headerErr b with
  | 0 =>
    let div := max 40 (orDefault (leAt b 27 1) 76)
    let s := s.setDie Reg.XSPI_STAT (BitVec.ofNat 32 (b2n Config.flashOctal * 2 ^ 8 + div))
    .ok { s with load := { s.load with
      place := 64
      len := leAt b 16 4
      count := leAt b 24 1
      policy := leAt b 25 1
      defaults := leAt b 26 1
      spineMs := orDefault (leAt b 28 2) 100
      timeMs := orDefault (leAt b 30 2) 100 } }
  | code => .error (code, 0)

/-! ### Glazes and the order of records (R342, R343, R353, R354) -/

/-- A record of the image (R341). -/
structure RecHead where
  ty     : Nat
  glaze  : Nat
  len    : Nat
  target : Nat
  body   : List Byte
  place  : Nat        -- its offset in the image
deriving DecidableEq, Repr

/-- The record's offset in 16 B units. -/
def RecHead.at16 (r : RecHead) : Nat := r.place / 16
/-- The offset of a byte of its payload in 16 B units. -/
def RecHead.at (r : RecHead) (byte : Nat) : Nat := (r.place + 16 + byte) / 16
/-- The layer of a record: 0 the base, glaze g is g + 1. -/
def RecHead.layer (r : RecHead) : Nat := if r.glaze = 255 then 0 else r.glaze + 1

/-- Whether a glaze is RUNTIME. -/
def State.glazeRuntime (s : State) (g : Nat) : Bool :=
  match s.load.descs.find? g with
  | some d => d.runtime
  | none => false

/-- Where a type may stand (R343). -/
def State.typeInPlace (s : State) (r : RecHead) : Bool :=
  if r.glaze = 255 then true
  else if 8 ≤ r.glaze ∨ s.load.count ≤ r.glaze then false
  else match r.ty with
    | 2 | 5 => !s.glazeRuntime r.glaze
    | 6 | 7 | 8 | 9 => true
    | _ => false

/-- The glaze set that the policy gives (R354): none while the host has not answered. -/
def State.policySet (s : State) : Option Nat :=
  match s.load.policy with
  | 0 => some s.load.defaults
  | 1 => some (if s.load.glazeSel.toNat.testBit 3 then 2 ^ (s.load.glazeSel.toNat % 8) else s.load.defaults)
  | _ => s.load.set

/-- The end of the base records (R353, R354): every glaze has its descriptor and the set is fixed. -/
def State.fixSet (s : State) (off : Nat) : Load :=
  if (List.range s.load.count).any fun g => (s.load.descs.find? g).isNone then .error (0x11, off)
  else match s.policySet with
    | none => .ok (s.setDieF Reg.BRINGUP_STAT 20 20 1)
    | some m => if 2 ^ s.load.count ≤ m then .error (0x11, off) else .ok { s with load := { s.load with set := some m } }

/-- Whether a layer is applied: the base, and the glazes of the set. -/
def State.layerOn (s : State) (layer : Nat) : Bool :=
  layer == 0 || (match s.load.set with | some m => m.testBit (layer - 1) | none => false)

/-- GLAZE_DESC (R353). -/
def State.loadDesc (s : State) (r : RecHead) : Load :=
  if r.len ≠ 32 then .error (7, r.at16)
  else if s.load.count ≤ r.target ∨ (s.load.descs.find? r.target).isSome then .error (0x11, r.at16)
  else
    let f := leAt r.body 0 1
    if f.testBit 0 ∧ f.testBit 1 then .error (0x11, r.at16)
    else .ok { s with load := { s.load with
      descs := s.load.descs.put r.target ⟨f.testBit 0, f.testBit 1, bitsOf (leAt r.body 1 1) 5 0⟩ } }

/-! ### Claims (R350, R351, R355) -/

/-- The units of a resource (R350). -/
def State.resourceSize (s : State) (resource : Nat) : Nat :=
  match resource with
  | 1 => 32
  | 2 => 64
  | 3 => s.traySize / 4096
  | 4 => 8
  | _ => 6

/-- Whether a claim entry names used values and units of its resource (R350). -/
def State.claimGood (s : State) (c : Claim) (position : Nat) : Bool :=
  decide (1 ≤ c.feature) && decide (c.feature ≤ 10) && decide (1 ≤ c.resource) && decide (c.resource ≤ 5) &&
  decide (1 ≤ c.count) && decide (c.first + c.count ≤ s.resourceSize c.resource) &&
  (c.resource != 4 || c.first == 0) && (if c.resource = 3 then s.inMesh c.pos else position == 0)

/-- The claim entry at a byte of a payload. -/
def RecHead.claim (r : RecHead) (byte : Nat) : Claim :=
  let w := leAt r.body (byte + 4) 4
  { feature := leAt r.body byte 1
    resource := leAt r.body (byte + 1) 1
    winner := (leAt r.body (byte + 2) 1).testBit 0
    pos := if leAt r.body (byte + 1) 1 = 3 then mkPos (bitsOf w 25 21) (bitsOf w 20 16) else 0
    first := leAt r.body (byte + 8) 4
    count := leAt r.body (byte + 12) 4
    place := r.at byte }

/-- One claim entry: added, or (REMOVE) deleting the earlier ones of its feature, resource and position (R355). -/
def State.takeClaim (s : State) (r : RecHead) (byte : Nat) : Load :=
  let c := r.claim byte
  let remove := (leAt r.body (byte + 2) 1).testBit 1
  if !s.claimGood c (leAt r.body (byte + 4) 4) || (remove && r.layer == 0) then .error (7, r.at byte)
  else if remove then .ok { s with load := { s.load with claims := s.load.claims.filter fun d =>
    !(d.feature == c.feature && d.resource == c.resource && d.pos == c.pos) } }
  else .ok { s with load := { s.load with claims := s.load.claims ++ [c] } }

/-- Whether two entries conflict with no winner between them (R351); `overlap` says that the sketch shares sum above 8. -/
def Claim.clash (overlap : Bool) (a b : Claim) : Bool :=
  !(a.beats b) && !(b.beats a) &&
  (if a.resource = 4 ∧ b.resource = 4 then overlap
   else a.feature != b.feature && a.sameKind b && decide (a.first < b.first + b.count) && decide (b.first < a.first + a.count))

/-- The first entry that clashes with an earlier one. -/
def firstClash (overlap : Bool) : (earlier later : List Claim) → Option Claim
  | _, [] => none
  | es, c :: cs => if es.any fun e => e.clash overlap c then some c else firstClash overlap (es ++ [c]) cs

/-- CLAIMS (R350, R351). -/
def State.loadClaims (s : State) (r : RecHead) : Load :=
  if r.target ≠ 0 ∨ r.len % 16 ≠ 0 then .error (7, r.at16)
  else match (List.range (r.len / 16)).foldlM (fun t i => State.takeClaim t r (16 * i)) s with
    | .error e => .error e
    | .ok t =>
      let shares := (t.load.claims.filter fun c => c.resource == 4).foldl (fun n c => n + c.count) 0
      match firstClash (decide (8 < shares)) [] t.load.claims with
      | some c => .error (0xD, c.place)
      | none => .ok t

/-! ### The column map and firmware (R346, R347) -/

/-- COLMAP (R48, R307, R346). -/
def State.loadColmap (s : State) (r : RecHead) : Load :=
  let rows := Config.rows s.config
  let mask (i : Nat) : Nat := leAt r.body (4 * i) 4
  if r.target ≠ 0 ∨ r.len ≠ 4 * rows then .error (7, r.at16)
  else match (List.range rows).find? fun i =>
      decide (2 ^ Config.cols s.config ≤ mask i) || popCount 32 (mask i) != Config.spares s.config with
    | some i => .error (0xA, r.at (4 * i))
    | none =>
      let s := (List.range rows).foldl (fun t i => t.setDie (Reg.COLMAP_SPARE i) (BitVec.ofNat 32 (mask i))) s
      .ok { s with load := { s.load with colmap := true } }

/-- The default map of an instance (R19, R346): the middle columns of every row. -/
def defaultSpares (c : Word) : Nat :=
  let k := Config.cols c
  match Config.spares c with
  | 0 => 0
  | 1 => 2 ^ (k / 2)
  | _ => 2 ^ (k / 2 - 1) + 2 ^ (k / 2)

/-- A canvas without a COLMAP record takes the default map (R346). -/
def State.defaultColmap (s : State) : State :=
  if s.load.colmap then s
  else (List.range (Config.rows s.config)).foldl (fun t i =>
    t.setDie (Reg.COLMAP_SPARE i) (BitVec.ofNat 32 (defaultSpares s.config))) s

/-- FIRMWARE (R37, R347): an image for an easel core's instruction or data memory. -/
def State.loadFirmware (s : State) (r : RecHead) : Load :=
  let who := r.target % 256
  let core := if who = 255 then s.masterCore else who
  let off := r.target / 4096
  if r.target / 512 % 8 ≠ 0 ∨ off % 4 ≠ 0 then .error (7, r.at16)
  else if who ≠ 255 ∧ s.masterCore ≤ who then .error (0xF, r.at16)
  else if (if who = 255 then 131072 else 32768) < off + r.len then .error (0xF, r.at16)
  else
    let base := 2 ^ 20 * core + 2 ^ 19 * (r.target / 256 % 2) + off
    let mem := (r.body.foldl (fun (m : Store Byte × Nat) b => (m.1.set 0 m.2 b, m.2 + 1)) (s.core.mem, base)).1
    .ok { s with core := { s.core with mem := mem, fw := if s.core.fw.contains core then s.core.fw else s.core.fw ++ [core] } }

/-! ### Register writes (R344) -/

/-- Registers that a write reaches although they hold no writable bit: ARB_COMMIT, TP_SNAP, TRACE_MARK. -/
def writeOnly (a : RegAddr) : Bool :=
  (a.region == 0 && a.off == Reg.ARB_COMMIT) || (a.region == 1 && a.off == Reg.TP_SNAP) || (a.region == 3 && a.off == Reg.TRACE_MARK)

/-- The registers that a canvas may not write through REG_WRITE (R344), the unmapped and RO ones apart. -/
def canvasBanned (a : RegAddr) (data : Word) : Bool :=
  let o := a.off
  let within (lo hi : Nat) : Bool := decide (lo ≤ o) && decide (o < hi)
  match a.region with
  | 0 => within 0x4000 0x5300 || within 0x6000 0x7300 || within 0x7400 0x7640
  | 1 => o == Reg.PREEMPT_CTRL || o == Reg.XLATE_INV || o == Reg.SCRUB_CTRL
  | 2 => false
  | 3 =>
    within 0x1400 0x1500 || within 0x0100 0x0180 || o == Reg.DRAIN_CTRL || o == Reg.ROUTE_SWAP || within 0x0908 0x091C ||
    within 0x0920 0x092C || o == Reg.TIME_SET_LO || o == Reg.TIME_SET_HI || within 0x1004 0x1018 || within 0x1020 0x1028 ||
    (o == Reg.STENCIL_CTRL && bit data 0)
  | _ => true

/-- Whether a canvas may write a register. -/
def State.canvasMayWrite (s : State) (a : RegAddr) (data : Word) : Bool :=
  s.mapped a && !canvasBanned a data &&
  (match specOf a with
   | some r => r.rw != 0 || r.w1c != 0 || r.w1s != 0 || writeOnly a
   | none => false)

/-- The register that holds what a write to an address stores: that behind a window, or the address's own. -/
def State.storageOf (s : State) (a : RegAddr) : RegAddr :=
  let side := a.off / 0x4000
  let sel := fld (s.reg (edgeA a.pos side Reg.POLICE_SEL)) 7 0
  match a.region with
  | 1 =>
    if 0x00C0 ≤ a.off ∧ a.off < 0x0100 then
      ⟨64, a.pos, Reg.W_CTX ((a.off - 0x00C0) / 4) (fld (s.reg (tileA a.pos Reg.CTX_SEL)) 5 0)⟩
    else a
  | 2 =>
    if a.off % 0x4000 = Reg.POLICE_CFG then policeCfgA a.pos side sel
    else if a.off % 0x4000 = Reg.POLICE_PDROP_CNT then policePdropA a.pos side sel
    else if a.off % 0x4000 = Reg.POLICE_MAP then policeMapA a.pos side (fld (s.reg (edgeA a.pos side Reg.POLICE_MAP_SEL)) 11 0)
    else a
  | 3 =>
    match windowOf a.off with
    | some (sel, f) => (s.windowAt sel f).getD a
    | none => a
  | _ => a

/-- A canvas write takes effect as from the host; a spine group starts with the SPINE phase (R357). -/
def State.canvasWrite (s : State) (a : RegAddr) (data : Word) : State :=
  let key := (s.storageOf a).key
  let s := { s with load := { s.load with wrote := if s.load.wrote.contains key then s.load.wrote else key :: s.load.wrote } }
  if a.region = 2 ∧ a.off % 0x4000 = Reg.SP_CTRL then s.plainWrite a data else s.regEffect .canvas a data

/-- One pair of a REG_WRITE record (R344, R346). -/
def State.loadPair (s : State) (r : RecHead) (i : Nat) : Load :=
  let a := RegAddr.ofWord (BitVec.ofNat 32 (leAt r.body (8 * i) 4))
  let data := BitVec.ofNat 32 (leAt r.body (8 * i + 4) 4)
  if !s.canvasMayWrite a data then .error (0xE, r.at (8 * i))
  else if a.region = 2 ∧ a.off % 0x4000 = Reg.SP_CIRC_CFG ∧ bit data 31 ∧
      fld (s.reg (edgeA a.pos (a.off / 0x4000) Reg.SP_CTRL)) 25 24 ≠ 3 then .error (0x12, r.at (8 * i))
  else .ok (s.canvasWrite a data)

/-- REG_WRITE (R344). -/
def State.loadRegs (s : State) (r : RecHead) : Load :=
  if r.target ≠ 0 ∨ r.len % 8 ≠ 0 then .error (7, r.at16)
  else (List.range (r.len / 8)).foldlM (fun t i => State.loadPair t r i) s

/-! ### Routes and stencils (R345) -/

/-- The position that a record's TARGET names. -/
def RecHead.pos (r : RecHead) : Nat := mkPos (bitsOf r.target 25 21) (bitsOf r.target 20 16)
/-- ALT of a record's TARGET. -/
def RecHead.alt (r : RecHead) : Bool := r.target.testBit 15

/-- Marks a register key as written. -/
def State.mark (s : State) (a : RegAddr) : State := { s with load := { s.load with wrote := a.key :: s.load.wrote } }

/-- One route entry: written, and checked as its router does (R80). -/
def State.loadEntry (s : State) (r : RecHead) (bank i : Nat) : Load :=
  let data := BitVec.ofNat 32 (leAt r.body (4 * i) 4)
  let index := r.target % 2048 + i
  let s := (s.mark (entryA r.pos bank index)).plainWrite (entryA r.pos bank index) data
  if bit data 16 && s.entryInvalid r.pos bank index (s.entry r.pos bank index) then .error (0xB, r.at (4 * i)) else .ok s

/-- ROUTE (R345). -/
def State.loadRoute (s : State) (r : RecHead) : Load :=
  if !s.inMesh r.pos || decide (r.target / 2 ^ 26 ≠ 0) || decide (bitsOf r.target 14 11 ≠ 0) || r.len % 4 != 0 ||
      decide (1216 < r.target % 2048 + r.len / 4) then .error (7, r.at16)
  else (List.range (r.len / 4)).foldlM (fun t i => State.loadEntry t r (if r.alt then 1 - s.routeBank else s.routeBank) i) s

/-- One spray set: written, and checked as its router does (R81). -/
def State.loadSet (s : State) (r : RecHead) (bank i : Nat) : Load :=
  let data := BitVec.ofNat 32 (leAt r.body (4 * i) 4)
  let a := sprayA r.pos bank (r.target % 64 + i)
  if s.sprayInvalid r.pos data then .error (0xB, r.at (4 * i)) else .ok ((s.mark a).plainWrite a data)

/-- SPRAY (R345). -/
def State.loadSpray (s : State) (r : RecHead) : Load :=
  if !s.inMesh r.pos || decide (r.target / 2 ^ 26 ≠ 0) || decide (bitsOf r.target 14 6 ≠ 0) || r.len % 4 != 0 ||
      decide (64 < r.target % 64 + r.len / 4) then .error (7, r.at16)
  else (List.range (r.len / 4)).foldlM (fun t i => State.loadSet t r (if r.alt then 1 - s.routeBank else s.routeBank) i) s

/-- Whether a POINT is used at a position (R127). -/
def pointUsed (pos point : Nat) : Bool :=
  decide (point ≤ 12) || point == 14 || (decide (16 ≤ point) && decide (point ≤ 19)) || (point == 31 && pos == 0)

/-- Whether an entry passes the loader's checks (R345). -/
def State.entryGood (s : State) (point index : Nat) (e : BitVec 64) : Bool :=
  (index == 0 || entDur e != 0) && bitsOf e.toNat 63 43 == 0 && !e.toNat.testBit 23 &&
  (point == 31 || bitsOf e.toNat 42 32 == 0) && (Config.spineRole s.config || !e.toNat.testBit 21)

/-- One stencil entry. -/
def State.loadStencilEntry (s : State) (r : RecHead) (bank i : Nat) : Load :=
  let e := BitVec.ofNat 64 (leAt r.body (8 * i) 8)
  let point := bitsOf r.target 12 8
  let index := r.target % 256 + i
  let key := stencilKey bank r.pos point index
  if s.entryGood point index e then
    .ok { s with
      time := { s.time with stencils := s.time.stencils.set 0 key e }
      load := { s.load with stencils := key :: s.load.stencils } }
  else .error (0xC, r.at (8 * i))

/-- STENCIL (R345). -/
def State.loadStencil (s : State) (r : RecHead) : Load :=
  if !s.inMesh r.pos || decide (r.target / 2 ^ 26 ≠ 0) || decide (bitsOf r.target 14 13 ≠ 0) || r.len % 8 != 0 ||
      decide (256 < r.target % 256 + r.len / 8) then .error (7, r.at16)
  else if !pointUsed r.pos (bitsOf r.target 12 8) then .error (0xC, r.at16)
  else (List.range (r.len / 8)).foldlM (fun t i =>
    State.loadStencilEntry t r (if r.alt then 1 - s.stencilBank else s.stencilBank) i) s

/-! ### Collective records (R348) -/

/-- The 4 KiB units of the trays that COLL_STORE holds, in claim order: position and offset. -/
def State.storeUnits (s : State) : List (Nat × Nat) :=
  (s.load.claims.filter fun c => c.feature == 8 && c.resource == 3).flatMap fun c =>
    (((List.range c.count).map (c.first + ·)).filter fun u => s.claimHolds c u).map fun u => (c.pos, 4096 * u)

/-- The pieces of the store from an offset: position, tray offset and bytes. -/
def storePieces (units : List (Nat × Nat)) (off n : Nat) : List (Nat × Nat × Nat) :=
  (List.range units.length).filterMap fun i =>
    match units[i]? with
    | none => none
    | some u =>
      let lo := max off (4096 * i)
      let hi := min (off + n) (4096 * i + 4096)
      if lo < hi then some (u.1, u.2 + (lo - 4096 * i), hi - lo) else none

/-- The positions that a record's entries name. -/
def CollRec.positions (c : CollRec) : List Nat :=
  (c.subs.flatMap fun t => t.reds.map (·.pos) ++ t.roles.map (·.pos)) ++ c.bars.map (·.pos)

/-- The words of a run of bytes, each written in its bank; a bank that is Off loses its own (R365). -/
def State.storeWords (s : State) (pos k : Nat) : List DataWord → State
  | [] => s
  | w :: ws => (if s.bankOff pos (bankOf k) then s else s.putWord pos k w).storeWords pos (k + 1) ws

/-- The bytes of a record copied into its pieces. -/
def State.storePiecesOf (s : State) (b : List Byte) : List (Nat × Nat × Nat) → State
  | [] => s
  | f :: fs =>
    (s.storeWords f.1 (f.2.1 / 32) (bytesWords (ceilDiv f.2.2 32) (b.take f.2.2))).storePiecesOf (b.drop f.2.2) fs

/-- A collective record copied into the store, at the next 32 B boundary. -/
def State.storeRecord (s : State) (index : Nat) (b : List Byte) : Option State :=
  let units := s.storeUnits
  let at' := s.load.storeAt
  if 4096 * units.length < at' + b.length then none
  else
    let ps := storePieces units at' b.length
    let s := s.storePiecesOf b ps
    some { s with
      eng := { s.eng with records := s.eng.records.put index ps }
      load := { s.load with storeAt := at' + 32 * ceilDiv b.length 32 } }

/-- Whether a payload is a record that this die can take (R348). -/
def State.collGood (s : State) (b : List Byte) : Bool :=
  match parseRecord b with
  | none => false
  | some c => c.positions.all s.inMesh && (Config.spineRole s.config || c.subs.all fun t => t.roles.isEmpty)

/-- COLLECTIVE (R348). -/
def State.loadColl (s : State) (r : RecHead) : Load :=
  let mark := 2 ^ 32 * r.layer + r.target
  if s.load.colls.contains mark || !s.collGood r.body then .error (0x10, r.at16)
  else match s.storeRecord r.target r.body with
    | none => .error (0x10, r.at16)
    | some t => .ok { t with load := { t.load with colls := mark :: t.load.colls } }

/-! ### One record -/

/-- The bytes of a record in the image, header and padding. -/
def recBytes (len : Nat) : Nat := 16 + (len + 15) / 16 * 16

/-- The record at an offset of an image. -/
def imageRecord (image : List Byte) (place : Nat) : RecHead :=
  let b := image.drop place
  { ty := leAt b 0 2, glaze := leAt b 2 1, len := leAt b 4 4, target := leAt b 8 4
    body := (b.drop 16).take (leAt b 4 4), place := place }

/-- Whether a record's CRC is right (R341). -/
def recordCrcOk (image : List Byte) (place : Nat) : Bool :=
  let b := image.drop place
  leAt b 12 4 == crc32c (b.take 12 ++ (b.drop 16).take (leAt b 4 4))

/-- The effect of a record by its type. -/
def State.applyRecord (s : State) (r : RecHead) : Load :=
  match r.ty with
  | 1 => s.loadDesc r
  | 2 => s.loadClaims r
  | 3 => s.loadColmap r
  | 4 => s.loadFirmware r
  | 5 => s.loadRegs r
  | 6 => s.loadRoute r
  | 7 => s.loadSpray r
  | 8 => s.loadStencil r
  | _ => s.loadColl r

/-- END (R343, R349): the last record of the image, with the CRC of everything before it. -/
def State.loadEnd (s : State) (r : RecHead) : Load :=
  if r.glaze ≠ 255 then .error (0x11, r.at16)
  else if r.len ≠ 4 ∨ r.target ≠ 0 then .error (7, r.at16)
  else if s.load.len ≠ r.place + 32 then .error (9, r.at16)
  else if leAt r.body 0 4 ≠ crc32c (s.load.image.take r.place) then .error (8, r.at16)
  else .ok s

/-- A record is checked and applied; END leaves the place at the image's end (R338, R342, R349). -/
def State.takeRecord (s : State) (r : RecHead) : Load :=
  let key := 65536 * r.layer + r.ty
  let past (t : State) : State := { t with load := { t.load with place := r.place + recBytes r.len } }
  if !recordCrcOk s.load.image r.place then .error (6, r.at16)
  else if r.len % 4 ≠ 0 ∨ (8 ≤ r.glaze ∧ r.glaze ≠ 255) ∨ ((r.ty = 0 ∨ 9 < r.ty) ∧ r.ty ≠ 0xFFFF) then .error (7, r.at16)
  else if r.ty = 0xFFFF then (s.loadEnd r).map past
  else if key < s.load.order then .error (7, r.at16)
  else if !s.typeInPlace r then .error (0x11, r.at16)
  else
    let s := { s with load := { s.load with order := key } }
    if s.layerOn r.layer then (s.applyRecord r).map past else .ok (past s)

/-! ### The end of a copy (R338, R339) -/

/-- The cell of a key. -/
def RegAddr.ofKey (k : Nat) : RegAddr := ⟨k / 2 ^ 26, k / 2 ^ 16 % 1024, k % 2 ^ 16⟩

/-- A register is returned to its reset value, with what writing that value does. -/
def State.undoReg (s : State) (k : Nat) : State :=
  let a := RegAddr.ofKey k
  let s := if a.region < 4 then s.regEffect .canvas a (resetOf a) else s
  s.setReg a (resetOf a)

/-- Everything that a copy wrote returns to its reset value (R339). -/
def State.undoCopy (s : State) : State :=
  let ks := s.load.wrote
  let s := { s with stage := s.stage.keep fun k => k / 2 ^ 32 != pathCode .canvas }
  let s := ks.foldl State.undoReg s
  let s := (List.range (Config.rows s.config)).foldl (fun t i => t.setDie (Reg.COLMAP_SPARE i) 0) s
  let fs := s.eng.records.flatMap (·.2)
  let s := fs.foldl (fun t f => t.storeWords f.1 (f.2.1 / 32) (List.replicate (ceilDiv f.2.2 32) 0)) s
  let hit (off : Nat) : Bool := ks.contains (dieA off).key
  { s with
    arbLive := s.arbLive.keep fun k => !ks.contains k
    time := { s.time with stencils := s.time.stencils.keep fun k => !s.load.stencils.contains k }
    eng := { s.eng with records := [] }
    core := { s.core with mem := [], fw := [] }
    flt := { s.flt with
      indCfg := if hit Reg.WEAR_IND_CFG then [] else s.flt.indCfg
      tags := if hit 0x3108 then [] else s.flt.tags
      entryCnt := if hit 0x3114 then [] else s.flt.entryCnt }
    load := { Loader.empty with glazeSel := s.load.glazeSel, fuses := s.load.fuses, since := s.load.since } }

/-- A new phase begins (R330, R331): its entry time is latched; MODE is START_UP to TIME and RECOVERY from NO_CANVAS. -/
def State.enterPhase (s : State) (n : Nat) : State :=
  let s := s.setDieF Reg.BRINGUP_STAT 31 28 n
  let s := s.setDieF Reg.BRINGUP_STAT 27 25 (if 10 ≤ n then 3 else 0)
  let s := s.setReg64 (dieA (Reg.BRINGUP_NT_LO n)) (s.ntNat / 2 * 2 + 1)
  { s with load := { s.load with since := s.time.edges } }

/-- Bring-up stops on an error (R330). -/
def State.haltBringup (s : State) (err : Nat) : State := (s.enterPhase 11).setDieF Reg.BRINGUP_STAT 7 0 err

/-- NO_CANVAS (R360): every panel is Off, the tile clients stay in reset, time runs FREE and no core runs. -/
def State.noCanvas (s : State) : State :=
  let s := (s.enterPhase 10).setDieF Reg.BRINGUP_STAT 7 0 0x23
  let s := (List.range (Config.panels s.config)).foldl (fun t n => t.setDieF (Reg.PANEL_STAT n) 31 30 3) s
  { s.setTimeState 0 with release := false, easel := coresIdle s.config }

/-- BRINGUP_STAT.COPY: the copy being read or in service. -/
def State.copyNow (s : State) : Nat := s.dieF Reg.BRINGUP_STAT 24 24

/-- A copy fails (R338, R339, R361): copy A leaves copy B to be read; with copy B the die enters NO_CANVAS. -/
def State.failCopy (s : State) (e : Nat × Nat) : State :=
  let copy := s.copyNow
  let w := e.1 % 256 * 2 ^ 24 + e.2 % 2 ^ 24
  let s := s.setDie (if copy = 0 then Reg.LOAD_ERR_A else Reg.LOAD_ERR_B) (BitVec.ofNat 32 w)
  let s := (s.raiseDie Src.CANVAS_LOAD copy w).undoCopy
  let s := s.setDieF Reg.BRINGUP_STAT 20 20 0
  if copy = 0 then s.setDieF Reg.BRINGUP_STAT 24 24 1 else s.noCanvas

/-- A copy has loaded: its set is in service and FIRMWARE begins (R330, R338, R364). -/
def State.endCopy (s : State) : State :=
  let s := s.defaultColmap
  let s := s.setDie Reg.CANVAS_ID (BitVec.ofNat 32 (leAt s.load.image 20 4))
  let s := s.setDieF Reg.BRINGUP_STAT 15 8 (s.load.set.getD 0)
  { s with load := { s.load with reading := false } }.enterPhase 6

/-- Whether the loader waits for the host's glaze set (R354). -/
def State.glazeWait (s : State) : Bool := bit (s.die Reg.BRINGUP_STAT) 20

/-- The next thing the loader does with the bytes it has: the header, a record, or nothing yet. -/
def State.loadStep (s : State) : Load :=
  let l := s.load
  let have' := l.image.length
  if l.place = 0 then (if 64 ≤ have' then s.takeHeader else .ok s)
  else if l.len < l.place + 16 then .error (9, l.place / 16)
  else if have' < l.place + 16 then .ok s
  else
    let r := imageRecord l.image l.place
    if l.len < l.place + recBytes r.len then .error (9, l.place / 16)
    else if have' < l.place + recBytes r.len then .ok s
    else if l.set.isNone ∧ (r.layer ≠ 0 ∨ r.ty = 0xFFFF) ∧ recordCrcOk l.image l.place then
      match s.fixSet (l.place / 16) with
      | .error e => .error e
      | .ok t => if t.glazeWait then .ok t else t.takeRecord r
    else s.takeRecord r

/-- The loader works on what it has read, to the END record or the end of the bytes; a copy that reaches IMAGE_LEN
without an END fails with LENGTH (R349). -/
def State.loadRun (s : State) : (fuel : Nat) → State
  | 0 => s
  | fuel + 1 =>
    if s.glazeWait then s
    else match s.loadStep with
      | .error e => s.failCopy e
      | .ok t =>
        if t.load.place = s.load.place then t
        else if t.load.place = t.load.len ∧ (imageRecord s.load.image s.load.place).ty = 0xFFFF then t.endCopy
        else t.loadRun fuel

/-- Bytes of the copy arrive and the loader works on them. -/
def State.loadBytes (s : State) (b : List Byte) : State :=
  let s := { s with load := { s.load with reading := true, image := s.load.image ++ b } }
  s.loadRun (s.load.image.length / 16 + 2)

/-- Whether the loader reads the canvas: CANVAS, with its clocks running. -/
def State.inCanvas (s : State) : Bool := s.phase == 5 && !s.stopped

/-- CANVAS_READ (R337, R338): bytes of the copy come from the flash; a read that fails ends the copy with FLASH. -/
def execCanvasRead (image : List Byte) (readOk : Bool) (s : State) : Out :=
  done (s.when s.inCanvas fun t =>
    let u := t.loadBytes image
    if !readOk && u.phase == 5 && u.copyNow == t.copyNow then u.failCopy (1, u.load.image.length / 16) else u)

/-- The next record of the copy being read, whole (R341). -/
def State.recordIn (s : State) (ty : Nat) (b : List Byte) : State :=
  s.when (s.inCanvas && s.load.reading && decide (64 ≤ s.load.place) && s.load.place == s.load.image.length &&
    !s.glazeWait && leAt b 0 2 == ty && decide (16 ≤ b.length) && b.length == recBytes (leAt b 4 4)) fun t => t.loadBytes b

/-- GLAZE_DESC (R353). -/
def execGlazeDesc (body : List Byte) (s : State) : Out := done (s.recordIn 1 body)
/-- CLAIMS (R350). -/
def execClaims (body : List Byte) (s : State) : Out := done (s.recordIn 2 body)
/-- COLMAP (R346). -/
def execColmap (body : List Byte) (s : State) : Out := done (s.recordIn 3 body)
/-- FIRMWARE (R347). -/
def execFirmware (body : List Byte) (s : State) : Out := done (s.recordIn 4 body)
/-- REG_WRITE (R344). -/
def execRegWriteRec (body : List Byte) (s : State) : Out := done (s.recordIn 5 body)
/-- ROUTE (R345). -/
def execRouteRec (body : List Byte) (s : State) : Out := done (s.recordIn 6 body)
/-- SPRAY (R345). -/
def execSprayRec (body : List Byte) (s : State) : Out := done (s.recordIn 7 body)
/-- STENCIL (R345). -/
def execStencilRec (body : List Byte) (s : State) : Out := done (s.recordIn 8 body)
/-- COLLECTIVE (R348). -/
def execCollectiveRec (body : List Byte) (s : State) : Out := done (s.recordIn 9 body)
/-- END (R349). -/
def execEndRec (body : List Byte) (s : State) : Out := done (s.recordIn 0xFFFF body)

end Sys2Proof.Machine
end

