-- ==== Sys2Proof/Machine/Bringup.lean ====
section
/-! DEFINITION. Bring-up (R330 to R336, R356 to R360), restarts (R332, R404), glaze switching in service (R362, R363)
and the loader's own registers (R364). -/
namespace Sys2Proof.Machine

/-! ### Restarts (R332, R404) -/

/-- Die-level registers of the AON state that a restart keeps: network time, the fault latches, OPER_HOURS (log entry 39). -/
def keptAon (off : Nat) : Bool :=
  let within (lo hi : Nat) : Bool := decide (lo ≤ off) && decide (off < hi)
  within 0x0800 0x082C || within 0x2004 0x205C || within 0x20C0 0x2100 || within 0x2800 0x3000 || off == Reg.OPER_HOURS ||
    within 0x1930 0x193C || off == Reg.BRINGUP_NT_LO 0 || off == Reg.BRINGUP_NT_HI 0 || within 0x14D0 0x14E0

/-- Registers that a restart keeps: the AON state's, and the repairs and retired banks of every tray. -/
def keptRegs (m : Store Word) : Store Word :=
  m.keep fun k =>
    let a := RegAddr.ofKey k
    (a.region == 3 && keptAon a.off) || (a.region == 1 && decide (0x0208 ≤ a.off) && decide (a.off < 0x020C)) ||
      (a.region == 1 && decide (0x0220 ≤ a.off) && decide (a.off < 0x02A0))

/-- A restart at FUSE (R332): the AON state, the trays' cells, the TAP and what waits stay; everything else is reset. -/
def State.restart (s : State) : State :=
  let r := State.reset
  let s' : State := { r with
    config := s.config
    regs := keptRegs s.regs
    time := { r.time with
      nt := s.time.nt, frac := s.time.frac, edges := s.time.edges, slew := s.time.slew, slewDiv := s.time.slewDiv
      incrHist := s.time.incrHist, refMissed := s.time.refMissed, holdEdge := s.time.holdEdge, holdBase := s.time.holdBase
      expired := s.time.expired }
    flt := { r.flt with
      inFlight := s.flt.inFlight, wires := s.flt.wires, queue := s.flt.queue, lastMinor := s.flt.lastMinor
      pinEdge := s.flt.pinEdge, pinRelease := s.flt.pinRelease, retired := s.flt.retired }
    trays := { r.trays with mem := s.trays.mem, bad := s.trays.bad }
    trace := { r.trace with buf := s.trace.buf }
    tap := s.tap
    load := { r.load with glazeSel := s.load.glazeSel }
    easel := coresIdle s.config
    frozen := s.frozen
    ticks := s.ticks
    fresh := s.fresh
    pending := s.pending }
  let s' := s'.positions.foldl (fun t p => t.setRegF (tileA p Reg.TRAY_BANK_STAT) 15 0 0) s'
  let s' := s'.setDieF Reg.COOLANT_STAT 31 31 0
  let s' := (s.flt.retired.filter fun x => x.1 == 7).foldl (fun t x =>
    t.setSpF (x.2 / 16) (Reg.LANE_STAT (x.2 % 16)) 29 29 1) s'
  (s'.when (s'.timeState == 2) State.enterHoldover).enterPhase 1

/-- POWER_ON_RESET (R332, R354): the die stands in RESET, and GLAZE_SEL is sampled. -/
def execPowerOnReset (glazeSel : BitVec 4) (s : State) : Out :=
  done { State.reset with
    config := s.config
    load := { Loader.empty with glazeSel := glazeSel }
    tap := s.tap
    easel := coresIdle s.config
    ticks := s.ticks
    fresh := s.fresh
    pending := s.pending }

/-- SYSTEM_RESET (R332, R392): SYSRST_N, taken while COOLANT_LOSS_N is high. -/
def execSystemReset (s : State) : Out := done s.restart

/-- CHIP_RESET (R404): 10 µs after the record of the first request was latched. -/
def execChipReset (s : State) : Out :=
  done (match s.flt.chipReset with
    | some e => s.when (decide (e + 1000 ≤ s.time.edges)) State.restart
    | none => s)

/-! ### Fuses (R334, R486) -/

/-- The 32-bit entry `i` of the fuse words from word 4 on. -/
def fuseEntry (words : List (BitVec 128)) (i : Nat) : Nat :=
  bitsOf (words.getD (4 + i / 4) 0).toNat (32 * (i % 4) + 31) (32 * (i % 4))

/-- N_REPAIR. -/
def fuseRepairs (words : List (BitVec 128)) : Nat := bitsOf (words.getD 0 0).toNat 47 32
/-- N_LINK. -/
def fuseLinks (words : List (BitVec 128)) : Nat := bitsOf (words.getD 0 0).toNat 63 48

/-- The valid tray repairs: position, bank and column. -/
def fuseColumns (words : List (BitVec 128)) : List (Nat × Nat × Nat) :=
  ((List.range (fuseRepairs words)).map (fuseEntry words)).filterMap fun e =>
    if e.testBit 23 then some (entPos e, bitsOf e 13 10, bitsOf e 22 14) else none

/-- The links that the fuses name, as parts: retired links begin at the word after the repairs; a mesh lane is two
parts, one for each direction. -/
def fuseParts (words : List (BitVec 128)) : List (Nat × Nat) :=
  let first := 4 * ceilDiv (fuseRepairs words) 4
  ((List.range (fuseLinks words)).map fun i => fuseEntry words (first + i)).flatMap fun e =>
    let pos := entPos e
    let south := b2n (e.testBit 12)
    let lane := b2n (e.testBit 13)
    match bitsOf e 11 10 with
    | 0 =>
      let out := 2 + south + 4 * lane
      [(0, 14 * pos + out), (0, 14 * neighbour pos (1 + south) + (if south = 0 then 4 else 1) + 4 * lane)]
    | 1 => [(1, 2 * pos + south)]
    | 2 => [(2, 2 * pos + south)]
    | _ => [(3, if south = 0 then colOf pos else if lane = 0 then 32 + pos else 1056 + pos)]

/-- The repairs of a bank as TRAY_REPAIR shows them: SOFT and column of each spare in use. -/
def State.repairs (s : State) (pos b : Nat) : List (Bool × Nat) :=
  (List.range 4).filterMap fun k =>
    let w := s.reg (tileA pos (Reg.TRAY_REPAIR b (k / 2)))
    let h := w.toNat >>> (16 * (k % 2))
    if h.testBit 15 then some (h.testBit 14, bitsOf h 8 0) else none

/-- The half register of a spare column. -/
def repairHalf : Option (Bool × Nat) → Nat
  | none => 0
  | some (soft, col) => 2 ^ 15 + b2n soft * 2 ^ 14 + col % 512

/-- The state with the spare columns of a bank in use. -/
def State.setRepairs (s : State) (pos b : Nat) (l : List (Bool × Nat)) : State :=
  let half (k : Nat) : Nat := repairHalf l[k]?
  (s.setReg (tileA pos (Reg.TRAY_REPAIR b 0)) (BitVec.ofNat 32 (half 0 + half 1 * 2 ^ 16))).setReg
    (tileA pos (Reg.TRAY_REPAIR b 1)) (BitVec.ofNat 32 (half 2 + half 3 * 2 ^ 16))

/-- The fused columns of a bank. -/
def State.fusedOf (s : State) (pos b : Nat) : List Nat :=
  ((fuseColumns s.load.fuses).filter fun f => f.1 == pos && f.2.1 == b).map (·.2.2)

/-- The fused repairs of a bank are in place; a soft repair that stands stays behind them (R200, R332). -/
def State.fuseRepair (s : State) (pos b : Nat) : State :=
  let soft := (s.repairs pos b).filter (·.1)
  s.setRepairs pos b ((((s.fusedOf pos b).map fun c => (false, c)) ++ soft).take 4)

/-- FUSE_READ (R334, R485, R486): an uncorrectable word or an illegal CONFIG halts bring-up. -/
def execFuseRead (words : List (BitVec 128)) (ok : Bool) (s : State) : Out :=
  done (s.when (decide (s.phase ≤ 1) && s.mode == 0 && !bit (s.die Reg.COOLANT_STAT) 31) fun s =>
    let s := if s.phase = 0 then s.enterPhase 1 else s
    let config := BitVec.ofNat 32 (words.getD 0 0).toNat
    if !ok || !Config.legal config then s.haltBringup 0x20
    else
      let s := { s with config := config, easel := coresIdle config, load := { s.load with fuses := words } }
      let limits := (words.getD 1 0).toNat
      let s := (List.range (Config.panels config)).foldl (fun t n =>
        t.setDieF (Reg.PANEL_STAT n) 15 8 (bitsOf limits (8 * n + 7) (8 * n))) s
      let banks := (fuseColumns words).map fun f => (f.1, f.2.1)
      let s := banks.foldl (fun t f => t.when (t.inMesh f.1) fun u => u.fuseRepair f.1 f.2) s
      s.enterPhase 2)

/-! ### CLOCKS, CALIBRATE and TRAY_TEST (R335, R336, R366) -/

/-- F in MHz: the process's limit and those that the fuses give (R366). -/
def State.fusedF (s : State) : Nat :=
  (List.range (Config.panels s.config)).foldl (fun f n =>
    let l := s.dieF (Reg.PANEL_STAT n) 15 8
    if l = 0 then f else min f (25 * l)) (if Config.process5 then 1700 else 2000)

/-- CLOCK_START (R366). -/
def execClockStart (locked : Bool) (s : State) : Out :=
  done (s.when (s.phase == 2 && !bit (s.die Reg.COOLANT_STAT) 31) fun s =>
    if locked then (s.setDie Reg.CLK_STAT (BitVec.ofNat 32 (2 ^ 31 + s.fusedF))).enterPhase 3 else s.haltBringup 0x21)

/-- DEGRADED is set. -/
def State.degrade (s : State) : State := s.setDieF Reg.BRINGUP_STAT 23 23 1

/-- A link fails calibration, or the fuses name it: it is retired and reported (R335). -/
def State.retireLink (s : State) (kind part : Nat) : State :=
  let s := s.degrade
  if s.partRetired kind part then s
  else { s with flt := { s.flt with retired := s.flt.retired ++ [(kind, part)] } }.raise Src.LINK_CAL (partPos kind part) .die
    (partUnit kind part) 0 kind 0

/-- Whether a part is an on-die link of this mesh. -/
def State.isLink (s : State) (kind part : Nat) : Bool :=
  decide (kind ≤ 3) && s.inMesh (partPos kind part) &&
  (match kind with
   | 0 => decide (1 ≤ part % 14) && decide (part % 14 ≤ 8) && s.hasOutput (part / 14) (part % 14)
   | 3 => decide (part < 2080)
   | _ => Config.hasLink s.config (rowOf (part / 2)) (colOf (part / 2)) (1 + part % 2))

/-- CALIBRATE (R335). -/
def execCalibrate (failed : List (Nat × Nat)) (s : State) : Out :=
  done (s.when (s.phase == 3 && !s.stopped) fun s =>
    ((failed ++ fuseParts s.load.fuses).foldl (fun t f => t.when (t.isLink f.1 f.2) fun u => u.retireLink f.1 f.2) s).enterPhase 4)

/-- A bank is retired by the self-test (R336); its tile port is fenced at READY. -/
def State.testRetire (s : State) (pos b : Nat) : State :=
  if s.bankRetired pos b then s
  else
    let s := { s with flt := { s.flt with retired := s.flt.retired ++ [(4, 16 * pos + b)] } }
    (s.setRegF (tileA pos Reg.TRAY_BANK_STAT) (16 + b) (16 + b) 1).raise Src.TRAY_RETIRE pos .tilePort b 0 b 0

/-- The self-test found columns of a bank faulty: spare columns take those that no repair covers (R336). -/
def State.testBank (s : State) (pos b : Nat) (cols : List Nat) : State :=
  let have' := s.repairs pos b
  let new := cols.eraseDups.filter fun c => !(have'.any fun r => r.2 == c)
  if 4 < have'.length + new.length ∨ 4 < (s.fusedOf pos b).length then s.testRetire pos b
  else s.setRepairs pos b (have' ++ new.map fun c => (true, c))

/-- Every tray reads zero (R336). -/
def State.zeroTrays (s : State) : State := { s with trays := { s.trays with mem := [], bad := [] } }

/-- TRAY_TEST (R336). -/
def execTrayTest (failed : List (Nat × Nat × Nat)) (s : State) : Out :=
  done (s.when (s.phase == 4 && !s.stopped) fun s =>
    let good := failed.filter fun f => s.inMesh f.1 && decide (f.2.1 < 16) && decide (f.2.2 < 288)
    let banks := ((good.map fun f => (f.1, f.2.1)) ++
      ((fuseColumns s.load.fuses).map fun f => (f.1, f.2.1)).filter fun f => s.inMesh f.1).eraseDups
    let s := banks.foldl (fun t f =>
      t.testBank f.1 f.2 ((good.filter fun x => x.1 == f.1 && x.2.1 == f.2).map (·.2.2))) s
    let s := s.when (s.positions.any fun p => fld (s.reg (tileA p Reg.TRAY_BANK_STAT)) 31 16 != 0) State.degrade
    s.zeroTrays.enterPhase 5)

/-! ### FIRMWARE, SPINE and TIME (R356 to R358) -/

/-- The groups that the canvas enabled. -/
def State.enabledGroups (s : State) : List Nat :=
  (List.range 64).filter fun g => s.spExists g && bit (s.spReg g Reg.SP_CTRL) 31

/-- FIRMWARE_START (R356): the cores that report running within 10 ms; only cores with firmware start (R347). -/
def execFirmwareStart (reports : List Nat) (s : State) : Out :=
  done (s.when (s.phase == 6 && !s.stopped) fun s =>
    let started (n : Nat) : Bool := reports.contains n && s.core.fw.contains n
    let m := s.masterCore
    if !started m then s.haltBringup 0x22
    else
      let s := { s with easel := ((List.range (m + 1)).filter fun n => !started n).map fun n => (n, 4) }
      let s := ((List.range m).filter fun n => !started n).foldl (fun t n =>
        (t.raise Src.EASEL_START 0 (.easel n) n 0 n 0).degrade) s
      let s := s.enterPhase 7
      s.enabledGroups.foldl (fun t g => t.spEnableWrite g false true) s)

/-- Whether a group has ended its training in SPINE (R357): every port ACTIVE, FAILED, or held for want of a DIE_ID. -/
def State.groupSettled (s : State) (g : Nat) : Bool :=
  (List.range (s.spPorts g)).all fun p =>
    s.spState g p == spACTIVE || s.spState g p == spFAILED ||
      (s.spState g p == spIDENT && bit (s.spReg g (Reg.SP_PORT_STAT p)) 23)

/-- Whether a wait in ms of the phase has passed. -/
def State.waited (s : State) (ms : Nat) : Bool := decide (s.load.since + 100000 * ms ≤ s.time.edges)

/-- SPINE_PHASE (R357). -/
def execSpinePhase (timedOut : Bool) (s : State) : Out :=
  done (s.when (s.phase == 7 && !s.stopped) fun s =>
    if s.enabledGroups.all s.groupSettled then s.enterPhase 8
    else if timedOut && s.waited s.load.spineMs then (s.setDieF Reg.BRINGUP_STAT 21 21 1).enterPhase 8
    else s)

/-- Whether time is acquired: LOCKED or ROOT (R121). -/
def State.timeGood (s : State) : Bool := s.timeState == 2 || s.timeState == 5

/-- TIME_PHASE (R358). -/
def execTimePhase (timedOut : Bool) (s : State) : Out :=
  done (s.when (s.phase == 8 && !s.stopped) fun s =>
    if s.timeGood then s.enterPhase 9
    else if timedOut && s.waited s.load.timeMs then (s.setDieF Reg.BRINGUP_STAT 22 22 1).enterPhase 9
    else s)

/-! ### READY (R359) -/

/-- Whether a position has a retired bank. -/
def State.damaged (s : State) (pos : Nat) : Bool := fld (s.reg (tileA pos Reg.TRAY_BANK_STAT)) 31 16 != 0

/-- Whether some glaze of a set has DIAG. -/
def State.anyDiag (s : State) (set : Nat) : Bool :=
  (setBits 8 set).any fun g => match s.load.descs.find? g with | some d => d.diag | none => false

/-- ACTIVE_GLAZES. -/
def State.activeGlazes (s : State) : Nat := s.dieF Reg.BRINGUP_STAT 15 8

/-- ENTER_READY (R359, R365): the five steps, in order. -/
def execEnterReady (s : State) : Out :=
  done (s.when (s.phase == 9 && s.mode == 0 && !s.stopped) fun s =>
    let s := (s.positions.filter s.isSpare).foldl (fun t p =>
      (List.range 16).foldl (fun u b => u.setBank p b 2) t) s
    let s := (s.positions.filter s.damaged).foldl (fun t p => t.fenceTile p 2) s
    let s := (s.load.claims.filter fun c => c.resource == 3 && s.damaged c.pos).foldl (fun t c =>
      t.raise Src.CLAIM_RETIRED c.pos .die 0 0 c.feature 0) s
    { s with release := true }.setDieF Reg.BRINGUP_STAT 27 25 (if s.anyDiag s.activeGlazes then 2 else 1))

/-! ### The loader's registers (R332, R354, R364) -/

/-- CONTINUE under the host policy: the set is GLAZE_HOST, and loading resumes (R354). -/
def State.bringupContinue (s : State) : State :=
  s.when (s.glazeWait && s.inCanvas) fun s =>
    let m := s.dieF Reg.BRINGUP_CTRL 7 0
    let s := s.setDieF Reg.BRINGUP_STAT 20 20 0
    if 2 ^ s.load.count ≤ m then s.failCopy (0x11, s.load.place / 16)
    else { s with load := { s.load with set := some m } }.loadRun (s.load.image.length / 16 + 2)

/-- A write of BRINGUP_CTRL: RELOAD restarts a die in RECOVERY, and is a Note elsewhere. -/
def State.bringupCtrlWrite (s : State) (data : Word) : State :=
  let s := s.plainWrite (dieA Reg.BRINGUP_CTRL) data
  if bit data 31 then
    (if s.mode = 3 then (if bit (s.die Reg.COOLANT_STAT) 31 then s else s.restart) else s.cfgNote (dieA Reg.BRINGUP_CTRL))
  else s.when (bit data 30) State.bringupContinue

/-- BRINGUP_RELOAD (R332). -/
def execBringupReload (acc : Access) (data : Word) (s : State) : Out :=
  done (guardedWrite acc (dieA Reg.BRINGUP_CTRL) (fun t => t.bringupCtrlWrite (setBit data 31 true)) s)

/-- BRINGUP_CONTINUE (R354). -/
def execBringupContinue (acc : Access) (data : Word) (s : State) : Out :=
  done (guardedWrite acc (dieA Reg.BRINGUP_CTRL) (fun t => t.bringupCtrlWrite (setBit (setBit data 31 false) 30 true)) s)

/-! ### Glaze switching in service (R362, R363) -/

/-- Every record of the image in service, in order. -/
def imageRecords (image : List Byte) (len : Nat) : (fuel place : Nat) → List RecHead
  | 0, _ => []
  | fuel + 1, place =>
    if len < place + 16 then []
    else let r := imageRecord image place; r :: imageRecords image len fuel (place + recBytes r.len)

/-- The inactive route, spray and stencil banks are zeroed. -/
def State.zeroInactive (s : State) : State :=
  let bank := 1 - s.routeBank
  let sten := 1 - s.stencilBank
  { s with
    regs := s.regs.keep fun k =>
      let a := RegAddr.ofKey k
      !(a.region == 0 && (match routeReg a.off with | some (_, b, _) => b == bank | none => false))
    time := { s.time with stencils := s.time.stencils.keep fun k => k / 2 ^ 23 != sten } }

/-- A record's ALT = 0 content goes into the inactive bank as it stands in the image. -/
def State.switchRecord (s : State) (r : RecHead) : State :=
  let bank := 1 - s.routeBank
  let fits (n size : Nat) : Bool := s.inMesh r.pos && decide (n + r.len / size ≤ (if r.ty = 6 then 1216 else if r.ty = 7 then 64 else 256))
  let word (i : Nat) : Word := BitVec.ofNat 32 (leAt r.body (4 * i) 4)
  match r.ty with
  | 6 => s.when (!r.alt && fits (r.target % 2048) 4) fun s =>
      (List.range (r.len / 4)).foldl (fun t i => t.plainWrite (entryA r.pos bank (r.target % 2048 + i)) (word i)) s
  | 7 => s.when (!r.alt && fits (r.target % 64) 4) fun s =>
      (List.range (r.len / 4)).foldl (fun t i => t.plainWrite (sprayA r.pos bank (r.target % 64 + i)) (word i)) s
  | 8 => s.when (!r.alt && fits (r.target % 256) 8 && pointUsed r.pos (bitsOf r.target 12 8)) fun s =>
      let key (i : Nat) : Nat := stencilKey (1 - s.stencilBank) r.pos (bitsOf r.target 12 8) (r.target % 256 + i)
      { s with time := { s.time with stencils :=
        (List.range (r.len / 8)).foldl (fun m i => m.set 0 (key i) (BitVec.ofNat 64 (leAt r.body (8 * i) 8))) s.time.stencils } }
  | _ => s

/-- The records of the base and of a glaze set. -/
def State.recordsOf (s : State) (set : Nat) : List RecHead :=
  (imageRecords s.load.image s.load.len (s.load.image.length / 16) 64).filter fun r =>
    r.ty != 0xFFFF && (r.layer == 0 || set.testBit (r.layer - 1))

/-- The COLL_STORE regions are written afresh from a glaze set (R355, R362). -/
def State.storeSet (s : State) (set : Nat) : State :=
  let s := { s with eng := { s.eng with records := [] }, load := { s.load with storeAt := 0 } }
  ((s.recordsOf set).filter fun r => r.ty == 9).foldl (fun t r =>
    if t.collGood r.body then (t.storeRecord r.target r.body).getD t else t) s

/-- The end of a switch: BUSY clears and CODE tells how it ended. -/
def State.switchEnd (s : State) (code : Nat) : State :=
  let s := (s.setDieF Reg.GLAZE_SWITCH_STAT 31 31 0).setDieF Reg.GLAZE_SWITCH_STAT 7 0 code
  s.when (code != 0) fun t => t.setDieF Reg.GLAZE_SWITCH_STAT 30 30 1

/-- A switch fails at a step (R362): ARM and HOLD clear, and the store holds the old set's records again. -/
def State.switchFail (s : State) (code : Nat) (stored : Bool) : State :=
  let s := (s.setDieF Reg.STENCIL_SWITCH_ARM 0 0 0).drainHold 0
  (s.when stored fun t => t.storeSet t.load.oldSet).switchEnd code

/-- The first check that a switch fails: a code of R363, 0 for none. -/
def State.switchCheck (s : State) (set : Nat) : Nat :=
  if (setBits 8 (set ||| s.activeGlazes)).any fun g => decide (s.load.count ≤ g) || !s.glazeRuntime g then 1
  else if s.eng.arms.any fun a => a.2.valid then 2
  else if s.switchAt ≤ s.ntNat + 16000 * s.drainLimit then 3
  else 0

/-- Steps 1 and 2 of a switch (R362). -/
def State.switchBegin (s : State) (readOk : Bool) : State :=
  let new := s.dieF Reg.GLAZE_SWITCH_MASK 7 0
  let masks := (setBits 8 (new ||| s.activeGlazes)).foldl (fun m g =>
    match s.load.descs.find? g with | some d => m ||| d.drain | none => m) 0
  let s := { s with load := { s.load with oldSet := s.activeGlazes, held := masks, switchAt := s.switchAt, drained := false } }
  let s := s.setDieF Reg.GLAZE_SWITCH_STAT 31 31 1
  match s.switchCheck new with
  | 0 =>
    if !readOk || s.load.image.isEmpty then s.switchFail 4 true
    else ((s.recordsOf new).foldl State.switchRecord s.zeroInactive).storeSet new
  | code => s.switchFail code false

/-- A write of GLAZE_SWITCH_CTRL (R362, R363). -/
def State.glazeSwitchWrite (s : State) (data : Word) (readOk : Bool) : State :=
  s.when (bit data 31) fun s =>
    if bit (s.die Reg.GLAZE_SWITCH_STAT) 31 then
      (s.setDieF Reg.GLAZE_SWITCH_STAT 30 30 1).setDieF Reg.GLAZE_SWITCH_STAT 7 0 6
    else s.switchBegin readOk

/-- GLAZE_SWITCH (R362). -/
def execGlazeSwitch (acc : Access) (data : Word) (readOk : Bool) (s : State) : Out :=
  done (guardedWrite acc (dieA Reg.GLAZE_SWITCH_CTRL) (fun t => t.glazeSwitchWrite data readOk) s)

/-- Whether a switch is in progress. -/
def State.switching (s : State) : Bool := bit (s.die Reg.GLAZE_SWITCH_STAT) 31 && !s.stopped

/-- GLAZE_SWITCH_DRAIN: step 3 of R362. -/
def execGlazeSwitchDrain (s : State) : Out :=
  done (s.when (s.switching && !s.load.drained && decide (s.load.switchAt ≤ s.ntNat + 16000 * s.drainLimit)) fun s =>
    let s := { s with load := { s.load with drained := true } }
    let s := (s.drainHold (BitVec.ofNat 32 (s.hold ||| s.load.held))).stencilSwitchArm 1
    if bit (s.die Reg.STENCIL_SWITCH_ARM) 0 then s else s.switchFail 3 true)

/-- GLAZE_SWITCH_COMMIT: steps 4 to 6 of R362. -/
def execGlazeSwitchCommit (s : State) : Out :=
  done (s.when (s.switching && s.load.drained && decide (s.load.switchAt ≤ s.ntNat)) fun s =>
    if !((setBits 6 s.load.held).all fun v => s.vcEmpty v) then s.switchFail 5 true
    else
      let new := s.dieF Reg.GLAZE_SWITCH_MASK 7 0
      let s := s.circEndAll.stencilBankSwitch.circRewind
      let s := { s with mesh := { s.mesh with swapPending := true } }.routeBankSwitch
      let s := (s.drainHold 0).setDieF Reg.BRINGUP_STAT 15 8 new
      (s.switchEnd 0).traceEvent 8 new)

/-! ### Any register, the loader's included -/

/-- BRINGUP_PROG (R364): KiB read in CANVAS, groups ACTIVE in SPINE. -/
def State.bringupProg (s : State) : Word :=
  BitVec.ofNat 32 (match s.phase with
    | 5 => s.load.image.length / 1024
    | 7 => (s.enabledGroups.filter fun g => (List.range (s.spPorts g)).all fun p => s.spState g p == spACTIVE).length
    | _ => 0)

/-- A register write takes effect. -/
def State.writeAny (s : State) (p : Path) (a : RegAddr) (data : Word) : State :=
  if a = dieA Reg.BRINGUP_CTRL then s.bringupCtrlWrite data
  else if a = dieA Reg.GLAZE_SWITCH_CTRL then s.glazeSwitchWrite data true
  else s.regEffect p a data

/-- A register read. -/
def State.readAny (s : State) (p : Path) (a : RegAddr) : Word × State :=
  if a = dieA Reg.BRINGUP_PROG then (s.bringupProg, s) else s.regRead p a

end Sys2Proof.Machine
end

