-- ==== Sys2Proof/Machine/Paths.lean ====
section
/-! DEFINITION. The register paths (R457 to R460), responses at a host port, and the sketch network (R27 to R33, R60, R61). -/
namespace Sys2Proof.Machine

/-! ### Register accesses (R11, R460) -/

/-- REG_WR (R11). -/
def execRegWr (acc : Access) (addr data : Word) (s : State) : Out :=
  let a := RegAddr.ofWord addr
  done (guardedWrite acc a (fun t => t.writeAny acc.path a data) s)

/-- A register access as a sketch flit asks for it (R458). -/
def State.flitAccess (s : State) (acc : Access) (f : SFlit) : State :=
  let a := RegAddr.ofWord (BitVec.ofNat 32 (f.field 0 4))
  if f.stype = 1 then guardedWrite acc a (fun t => t.writeAny acc.path a (BitVec.ofNat 32 (f.field 4 4))) s
  else guardedRead acc a (fun t => t.readAny acc.path a) s

/-- The access that a register request carries. -/
def flitAcc (path : Path) (f : SFlit) : Access :=
  { path := path, priv := if f.priv = 0 then .tenant else .supervisor, ctx := f.ctx, slot := 0, tag := f.tag }

/-- The REG_RSP to a request, with the path's last response (R458). -/
def State.rspFlit (s : State) (path : Path) (f : SFlit) : SFlit :=
  let r := s.lastRsp.get (0, 0) (pathCode path)
  { dest := f.src, src := f.dest, kvc := 1, stype := 2, ctx := f.ctx, tag := f.tag, priv := f.priv
    body := BitVec.ofNat 256 (f.field 0 4 + r.1.toNat * 2 ^ 32 + r.2 * 2 ^ 64 + f.stype.toNat * 2 ^ 72) }

/-- The router and side of a host port: of the spine role's HP0, the sketch router at (0, 0) alone (R309). -/
def State.hostEnd (s : State) (k : Nat) : Option (BitVec 32) :=
  if Config.spineRole s.config then (if k = 0 then some (s.physEndpoint 0 16) else none)
  else (s.hostSite k).map fun x => s.physEndpoint x.1 (16 + x.2)

/-- The path a request came by, from its SRC: a host port, else an easel core. -/
def State.flitPath (s : State) (f : SFlit) : Path :=
  if s.hostEnd 0 = some f.src then .host 0
  else if s.hostEnd 1 = some f.src then .host 1
  else .easel s.masterCore

/-- Counts at a host port's register, where the port has registers. -/
def State.hostCount (s : State) (k off : Nat) : State :=
  match s.hostSite k with
  | some (pos, side) => s.count (edgeA pos side off) 1
  | none => s

/-- A host port's requests without the first of a tag. -/
def State.takeHost (s : State) (port : Nat) (tag : BitVec 16) : Option (HostReq × State) :=
  match takeFirst (fun r : HostReq => r.port == port && r.tag == tag) s.hostReqs with
  | some (r, rest) => some (r, { s with hostReqs := rest })
  | none => none

/-- REG_RSP (R460): the access completes; a response that nothing waits for is counted as late. -/
def execRegRsp (port : Nat) (tag : BitVec 16) (s : State) : Out :=
  done (match s.takeHost port tag with
    | some (r, t) => { t with lastRsp := t.lastRsp.set (0, 0) (pathCode (.host port)) (r.data, r.status) }
    | none => s.hostCount port Reg.HP_LATE_CNT)

/-- HOST_RSP_TIMEOUT (R460): HR_RSTATUS is TIMEOUT, and the K1 slot is free. -/
def execHostRspTimeout (port : Nat) (tag : BitVec 16) (s : State) : Out :=
  done (match s.takeHost port tag with
    | some (_, t) =>
      let t := { t with lastRsp := t.lastRsp.set (0, 0) (pathCode (.host port)) (0, 3) }
      let t := match t.hostSite port with
        | some (pos, side) => t.setRegF (edgeA pos side Reg.HP_STAT) 30 30 1
        | none => t
      t.hostCount port Reg.HP_TO_CNT
    | none => s)

/-- PEER_ACCESS_RECEIVE (R304): the named block performs the access, and its response goes back across the same port. -/
def execPeerAccessReceive (group port : Nat) (write : Bool) (addr data : Word) (tag : BitVec 16) (s : State) : Out :=
  done (s.when (s.spHas group port && !s.stopped) fun s =>
    let a := RegAddr.ofWord addr
    let path := Path.peer (8 * group + port)
    let f : SFlit :=
      { dest := blockEndpoint aliasId a, src := s.physEndpoint (s.spSite group).1 22, kvc := 0
        stype := if write then 1 else 0, ctx := 0, tag := tag, priv := 1
        body := BitVec.ofNat 256 (addr.toNat + data.toNat * 2 ^ 32) }
    let s := s.takePeer group port fun g => g.stype == f.stype && g.tag == tag && g.field 0 4 == addr.toNat
    let s := s.flitAccess (flitAcc path f) f
    let v := s.spPort group port
    s.setSpPort group port { v with sk := v.sk ++ [s.rspFlit path f] })

/-! ### The sketch network -/

/-- The KVC of a sketch type (R61). -/
def stypeVc (n : Nat) : Option Nat :=
  match n with
  | 0 | 1 | 3 => some 0
  | 2 | 4 => some 1
  | 5 | 6 | 7 | 8 | 9 | 10 | 11 => some 2
  | _ => none

/-- Whether the first router takes a flit (R31, R61). -/
def flitGood (f : SFlit) : Bool := stypeVc f.stype.toNat == some f.kvc.toNat && decide (f.priv.toNat < 2)

/-- Where a flit is bound on this die: the position, and the spine group by which it leaves (R32, R47, log entry 42). -/
def State.flitGoal (s : State) (f : SFlit) : Option (Nat × Option Nat) :=
  if s.ownDie (dieOf f.dest) then
    let row := adRow f.dest
    let col := if adPort f.dest < 16 then s.physical row (adCol f.dest) else some (adCol f.dest)
    match col with
    | some c => if s.inMesh (mkPos row c) then some (mkPos row c, none) else none
    | none => none
  else
    let n := Config.spgroups s.config
    let g := Config.sketchExit (dieOf f.dest).toNat % n
    if n = 0 then none else some ((s.spSite g).1, some g)

/-- The output of a sketch router toward a position, X then Y (R27): 0 local, 1 north, 2 east, 3 south, 4 west. -/
def sketchOut (pos goal : Nat) : Nat :=
  if colOf pos < colOf goal then 2
  else if colOf goal < colOf pos then 4
  else if rowOf pos < rowOf goal then 3
  else if rowOf goal < rowOf pos then 1
  else 0

/-- Whether the sketch link at an output is retired (R416): links are counted at their west or north end. -/
def State.sketchCut (s : State) (pos out : Nat) : Bool :=
  match out with
  | 1 => s.partRetired 2 (2 * neighbour pos 0 + 1)
  | 2 => s.partRetired 2 (2 * pos)
  | 3 => s.partRetired 2 (2 * pos + 1)
  | 4 => s.partRetired 2 (2 * neighbour pos 3)
  | _ => false

/-- The key of an output's queue of a virtual channel. -/
def sketchKey (pos out vc : Nat) : Nat := 15 * pos + 3 * out + vc

/-- Whether the sketch network runs: its clocks are up, and neither the coolant stop nor FREEZE holds (R28). -/
def State.sketchRuns (s : State) : Bool := !s.stopped && bit (s.die Reg.CLK_STAT) 31

/-- A flit leaves the place where it stood before it came to a router. -/
def State.takeMoving (s : State) (pos : Nat) (f : SFlit) : State :=
  { s with sketch := { s.sketch with links := s.sketch.links.erase (pos, f) } }

/-- A flit that reached a router joins the queue of its output, or is discarded (R31, R61, R416). -/
def State.sketchArrive (s : State) (pos : Nat) (first : Bool) (f : SFlit) : State :=
  if first && !flitGood f then s.discardFlit pos f
  else match s.flitGoal f with
    | none => s.discardFlit pos f
    | some (goal, _) =>
      let out := sketchOut pos goal
      if s.sketchCut pos out then s.discardFlit pos f
      else
        let k := sketchKey pos out f.kvc.toNat
        { s with sketch := { s.sketch with waiting := s.sketch.waiting.set [] k (s.sketch.waiting.get [] k ++ [f]) } }

/-- SKETCH_FLIT_ARRIVE (R31). -/
def execSketchFlitArrive (pos : Pos) (first : Bool) (flit : SFlit) (s : State) : Out :=
  done (s.when (s.inMesh pos && s.sketchRuns) fun t => (t.takeMoving pos flit).sketchArrive pos first flit)

/-- A flit is delivered at its position: a register request is performed and answered, one for another die moves to its
spine group, and every other waits for its own command. -/
def State.sketchDeliver (s : State) (pos : Nat) (f : SFlit) : State :=
  match s.flitGoal f with
  | some (_, some g) => { s with sketch := { s.sketch with edge := s.sketch.edge.set [] g (s.sketch.edge.get [] g ++ [f]) } }
  | _ =>
    if f.stype.toNat ≤ 1 then
      let path := s.flitPath f
      let s := s.flitAccess (flitAcc path f) f
      match path with
      | .host _ => s
      | _ => s.sketchSend pos (s.rspFlit path f)
    else { s with sketch := { s.sketch with arrived := s.sketch.arrived ++ [(pos, f)] } }

/-- The virtual channel that an output grants (R29): K2, K1, K0, but K0 after 7 cycles behind the others. -/
def State.sketchGrant (s : State) (pos out : Nat) : Option Nat :=
  let has' (vc : Nat) : Bool := !(s.sketch.waiting.get [] (sketchKey pos out vc)).isEmpty
  if has' 0 && decide (7 ≤ s.sketch.k0Wait.get 0 (5 * pos + out)) then some 0
  else if has' 2 then some 2
  else if has' 1 then some 1
  else if has' 0 then some 0
  else none

/-- One cycle of an output: the oldest flit of the granted channel moves on. -/
def State.sketchMove (s : State) (pos out : Nat) : State :=
  match s.sketchGrant pos out with
  | none => s
  | some vc =>
    let k := sketchKey pos out vc
    let w := 5 * pos + out
    let behind := vc != 0 && !(s.sketch.waiting.get [] (sketchKey pos out 0)).isEmpty
    match s.sketch.waiting.get [] k with
    | [] => s
    | f :: rest =>
      let s := { s with sketch := { s.sketch with
        waiting := s.sketch.waiting.set [] k rest
        k0Wait := s.sketch.k0Wait.set 0 w (if behind then s.sketch.k0Wait.get 0 w + 1 else 0) } }
      if out = 0 then s.sketchDeliver pos f else s.sketchSend (neighbour pos (out - 1)) f

/-- One control-clock cycle of the sketch routers (R27, R29). -/
def State.sketchCycle (s : State) : State :=
  if s.sketchRuns then
    ((s.sketch.waiting.map fun kv => kv.1 / 3).eraseDups).foldl (fun t po => t.sketchMove (po / 5) (po % 5)) s
  else s

/-- Control-clock cycles of the sketch routers. -/
def State.sketchCycles (s : State) : (n : Nat) → State
  | 0 => s
  | n + 1 => if s.sketch.waiting.isEmpty then s else s.sketchCycle.sketchCycles n

end Sys2Proof.Machine
end

