-- ==== Sys2Proof/Machine/Tap.lean ====
section
/-! DEFINITION. The TAP (R452 to R455): identification, register access, freeze, trace readout and easel debug. -/
namespace Sys2Proof.Machine

/-! ### Instructions (R452) -/

/-- The identification register. -/
def idcode : BitVec 128 := BitVec.ofNat 128 (2 * 2 ^ 28 + 0x2F17 * 2 ^ 12 + Config.jtagMfr.toNat * 2 + 1)

/-- The state with an instruction selected. -/
def State.tapSelect (s : State) (ir : BitVec 8) (dr : BitVec 128) : State := { s with tap := { s.tap with ir := ir, dr := dr } }

/-- IDCODE (R452). -/
def execIdcode (s : State) : Out := done (s.tapSelect 1 idcode)
/-- IJTAG (R452). -/
def execIjtag (s : State) : Out := done (s.tapSelect 2 s.tap.dr)
/-- BYPASS (R452). -/
def execBypass (s : State) : Out := done (s.tapSelect 0xFF 0)
/-- TEST_LOGIC_RESET (R452). -/
def execTestLogicReset (s : State) : Out := done (s.tapSelect 1 idcode)

/-- Whether the IJTAG network is selected. -/
def State.ijtag (s : State) : Bool := s.tap.ir == 2

/-! ### REG_ACCESS (R454) -/

/-- The access of the TAP: Debug privilege. -/
def tapAcc : Access := ⟨.tap, .debug, 0, 0, 0⟩

/-- A forced write: the stored field is replaced as written, RO and W1C too. -/
def State.forceWrite (s : State) (a : RegAddr) (data : Word) : State :=
  if a = dieA Reg.NT_LO then { s with time := { s.time with nt := BitVec.ofNat 64 (s.ntNat / 2 ^ 32 * 2 ^ 32 + data.toNat) } }
  else if a = dieA Reg.NT_HI then { s with time := { s.time with nt := BitVec.ofNat 64 (data.toNat * 2 ^ 32 + s.ntNat % 2 ^ 32) } }
  else
    let t := s.writeAny .tap a data
    if a.region = 4 then t else t.setReg (s.storageOf a) data

/-- Why REG_ACCESS answers ERR: the address is unmapped, or its block is stopped or frozen. -/
def State.tapErr (s : State) (a : RegAddr) : Bool := (s.stopped && a.region != 3) || !s.mapped a

/-- The TAP's data register after an operation. -/
def State.tapDone (s : State) (err : Bool) (addr data : Word) : State :=
  { s with tap := { s.tap with done := true, err := err, addr := addr, data := data } }

/-- REG_ACCESS (R454). -/
def execRegAccess (write force : Bool) (addr data : Word) (s : State) : Out :=
  let a := RegAddr.ofWord addr
  done (s.when s.ijtag fun s =>
    if s.tapErr a then (s.refuse tapAcc a (s.verdict tapAcc a write)).tapDone true addr 0
    else if write then (if force then s.forceWrite a data else s.writeAny .tap a data).tapDone false addr 0
    else let r := s.readAny .tap a; r.2.tapDone false addr r.1)

/-! ### FREEZE and TRACE_READ (R453, R455) -/

/-- FREEZE (R455). -/
def execFreeze (s : State) : Out := done (s.when s.ijtag fun t => { t with frozen := true })
/-- UNFREEZE (R455): the clocks go on where they stopped. -/
def execUnfreeze (s : State) : Out := done (s.when s.ijtag fun t => { t with frozen := false })

/-- TAP_TRACE_READ (R453): the unit comes out, and the address increments. -/
def execTapTraceRead (unit : Nat) (s : State) : Out :=
  done (s.when s.ijtag fun t =>
    { t with tap := { t.tap with dr := t.trace.buf.get 0 (unit % 2 ^ 14), unit := (unit + 1) % 2 ^ 14 } })

/-! ### EASEL_DBG (R453, R456) -/

/-- Whether EASEL_DBG reaches a core. -/
def State.dbgCore (s : State) (core : Nat) : Bool := s.ijtag && decide (core ≤ s.masterCore)

/-- The state with a core's standing changed. -/
def State.setEasel (s : State) (core v : Nat) : State := { s with easel := s.easel.set 0 core v }

/-- EASEL_HALT (R453). -/
def execEaselHalt (core : Nat) (s : State) : Out :=
  done (s.when (s.dbgCore core && s.coreRuns core) fun t => t.setEasel core 2)
/-- EASEL_RESUME (R453). -/
def execEaselResume (core : Nat) (s : State) : Out :=
  done (s.when (s.dbgCore core && s.easel.get 0 core == 2) fun t => t.setEasel core 0)

/-- The state with a register of a core written; x0 is constant, and 0 names the PC. -/
def State.setCoreReg (s : State) (core n : Nat) (v : Word) : State :=
  { s with core := { s.core with regs := s.core.regs.set 0 (64 * core + n) v } }

/-- Bytes of one memory of a core (R37). -/
def State.coreMem (s : State) (core : Nat) : Nat := if core = s.masterCore then 131072 else 32768

/-- Where a core address lies in the memories of the cores: instruction memory from 0, data memory at its base. -/
def State.coreAddr (s : State) (core addr : Nat) : Option Nat :=
  if addr < s.coreMem core then some (2 ^ 20 * core + addr)
  else if Config.easelDataBase ≤ addr ∧ addr < Config.easelDataBase + s.coreMem core then
    some (2 ^ 20 * core + 2 ^ 19 + (addr - Config.easelDataBase))
  else none

/-- The state with a word of a core's memory written. -/
def State.setCoreWord (s : State) (core addr : Nat) (v : Word) : State :=
  match s.coreAddr core (addr / 4 * 4) with
  | none => s
  | some k =>
    { s with core := { s.core with mem := (List.range 4).foldl (fun m i =>
      m.set 0 (k + i) (BitVec.ofNat 8 (v.toNat >>> (8 * i)))) s.core.mem } }

/-- EASEL_STEP (R453): one instruction of the core. What it leaves in the PC, in at most one register and in at most one
word of memory is free (log entry 33). -/
def execEaselStep (core : Nat) (s : State) : Out :=
  done (s.when (s.dbgCore core && s.easel.get 0 core == 2 && !s.stopped) fun s =>
    let v (i : Nat) : Word := Config.easel s.fresh i
    let s' := s.setCoreReg core 0 (v 0)
    let s' := s'.when (fld (v 1) 4 0 != 0) fun t => t.setCoreReg core (fld (v 1) 4 0) (v 2)
    (s'.when (bit (v 3) 0) fun t => t.setCoreWord core (v 4).toNat (v 5)).draw)

/-- EASEL_REG_WRITE (R453): 0 is the PC, 1 to 31 are x1 to x31, 33 to 36 the breakpoints. -/
def execEaselRegWrite (core reg : Nat) (value : Word) (s : State) : Out :=
  done (s.when (s.dbgCore core) fun t =>
    if reg < 32 then t.setCoreReg core reg value
    else if 33 ≤ reg ∧ reg < 37 then
      { t with core := { t.core with breaks := t.core.breaks.set 0 (4 * core + (reg - 33)) (setBit value 0 true) } }
    else t)

/-- EASEL_MEM_WRITE (R453). -/
def execEaselMemWrite (core : Nat) (addr value : Word) (s : State) : Out :=
  done (s.when (s.dbgCore core) fun t => t.setCoreWord core addr.toNat value)

/-- EASEL_BREAKPOINT (R453): a running core reaches one of its breakpoints and halts there. -/
def execEaselBreakpoint (core : Nat) (s : State) : Out :=
  done (s.when (decide (core ≤ s.masterCore) && s.coreRuns core && !s.stopped) fun s =>
    let bs := ((List.range 4).map fun k => s.core.breaks.get 0 (4 * core + k)).filter fun b => bit b 0
    match bs[(Config.easel s.fresh 0).toNat % bs.length]? with
    | some b => ((s.setCoreReg core 0 (setBit b 0 false)).setEasel core 2).draw
    | none => s)

end Sys2Proof.Machine
end

