-- ==== Sys2Proof/Machine/Tick.lean ====
section
/-! DEFINITION. The block's clocks: an AON edge (R110) and a control-clock cycle (log entry 1). -/
namespace Sys2Proof.Machine

/-! ### Network time (R110) -/

/-- The NT unit that a slew adds or removes at this edge, and the slew and count of AON cycles left: at most one unit in
16 AON cycles. -/
def slewStep (slew : Int) (div : Nat) : Int × Int × Nat :=
  if slew = 0 ∨ div < 15 then (0, slew, min 15 (div + 1))
  else (slew.sign, slew - slew.sign, 0)

/-- The master counter adds TIME_INCR, or takes the value of an accepted TIME_SET (R110, R142). -/
def State.ntEdge (s : State) : State :=
  let sum := s.time.frac.toNat + s.timeIncr
  let x := slewStep s.time.slew s.time.slewDiv
  match s.time.setLoad with
  | some v =>
    { s with time := { s.time with nt := v, frac := 0, setLoad := none, slew := 0, slewDiv := 0, edges := s.time.edges + 1 } }
  | none =>
    { s with time := { s.time with
      nt := s.time.nt + BitVec.ofNat 64 (sum / 2 ^ 32) + BitVec.ofInt 64 x.1
      frac := BitVec.ofNat 32 sum
      slew := x.2.1
      slewDiv := x.2.2
      edges := s.time.edges + 1 } }

/-- HOLD_US shows the holdover's age (R123, R142). -/
def State.showHold (s : State) : State :=
  s.when (s.timeState == 3 || s.timeState == 4) fun t => t.setDieF Reg.TIME_STAT 15 0 t.holdUs

/-! ### What an AON cycle does (R143, R371, R379, R448) -/

/-- The slots whose context record holds a shaper: position and slot. -/
def State.shapers (s : State) : List (Nat × Nat) :=
  (s.regs.filterMap fun kv =>
    let a := RegAddr.ofKey kv.1
    if a.region = 64 then
      (List.range 64).find? (fun k => a.off == Reg.W_CTX 8 k || a.off == Reg.W_CTX 9 k) |>.map fun k => (a.pos, k)
    else none).eraseDups

/-- The policers that are configured: position, side and number. -/
def State.policers (s : State) : List (Nat × Nat × Nat) :=
  s.regs.filterMap fun kv =>
    let a := RegAddr.ofKey kv.1
    if a.region = 66 then some (a.pos, a.off / 0x4000, a.off % 0x4000 / 4) else none

/-- Every shaper and policer gains its rate (R143, R145). -/
def State.refillAll (s : State) : State :=
  s.policers.foldl (fun t x => t.policeRefill x.1 x.2.1 x.2.2) (s.shapers.foldl (fun t x => t.shaperRefill x.1 x.2) s)

/-- The edge since which each panel in Run has been idle (R371). -/
def State.noteIdle (s : State) : State :=
  (List.range (Config.panels s.config)).foldl (fun t n =>
    if t.panelState n = 0 ∧ t.panelIdle n then
      (if t.power.idleFrom.get 0 n = 0 then
        { t with power := { t.power with idleFrom := t.power.idleFrom.set 0 n (t.time.edges + 1) } }
      else t)
    else { t with power := { t.power with idleFrom := t.power.idleFrom.set 0 n 0 } }) s

/-- Cycles of the live histograms. -/
def State.histTicks (s : State) : (n : Nat) → State
  | 0 => s
  | n + 1 => s.histTick.histTicks n

/-- Every drop tap writes what it can (R259). -/
def State.drainTaps (s : State) : State :=
  s.eng.taps.foldl (fun t kv => t.tapDrain kv.1 (t.eng.taps.get [] kv.1)) s

/-- Whether the fast and control clocks run. -/
def State.clocked (s : State) : Bool := !s.stopped && bit (s.die Reg.CLK_STAT) 31

/-- Some control-clock cycles pass. -/
def State.cycles (s : State) (n : Nat) : State :=
  (((s.drainTaps.activityCycles n).histTicks n).traceDrain n).sketchCycles n

/-- What the clocked parts do in an AON cycle, with the reports of the tile clients. -/
def State.aonWork (s : State) (reports : List TileReport) : State :=
  let s := s.cycles (s.fMhz / 100)
  let s := (reports.foldl State.takeReport s).refillAll.noteIdle
  (s.when (decide (s.power.sumAt + 1000 ≤ s.time.edges)) State.budgetPeriod).traceSend

/-- AON_EDGE (R110): network time goes on in every mode; the rest where the clocks run. -/
def execAonEdge (reports : List TileReport) (s : State) : Out :=
  let s := s.ntEdge.showHold
  done (s.when s.clocked fun t => t.aonWork reports)

/-! ### A cycle on an empty queue (log entry 1) -/

/-- One control-clock cycle where no command waits. -/
def State.tick (s : State) : State :=
  if s.clocked then { s with ticks := s.cycle + 1 }.cycles 1 else s

end Sys2Proof.Machine
end

