-- ==== Sys2Proof/Machine/Dispatch.lean ====
section
/-! DEFINITION. The dispatch: each command goes to its meaning. -/
namespace Sys2Proof.Machine

/-- The effect of a command on everything but the queue. -/
def exec (i : Instr) (s : State) : Host.Outcome State Fault Refusal :=
  match i with
  | .regWr acc addr data => Sys2Proof.Machine.execRegWr acc addr data s
  | .regRsp port tag => Sys2Proof.Machine.execRegRsp port tag s
  | .hostRspTimeout port tag => Sys2Proof.Machine.execHostRspTimeout port tag s
  | .arbCommit acc pos data => Sys2Proof.Machine.execArbCommit acc pos data s
  | .dieIdWrite acc data => Sys2Proof.Machine.execDieIdWrite acc data s
  | .dieIdApply => Sys2Proof.Machine.execDieIdApply s
  | .sketchFlitArrive pos first flit => Sys2Proof.Machine.execSketchFlitArrive pos first flit s
  | .aonEdge reports => Sys2Proof.Machine.execAonEdge reports s
  | .easelWdt core => Sys2Proof.Machine.execEaselWdt core s
  | .routeLookup pos input vc => Sys2Proof.Machine.execRouteLookup pos input vc s
  | .arbitrate pos output => Sys2Proof.Machine.execArbitrate pos output s
  | .flitCross pos output => Sys2Proof.Machine.execFlitCross pos output s
  | .routeEntryWrite acc pos bank index data => Sys2Proof.Machine.execRouteEntryWrite acc pos bank index data s
  | .spraySetWrite acc pos bank n data => Sys2Proof.Machine.execSpraySetWrite acc pos bank n data s
  | .drainHold acc data => Sys2Proof.Machine.execDrainHold acc data s
  | .drainTimeout vc => Sys2Proof.Machine.execDrainTimeout vc s
  | .routeSwap acc data => Sys2Proof.Machine.execRouteSwap acc data s
  | .routeBankSwitch => Sys2Proof.Machine.execRouteBankSwitch s
  | .routerStarve pos input vc output => Sys2Proof.Machine.execRouterStarve pos input vc output s
  | .cmapSnapshot => Sys2Proof.Machine.execCmapSnapshot s
  | .cmapRecordCopy panel => Sys2Proof.Machine.execCmapRecordCopy panel s
  | .timeBeacon upset => Sys2Proof.Machine.execTimeBeacon upset s
  | .timerefEdge => Sys2Proof.Machine.execTimerefEdge s
  | .refLost => Sys2Proof.Machine.execRefLost s
  | .beacon group port body => Sys2Proof.Machine.execBeacon group port body s
  | .beaconSend group => Sys2Proof.Machine.execBeaconSend group s
  | .parentLost => Sys2Proof.Machine.execParentLost s
  | .timeExpired => Sys2Proof.Machine.execTimeExpired s
  | .timeCfgWrite acc data => Sys2Proof.Machine.execTimeCfgWrite acc data s
  | .timeSet acc data => Sys2Proof.Machine.execTimeSet acc data s
  | .stencilEntryAdvance pos point => Sys2Proof.Machine.execStencilEntryAdvance pos point s
  | .stencilRun acc data => Sys2Proof.Machine.execStencilRun acc data s
  | .stencilEpochWrite acc high data => Sys2Proof.Machine.execStencilEpochWrite acc high data s
  | .stencilSwitchArm acc data => Sys2Proof.Machine.execStencilSwitchArm acc data s
  | .stencilBankSwitch => Sys2Proof.Machine.execStencilBankSwitch s
  | .stencilDataAccess acc write data => Sys2Proof.Machine.execStencilDataAccess acc write data s
  | .washOwnerWrite acc data => Sys2Proof.Machine.execWashOwnerWrite acc data s
  | .panelWakePlanned panel => Sys2Proof.Machine.execPanelWakePlanned panel s
  | .ctxBind acc pos data => Sys2Proof.Machine.execCtxBind acc pos data s
  | .ctxUnbind acc pos data => Sys2Proof.Machine.execCtxUnbind acc pos data s
  | .queueEnable acc pos slot q data => Sys2Proof.Machine.execQueueEnable acc pos slot q data s
  | .queueSubmit acc pos slot q data => Sys2Proof.Machine.execQueueSubmit acc pos slot q data s
  | .queueRestart acc pos slot q data => Sys2Proof.Machine.execQueueRestart acc pos slot q data s
  | .xlateResume acc pos slot q data => Sys2Proof.Machine.execXlateResume acc pos slot q data s
  | .abort acc pos slot q data => Sys2Proof.Machine.execAbort acc pos slot q data s
  | .copy pos slot q => Sys2Proof.Machine.execCopy pos slot q s
  | .strided pos slot q => Sys2Proof.Machine.execStrided pos slot q s
  | .gather pos slot q => Sys2Proof.Machine.execGather pos slot q s
  | .scatter pos slot q => Sys2Proof.Machine.execScatter pos slot q s
  | .mcast pos slot q => Sys2Proof.Machine.execMcast pos slot q s
  | .washWrite pos slot q => Sys2Proof.Machine.execWashWrite pos slot q s
  | .trigger pos slot q => Sys2Proof.Machine.execTrigger pos slot q s
  | .allreduce pos slot q => Sys2Proof.Machine.execAllreduce pos slot q s
  | .reduceScatter pos slot q => Sys2Proof.Machine.execReduceScatter pos slot q s
  | .allgather pos slot q => Sys2Proof.Machine.execAllgather pos slot q s
  | .broadcast pos slot q => Sys2Proof.Machine.execBroadcast pos slot q s
  | .alltoall pos slot q => Sys2Proof.Machine.execAlltoall pos slot q s
  | .barrier pos slot q => Sys2Proof.Machine.execBarrier pos slot q s
  | .ringPass pos slot q => Sys2Proof.Machine.execRingPass pos slot q s
  | .msgSend pos slot q => Sys2Proof.Machine.execMsgSend pos slot q s
  | .wellAdd pos slot q => Sys2Proof.Machine.execWellAdd pos slot q s
  | .timedStart pos slot q => Sys2Proof.Machine.execTimedStart pos slot q s
  | .armTrig pos flit => Sys2Proof.Machine.execArmTrig pos flit s
  | .armAck pos flit => Sys2Proof.Machine.execArmAck pos flit s
  | .packetInject pos port source => Sys2Proof.Machine.execPacketInject pos port source s
  | .commandEnd pos slot q => Sys2Proof.Machine.execCommandEnd pos slot q s
  | .xlateWalkDone pos slot q => Sys2Proof.Machine.execXlateWalkDone pos slot q s
  | .xlateInv acc pos data => Sys2Proof.Machine.execXlateInv acc pos data s
  | .xlateInvDone pos => Sys2Proof.Machine.execXlateInvDone pos s
  | .preempt acc pos data => Sys2Proof.Machine.execPreempt acc pos data s
  | .preemptSaveDone pos => Sys2Proof.Machine.execPreemptSaveDone pos s
  | .preemptResume acc pos data => Sys2Proof.Machine.execPreemptResume acc pos data s
  | .scrub acc pos data => Sys2Proof.Machine.execScrub acc pos data s
  | .scrubDone pos => Sys2Proof.Machine.execScrubDone pos s
  | .laneFlit pos side ctl payload => Sys2Proof.Machine.execLaneFlit pos side ctl payload s
  | .write pos pkt => Sys2Proof.Machine.execWrite pos pkt s
  | .readReq pos pkt => Sys2Proof.Machine.execReadReq pos pkt s
  | .readRsp pos pkt => Sys2Proof.Machine.execReadRsp pos pkt s
  | .cmpl pos pkt => Sys2Proof.Machine.execCmpl pos pkt s
  | .mcWrite pos pkt => Sys2Proof.Machine.execMcWrite pos pkt s
  | .ringBlock pos pkt => Sys2Proof.Machine.execRingBlock pos pkt s
  | .ringCredit pos side ctl => Sys2Proof.Machine.execRingCredit pos side ctl s
  | .ringChunkFree pos slot q => Sys2Proof.Machine.execRingChunkFree pos slot q s
  | .msg pos pkt => Sys2Proof.Machine.execMsg pos pkt s
  | .msgPlace pos => Sys2Proof.Machine.execMsgPlace pos s
  | .msgCommit pos ring => Sys2Proof.Machine.execMsgCommit pos ring s
  | .wellAddPacket pos pkt => Sys2Proof.Machine.execWellAddPacket pos pkt s
  | .partialPkt pos pkt => Sys2Proof.Machine.execPartialPkt pos pkt s
  | .reducerFlush pos slot => Sys2Proof.Machine.execReducerFlush pos slot s
  | .redTreeEnable acc data => Sys2Proof.Machine.execRedTreeEnable acc data s
  | .redTreeDisable acc data => Sys2Proof.Machine.execRedTreeDisable acc data s
  | .subrootPartial pos pkt => Sys2Proof.Machine.execSubrootPartial pos pkt s
  | .stepTimeout pos slot => Sys2Proof.Machine.execStepTimeout pos slot s
  | .collArm acc data => Sys2Proof.Machine.execCollArm acc data s
  | .collDisarm acc data => Sys2Proof.Machine.execCollDisarm acc data s
  | .collArmDone => Sys2Proof.Machine.execCollArmDone s
  | .collAbort acc data => Sys2Proof.Machine.execCollAbort acc data s
  | .washBeat pos beat => Sys2Proof.Machine.execWashBeat pos beat s
  | .barArrive pos flit => Sys2Proof.Machine.execBarArrive pos flit s
  | .barCombined pos flit => Sys2Proof.Machine.execBarCombined pos flit s
  | .barRelease pos flit => Sys2Proof.Machine.execBarRelease pos flit s
  | .barrierWave pos slot => Sys2Proof.Machine.execBarrierWave pos slot s
  | .tppRead pos priv slot addr len id => Sys2Proof.Machine.execTppRead pos priv slot addr len id s
  | .tppWrite pos priv slot addr len id mask data => Sys2Proof.Machine.execTppWrite pos priv slot addr len id mask data s
  | .tppBitSet pos priv slot addr id data => Sys2Proof.Machine.execTppBitSet pos priv slot addr id data s
  | .tppBitClear pos priv slot addr id data => Sys2Proof.Machine.execTppBitClear pos priv slot addr id data s
  | .tppTake pos priv slot addr id => Sys2Proof.Machine.execTppTake pos priv slot addr id s
  | .tppRotate pos priv slot addr len id write data => Sys2Proof.Machine.execTppRotate pos priv slot addr len id write data s
  | .trayBankCtrlWrite acc pos data => Sys2Proof.Machine.execTrayBankCtrlWrite acc pos data s
  | .bankInitDone pos bank => Sys2Proof.Machine.execBankInitDone pos bank s
  | .trayStarve pos bank => Sys2Proof.Machine.execTrayStarve pos bank s
  | .ringEnable acc pos ring data => Sys2Proof.Machine.execRingEnable acc pos ring data s
  | .ringFlush acc pos ring data => Sys2Proof.Machine.execRingFlush acc pos ring data s
  | .ringHeadWrite acc pos ring data => Sys2Proof.Machine.execRingHeadWrite acc pos ring data s
  | .ringStall pos => Sys2Proof.Machine.execRingStall pos s
  | .wellEnable acc pos well data => Sys2Proof.Machine.execWellEnable acc pos well data s
  | .frameReceive group port frame => Sys2Proof.Machine.execFrameReceive group port frame s
  | .frameSend group port => Sys2Proof.Machine.execFrameSend group port s
  | .spEnable acc pos side data => Sys2Proof.Machine.execSpEnable acc pos side data s
  | .spRetrain acc pos side data => Sys2Proof.Machine.execSpRetrain acc pos side data s
  | .safetyRelease acc pos side data accepted => Sys2Proof.Machine.execSafetyRelease acc pos side data accepted s
  | .pmaLock group lane => Sys2Proof.Machine.execPmaLock group lane s
  | .lockTimeout group port => Sys2Proof.Machine.execLockTimeout group port s
  | .trainLimit group port => Sys2Proof.Machine.execTrainLimit group port s
  | .ident group port lane body => Sys2Proof.Machine.execIdent group port lane body s
  | .cap group port body => Sys2Proof.Machine.execCap group port body s
  | .agree group port body => Sys2Proof.Machine.execAgree group port body s
  | .deskew group port skewNs => Sys2Proof.Machine.execDeskew group port skewNs s
  | .ready group port ackSeq startSeq => Sys2Proof.Machine.execReady group port ackSeq startSeq s
  | .spareReq group port lane => Sys2Proof.Machine.execSpareReq group port lane s
  | .spareAck group port lane => Sys2Proof.Machine.execSpareAck group port lane s
  | .wlAssign group port lane wl => Sys2Proof.Machine.execWlAssign group port lane wl s
  | .rxpReport group port powers => Sys2Proof.Machine.execRxpReport group port powers s
  | .serCheck group lane => Sys2Proof.Machine.execSerCheck group lane s
  | .sparingTimeout group port => Sys2Proof.Machine.execSparingTimeout group port s
  | .relockTimeout group lane => Sys2Proof.Machine.execRelockTimeout group lane s
  | .oemiResponse group frame => Sys2Proof.Machine.execOemiResponse group frame s
  | .oemiTimeout group => Sys2Proof.Machine.execOemiTimeout group s
  | .wlLockChange group lane locked wl => Sys2Proof.Machine.execWlLockChange group lane locked wl s
  | .eyeShut group => Sys2Proof.Machine.execEyeShut group s
  | .laneFault group lane => Sys2Proof.Machine.execLaneFault group lane s
  | .readMon group readings => Sys2Proof.Machine.execReadMon group readings s
  | .peerAccess acc pos side data => Sys2Proof.Machine.execPeerAccess acc pos side data s
  | .peerAccessReceive group port write addr data tag => Sys2Proof.Machine.execPeerAccessReceive group port write addr data tag s
  | .peerResponse group port data status => Sys2Proof.Machine.execPeerResponse group port data status s
  | .peerAccessTimeout group => Sys2Proof.Machine.execPeerAccessTimeout group s
  | .spineIngress group pkt => Sys2Proof.Machine.execSpineIngress group pkt s
  | .spineEgress group vc => Sys2Proof.Machine.execSpineEgress group vc s
  | .circuitWindowStart group => Sys2Proof.Machine.execCircuitWindowStart group s
  | .circuitTrainAbandon group => Sys2Proof.Machine.execCircuitTrainAbandon group s
  | .circuitCutoff group => Sys2Proof.Machine.execCircuitCutoff group s
  | .circuitWindowEnd group => Sys2Proof.Machine.execCircuitWindowEnd group s
  | .powerOnReset glazeSel => Sys2Proof.Machine.execPowerOnReset glazeSel s
  | .systemReset => Sys2Proof.Machine.execSystemReset s
  | .bringupReload acc data => Sys2Proof.Machine.execBringupReload acc data s
  | .fuseRead words ok => Sys2Proof.Machine.execFuseRead words ok s
  | .clockStart locked => Sys2Proof.Machine.execClockStart locked s
  | .calibrate failed => Sys2Proof.Machine.execCalibrate failed s
  | .trayTest failed => Sys2Proof.Machine.execTrayTest failed s
  | .canvasRead image readOk => Sys2Proof.Machine.execCanvasRead image readOk s
  | .glazeDesc body => Sys2Proof.Machine.execGlazeDesc body s
  | .claims body => Sys2Proof.Machine.execClaims body s
  | .colmap body => Sys2Proof.Machine.execColmap body s
  | .firmware body => Sys2Proof.Machine.execFirmware body s
  | .regWriteRec body => Sys2Proof.Machine.execRegWriteRec body s
  | .routeRec body => Sys2Proof.Machine.execRouteRec body s
  | .sprayRec body => Sys2Proof.Machine.execSprayRec body s
  | .stencilRec body => Sys2Proof.Machine.execStencilRec body s
  | .collectiveRec body => Sys2Proof.Machine.execCollectiveRec body s
  | .endRec body => Sys2Proof.Machine.execEndRec body s
  | .bringupContinue acc data => Sys2Proof.Machine.execBringupContinue acc data s
  | .firmwareStart reports => Sys2Proof.Machine.execFirmwareStart reports s
  | .spinePhase timedOut => Sys2Proof.Machine.execSpinePhase timedOut s
  | .timePhase timedOut => Sys2Proof.Machine.execTimePhase timedOut s
  | .enterReady => Sys2Proof.Machine.execEnterReady s
  | .glazeSwitch acc data readOk => Sys2Proof.Machine.execGlazeSwitch acc data readOk s
  | .glazeSwitchDrain => Sys2Proof.Machine.execGlazeSwitchDrain s
  | .glazeSwitchCommit => Sys2Proof.Machine.execGlazeSwitchCommit s
  | .panelSleep panel => Sys2Proof.Machine.execPanelSleep panel s
  | .panelEntryDone panel => Sys2Proof.Machine.execPanelEntryDone panel s
  | .panelWake panel => Sys2Proof.Machine.execPanelWake panel s
  | .panelWakeDone panel => Sys2Proof.Machine.execPanelWakeDone panel s
  | .droop panel => Sys2Proof.Machine.execDroop panel s
  | .droopHoldEnd panel persists => Sys2Proof.Machine.execDroopHoldEnd panel persists s
  | .tempSample panel temp => Sys2Proof.Machine.execTempSample panel temp s
  | .powerBudget pos flit => Sys2Proof.Machine.execPowerBudget pos flit s
  | .budgetViol pos => Sys2Proof.Machine.execBudgetViol pos s
  | .railLimit rail => Sys2Proof.Machine.execRailLimit rail s
  | .capDivide => Sys2Proof.Machine.execCapDivide s
  | .powerSlack flit => Sys2Proof.Machine.execPowerSlack flit s
  | .dieShift flit => Sys2Proof.Machine.execDieShift flit s
  | .slackRoundTimeout => Sys2Proof.Machine.execSlackRoundTimeout s
  | .jobEnergyVisit pos slot => Sys2Proof.Machine.execJobEnergyVisit pos slot s
  | .jobEClr acc data => Sys2Proof.Machine.execJobEClr acc data s
  | .coolantStop => Sys2Proof.Machine.execCoolantStop s
  | .fault msg => Sys2Proof.Machine.execFault msg s
  | .pinSummary pos level => Sys2Proof.Machine.execPinSummary pos level s
  | .tileClientErr pos level => Sys2Proof.Machine.execTileClientErr pos level s
  | .chipReset => Sys2Proof.Machine.execChipReset s
  | .errPinRelease acc data => Sys2Proof.Machine.execErrPinRelease acc data s
  | .errPinMinEnd => Sys2Proof.Machine.execErrPinMinEnd s
  | .faultQuiet => Sys2Proof.Machine.execFaultQuiet s
  | .faultLogDrain => Sys2Proof.Machine.execFaultLogDrain s
  | .odlReplay kind pos output corrected rejected => Sys2Proof.Machine.execOdlReplay kind pos output corrected rejected s
  | .odlRetrainDone kind pos output ok => Sys2Proof.Machine.execOdlRetrainDone kind pos output ok s
  | .fence acc pos data => Sys2Proof.Machine.execFence acc pos data s
  | .wearUpdate => Sys2Proof.Machine.execWearUpdate s
  | .wearHistory => Sys2Proof.Machine.execWearHistory s
  | .operHour => Sys2Proof.Machine.execOperHour s
  | .soakGo acc data => Sys2Proof.Machine.execSoakGo acc data s
  | .soakStop acc data => Sys2Proof.Machine.execSoakStop acc data s
  | .soakEnd => Sys2Proof.Machine.execSoakEnd s
  | .errEntrySelWrite acc data => Sys2Proof.Machine.execErrEntrySelWrite acc data s
  | .tpSnap acc pos data => Sys2Proof.Machine.execTpSnap acc pos data s
  | .swatchArm acc pos u data => Sys2Proof.Machine.execSwatchArm acc pos u data s
  | .swatchStop acc pos u data => Sys2Proof.Machine.execSwatchStop acc pos u data s
  | .swatchScan acc pos u data => Sys2Proof.Machine.execSwatchScan acc pos u data s
  | .swatchScanDone pos u => Sys2Proof.Machine.execSwatchScanDone pos u s
  | .traceArm acc data => Sys2Proof.Machine.execTraceArm acc data s
  | .traceTrig acc data => Sys2Proof.Machine.execTraceTrig acc data s
  | .traceMode acc data => Sys2Proof.Machine.execTraceMode acc data s
  | .traceMark acc data => Sys2Proof.Machine.execTraceMark acc data s
  | .traceTrigger k => Sys2Proof.Machine.execTraceTrigger k s
  | .traceSync => Sys2Proof.Machine.execTraceSync s
  | .traceRdData acc => Sys2Proof.Machine.execTraceRdData acc s
  | .idcode => Sys2Proof.Machine.execIdcode s
  | .ijtag => Sys2Proof.Machine.execIjtag s
  | .bypass => Sys2Proof.Machine.execBypass s
  | .testLogicReset => Sys2Proof.Machine.execTestLogicReset s
  | .regAccess write force addr data => Sys2Proof.Machine.execRegAccess write force addr data s
  | .freeze => Sys2Proof.Machine.execFreeze s
  | .unfreeze => Sys2Proof.Machine.execUnfreeze s
  | .tapTraceRead unit => Sys2Proof.Machine.execTapTraceRead unit s
  | .easelHalt core => Sys2Proof.Machine.execEaselHalt core s
  | .easelResume core => Sys2Proof.Machine.execEaselResume core s
  | .easelStep core => Sys2Proof.Machine.execEaselStep core s
  | .easelRegWrite core reg value => Sys2Proof.Machine.execEaselRegWrite core reg value s
  | .easelMemWrite core addr value => Sys2Proof.Machine.execEaselMemWrite core addr value s
  | .easelBreakpoint core => Sys2Proof.Machine.execEaselBreakpoint core s
  | .hostInject port priv ctx pkt => Sys2Proof.Machine.execHostInject port priv ctx pkt s
  | .vc5Held port => Sys2Proof.Machine.execVc5Held port s
  | .memResponse pos side id data status => Sys2Proof.Machine.execMemResponse pos side id data status s
  | .memTimeout pos side id => Sys2Proof.Machine.execMemTimeout pos side id s
  | .laneLost group lane => Sys2Proof.Machine.execLaneLost group lane s
  | .laneCodewordLock group lane => Sys2Proof.Machine.execLaneCodewordLock group lane s

end Sys2Proof.Machine
end

