-- ==== Sys2Proof/Safety.lean ====
section
/-! DEFINITION. What a run keeps: the trays in their canonical form, a legal configuration and a legal TAP instruction;
and the terms that claims use: an admitted access, and what a command may touch. -/
namespace Sys2Proof.Machine

/-! ### What every step keeps -/

/-- The trays are held in their canonical form: keys strictly rising, and nothing listed that an unlisted key reads
as (a byte 0, a codeword without an error pattern). -/
def Memory.wf (t : Trays) : Bool := Store.wf (fun _ => 0) t.mem && Store.wf (fun _ => 0) t.bad

/-- The instructions of the TAP: IDCODE, IJTAG and BYPASS (R452). -/
def legalIr (i : BitVec 8) : Bool := i == 1 || i == 2 || i == 0xFF

/-- What every command keeps: the CONFIG word obeys R482, the trays are in canonical form, and the TAP holds an
instruction. -/
def Inv (s : State) : Prop :=
  Config.legal s.config = true ∧ Memory.wf s.trays = true ∧ legalIr s.tap.ir = true

/-- A step of the block is safe where it ends in a next state. -/
def StepSafe (s : State) : Prop := ∃ t, step s = .next t

/-! ### Register accesses -/

/-- A register write that its port takes and that every check passes (R9, R15, R16, R30, R333, R392, R455). -/
def Admitted (acc : Access) (a : RegAddr) (s : State) : Prop :=
  s.canIssue acc = true ∧ s.verdict acc a true = .ok

/-- A register read that its port takes and that every check passes. -/
def AdmittedRead (acc : Access) (a : RegAddr) (s : State) : Prop :=
  s.canIssue acc = true ∧ s.verdict acc a false = .ok

/-! ### Kinds of commands -/

/-- The register that a write command addresses, and who writes it; none for every other command. -/
def writeOf (i : Instr) : Option (Access × RegAddr) :=
  match i with
  | .regWr acc addr _ => some (acc, RegAddr.ofWord addr)
  | .arbCommit acc pos _ => some (acc, rtrA pos Reg.ARB_COMMIT)
  | .dieIdWrite acc _ => some (acc, dieA Reg.DIE_ID)
  | .routeEntryWrite acc pos bank index _ => some (acc, entryA pos bank index)
  | .spraySetWrite acc pos bank n _ => some (acc, sprayA pos bank n)
  | .drainHold acc _ => some (acc, dieA Reg.DRAIN_CTRL)
  | .routeSwap acc _ => some (acc, dieA Reg.ROUTE_SWAP)
  | .timeCfgWrite acc _ => some (acc, dieA Reg.TIME_CFG)
  | .timeSet acc _ => some (acc, dieA Reg.TIME_SET_LO)
  | .stencilRun acc _ => some (acc, dieA Reg.STENCIL_CTRL)
  | .stencilEpochWrite acc high _ => some (acc, dieA (if high then Reg.STENCIL_EPOCH_HI else Reg.STENCIL_EPOCH_LO))
  | .stencilSwitchArm acc _ => some (acc, dieA Reg.STENCIL_SWITCH_ARM)
  | .stencilDataAccess acc write _ => if write = true then some (acc, dieA Reg.STENCIL_DATA_LO) else none
  | .washOwnerWrite acc _ => some (acc, dieA Reg.WASH_OWNER)
  | .ctxBind acc pos _ => some (acc, tileA pos Reg.CTX_W0)
  | .ctxUnbind acc pos _ => some (acc, tileA pos Reg.CTX_W0)
  | .queueEnable acc pos slot q _ => some (acc, tileA pos (Reg.SQ_CFG slot q))
  | .queueSubmit acc pos slot q _ => some (acc, tileA pos (Reg.SQ_TAIL slot q))
  | .queueRestart acc pos slot q _ => some (acc, tileA pos (Reg.SQ_CTRL slot q))
  | .xlateResume acc pos slot q _ => some (acc, tileA pos (Reg.SQ_CTRL slot q))
  | .abort acc pos slot q _ => some (acc, tileA pos (Reg.SQ_CTRL slot q))
  | .xlateInv acc pos _ => some (acc, tileA pos Reg.XLATE_INV)
  | .preempt acc pos _ => some (acc, tileA pos Reg.PREEMPT_CTRL)
  | .preemptResume acc pos _ => some (acc, tileA pos Reg.PREEMPT_CTRL)
  | .scrub acc pos _ => some (acc, tileA pos Reg.SCRUB_CTRL)
  | .redTreeEnable acc _ => some (acc, dieA Reg.RED_TREE)
  | .redTreeDisable acc _ => some (acc, dieA Reg.RED_TREE)
  | .collArm acc _ => some (acc, dieA Reg.COLL_ARM_CTRL)
  | .collDisarm acc _ => some (acc, dieA Reg.COLL_ARM_CTRL)
  | .collAbort acc _ => some (acc, dieA Reg.COLL_ABORT_CTRL)
  | .trayBankCtrlWrite acc pos _ => some (acc, tileA pos Reg.TRAY_BANK_CTRL)
  | .ringEnable acc pos ring _ => some (acc, tileA pos (Reg.RING_CFG ring))
  | .ringFlush acc pos ring _ => some (acc, tileA pos (Reg.RING_CFG ring))
  | .ringHeadWrite acc pos ring _ => some (acc, tileA pos (Reg.RING_HEAD ring))
  | .wellEnable acc pos well _ => some (acc, tileA pos (Reg.WELL_CFG well))
  | .spEnable acc pos side _ => some (acc, edgeA pos side Reg.SP_CTRL)
  | .spRetrain acc pos side _ => some (acc, edgeA pos side Reg.SP_CTRL)
  | .safetyRelease acc pos side _ _ => some (acc, edgeA pos side Reg.SP_CTRL)
  | .peerAccess acc pos side _ => some (acc, edgeA pos side Reg.SP_PEER_CTRL)
  | .bringupReload acc _ => some (acc, dieA Reg.BRINGUP_CTRL)
  | .bringupContinue acc _ => some (acc, dieA Reg.BRINGUP_CTRL)
  | .glazeSwitch acc _ _ => some (acc, dieA Reg.GLAZE_SWITCH_CTRL)
  | .jobEClr acc _ => some (acc, dieA Reg.JOB_E_CTRL)
  | .errPinRelease acc _ => some (acc, dieA Reg.ERR_PIN)
  | .fence acc pos _ => some (acc, tileA pos Reg.TP_FENCE)
  | .soakGo acc _ => some (acc, dieA Reg.SOAK_CTRL)
  | .soakStop acc _ => some (acc, dieA Reg.SOAK_CTRL)
  | .errEntrySelWrite acc _ => some (acc, dieA Reg.ERR_ENTRY_SEL)
  | .tpSnap acc pos _ => some (acc, tileA pos Reg.TP_SNAP)
  | .swatchArm acc pos u _ => if u < 4 then some (acc, swA pos (Reg.SW_CTRL u)) else none
  | .swatchStop acc pos u _ => if u < 4 then some (acc, swA pos (Reg.SW_CTRL u)) else none
  | .swatchScan acc pos u _ => if u < 4 then some (acc, swA pos (Reg.SW_CTRL u)) else none
  | .traceArm acc _ => some (acc, dieA Reg.TRACE_CTRL)
  | .traceTrig acc _ => some (acc, dieA Reg.TRACE_CTRL)
  | .traceMode acc _ => some (acc, dieA Reg.TRACE_CTRL)
  | .traceMark acc _ => some (acc, dieA Reg.TRACE_MARK)
  | _ => none

/-- Commands whose block has no running clock while the coolant stop or a FREEZE holds (R392, R455): all but register
accesses, what the AON domain does, the bring-up that reads the fuses and the canvas, and the TAP. -/
def onClock (i : Instr) : Bool :=
  match i with
  | .regWr _ _ _ | .regRsp _ _ | .hostRspTimeout _ _ | .arbCommit _ _ _ | .dieIdWrite _ _ | .dieIdApply
  | .aonEdge _ | .routeEntryWrite _ _ _ _ _ | .spraySetWrite _ _ _ _ _ | .drainHold _ _ | .routeSwap _ _
  | .routeBankSwitch | .timeBeacon _ | .timerefEdge | .refLost | .parentLost | .timeExpired
  | .timeCfgWrite _ _ | .timeSet _ _ | .stencilEntryAdvance _ _ | .stencilRun _ _ | .stencilEpochWrite _ _ _
  | .stencilSwitchArm _ _ | .stencilBankSwitch | .stencilDataAccess _ _ _ | .washOwnerWrite _ _
  | .ctxBind _ _ _ | .ctxUnbind _ _ _ | .queueEnable _ _ _ _ _ | .queueSubmit _ _ _ _ _
  | .queueRestart _ _ _ _ _ | .xlateResume _ _ _ _ _ | .abort _ _ _ _ _ | .xlateInv _ _ _ | .preempt _ _ _
  | .preemptResume _ _ _ | .scrub _ _ _ | .redTreeEnable _ _ | .redTreeDisable _ _ | .collArm _ _
  | .collDisarm _ _ | .collAbort _ _ | .trayBankCtrlWrite _ _ _ | .ringEnable _ _ _ _ | .ringFlush _ _ _ _
  | .ringHeadWrite _ _ _ _ | .wellEnable _ _ _ _ | .spEnable _ _ _ _ | .spRetrain _ _ _ _
  | .safetyRelease _ _ _ _ _ | .peerAccess _ _ _ _ | .powerOnReset _ | .systemReset | .bringupReload _ _
  | .fuseRead _ _ | .clockStart _ | .canvasRead _ _ | .glazeDesc _ | .claims _ | .colmap _ | .firmware _
  | .regWriteRec _ | .routeRec _ | .sprayRec _ | .stencilRec _ | .collectiveRec _ | .endRec _
  | .bringupContinue _ _ | .glazeSwitch _ _ _ | .glazeSwitchDrain | .glazeSwitchCommit | .tempSample _ _
  | .jobEClr _ _ | .coolantStop | .fault _ | .pinSummary _ _ | .tileClientErr _ _ | .chipReset
  | .errPinRelease _ _ | .errPinMinEnd | .faultQuiet | .fence _ _ _ | .operHour | .soakGo _ _ | .soakStop _ _
  | .errEntrySelWrite _ _ | .tpSnap _ _ _ | .swatchArm _ _ _ _ | .swatchStop _ _ _ _ | .swatchScan _ _ _ _
  | .traceArm _ _ | .traceTrig _ _ | .traceMode _ _ | .traceMark _ _ | .traceRdData _ | .idcode | .ijtag
  | .bypass | .testLogicReset | .regAccess _ _ _ _ | .freeze | .unfreeze | .tapTraceRead _ | .easelHalt _
  | .easelResume _ | .easelRegWrite _ _ _ | .easelMemWrite _ _ _ | .vc5Held _ => false
  | _ => true

/-! ### Frames -/

/-- Every register but those listed reads as before. -/
def RegsSame (but : List RegAddr) (s t : State) : Prop :=
  ∀ a : RegAddr, (∀ b ∈ but, a.key ≠ b.key) → t.reg a = s.reg a

/-- Nothing changed but the listed registers and the response of the access (R458). -/
def OnlyRegs (but : List RegAddr) (s t : State) : Prop :=
  t = { s with regs := t.regs, hostReqs := t.hostReqs, lastRsp := t.lastRsp } ∧ RegsSame but s t

/-- Nothing changed but the listed registers. -/
def JustRegs (but : List RegAddr) (s t : State) : Prop :=
  t = { s with regs := t.regs } ∧ RegsSame but s t

/-- Nothing changed but the trace unit: its state, its two registers, and free values drawn for its time-stamps. -/
def TraceOnly (s t : State) : Prop :=
  t = { s with regs := t.regs, trace := t.trace, fresh := t.fresh } ∧
    RegsSame [dieA Reg.TRACE_STAT, dieA Reg.TRACE_LOST_CNT] s t

/-- One record of a source left a block, and no other. -/
def Raised (src : Nat) (s t : State) : Prop :=
  ∃ r, t.flt.inFlight = s.flt.inFlight ++ [r] ∧ r.source = BitVec.ofNat 8 src

/-- Every register reads as before, and every tray byte. -/
def SameRegsAndTrays (s t : State) : Prop := (∀ a : RegAddr, t.reg a = s.reg a) ∧ t.trays = s.trays

/-- Every byte of every tray reads as before, but those of one word. -/
def BytesSame (s t : State) (pos k : Nat) : Prop :=
  ∀ p off : Nat, off < 2 ^ 20 → ¬(p = pos ∧ off / 32 = k) → t.trayByte p off = s.trayByte p off

/-- Nothing changed but what one tile port reaches: its own registers and context records, the trays at its own
position, the engines, the sketch flits and faults that leave, and free values drawn. -/
def TileOnly (pos : Nat) (s t : State) : Prop :=
  t = { s with regs := t.regs, trays := t.trays, eng := t.eng, flt := t.flt, sketch := t.sketch, fresh := t.fresh } ∧
  (∀ a : RegAddr, a.key / 2 ^ 16 ≠ 2 ^ 10 + pos → a.key / 2 ^ 16 ≠ 2 ^ 16 + pos → t.reg a = s.reg a) ∧
  ∀ p off, p ≠ pos → off < 2 ^ 20 → t.trayByte p off = s.trayByte p off

/-- The same of a register access, whose response also changes. -/
def TileWrite (pos : Nat) (s t : State) : Prop :=
  TileOnly pos { s with hostReqs := t.hostReqs, lastRsp := t.lastRsp } t

/-! ### Commands of the engines -/

/-- The command rows by which an engine takes an entry: position, slot, queue and opcode (R161). -/
def takes (i : Instr) : Option (Nat × Nat × Nat × Nat) :=
  match i with
  | .copy pos slot q => some (pos, slot, q, opCOPY)
  | .strided pos slot q => some (pos, slot, q, opSTRIDED)
  | .gather pos slot q => some (pos, slot, q, opGATHER)
  | .scatter pos slot q => some (pos, slot, q, opSCATTER)
  | .mcast pos slot q => some (pos, slot, q, opMCAST)
  | .washWrite pos slot q => some (pos, slot, q, opWASH)
  | .trigger pos slot q => some (pos, slot, q, opTRIGGER)
  | .allreduce pos slot q => some (pos, slot, q, opALLREDUCE)
  | .reduceScatter pos slot q => some (pos, slot, q, opREDUCE_SCATTER)
  | .allgather pos slot q => some (pos, slot, q, opALLGATHER)
  | .broadcast pos slot q => some (pos, slot, q, opBROADCAST)
  | .alltoall pos slot q => some (pos, slot, q, opALLTOALL)
  | .barrier pos slot q => some (pos, slot, q, opBARRIER)
  | .ringPass pos slot q => some (pos, slot, q, opRING_PASS)
  | .msgSend pos slot q => some (pos, slot, q, opMSG_SEND)
  | .wellAdd pos slot q => some (pos, slot, q, opWELL_ADD)
  | _ => none

/-- The status word of a command, as software reads it out of its tray (R173). -/
def State.statusAt (s : State) (pos slot off : Nat) : Nat := ofBytes (s.trayBytes pos (s.allocBase pos slot + 16 * off) 8)

/-- A word of a tray that can be read and written: its bank is On and in service, and its codeword is intact. -/
def State.wordGood (s : State) (pos k : Nat) : Prop :=
  s.bankState pos (bankOf k) = 0 ∧ s.bankRetired pos (bankOf k) = false ∧ s.wordDecode pos k = .clean

/-- A slot's allocation lies inside its tray, and the tray inside the 1 MiB of R188. -/
def State.allocSound (s : State) (pos slot : Nat) : Prop := s.allocFits pos slot = true ∧ s.traySize ≤ 2 ^ 20

/-- Where a QUEUED command becomes RUNNING when it starts: it is no TRIGGER, the copies of its collective stand, and its
status word lies in its allocation (R159, R172, R245). -/
def State.startsWell (s : State) (pos slot : Nat) (c : Cmd) : Prop :=
  dOp c.desc ≠ opTRIGGER ∧ s.allocSound pos slot ∧ s.statusFits pos slot c = true ∧
    ∀ k, c.coll = some k → s.copiesHold pos k.index (cNroot c.desc) (dPeer c.desc) = true

/-- A command is over: none is in service at its queue, and HEAD has passed it. -/
def Over (pos slot q : Nat) (s t : State) : Prop :=
  t.cmd? pos slot q = none ∧ t.sqHead pos slot q = (s.sqHead pos slot q + 1) % 65536

/-! ### Packets -/

/-- Every tray byte reads as before, but those of one run of bytes. -/
def BytesKept (pos off n : Nat) (s t : State) : Prop :=
  ∀ p o, o < 2 ^ 20 → ¬(p = pos ∧ off ≤ o ∧ o < off + n) → t.trayByte p o = s.trayByte p o

/-- A run of bytes landed in a tray, and every other tray byte reads as before. -/
def Landed (pos off : Nat) (bs : List Byte) (s t : State) : Prop :=
  t.trayBytes pos off bs.length = bs ∧ BytesKept pos off bs.length s t

/-- A completion counter rose by 1 where it was to count, and stayed where not (R63). -/
def Counted (pos slot n : Nat) (yes : Bool) (s t : State) : Prop :=
  t.reg (tileA pos (Reg.CTR slot n)) =
    if yes then wrapAdd (s.reg (tileA pos (Reg.CTR slot n))) 1 else s.reg (tileA pos (Reg.CTR slot n))

/-- A port owes its requester a CMPL with a status, where the packet asks for one, and nothing else (R64). -/
def Answered (pos port : Nat) (p : Pkt) (status : Nat) (s t : State) : Prop :=
  if p.answered = true then
    ∃ c, t.answersAt pos port = s.answersAt pos port ++ [c] ∧ c.ty.toNat = tyCMPL ∧ c.dest = requester p ∧
      c.tword 7 0 = status ∧ c.tword 39 16 = p.seq.toNat ∧ c.ccnt = p.ccnt
  else t.answersAt pos port = s.answersAt pos port

/-- A packet was discarded at a router: DISC_BAD_CNT counts, one PKT_DISCARD record leaves, the answer is BAD_CMD, and no
other register and no tray changes (R50, R106). -/
def Discarded (pos port : Nat) (p : Pkt) (s t : State) : Prop :=
  t.reg (rtrA pos Reg.DISC_BAD_CNT) = satAdd (s.reg (rtrA pos Reg.DISC_BAD_CNT)) 1 ∧ Raised Src.PKT_DISCARD s t ∧
  RegsSame [rtrA pos Reg.DISC_BAD_CNT] s t ∧ t.trays = s.trays ∧ t.eng = s.eng ∧ Answered pos port p stBAD_CMD s t

/-- Every register outside one position's tile port and context records reads as before. -/
def RegsOfTile (pos : Nat) (s t : State) : Prop :=
  ∀ a : RegAddr, a.key / 2 ^ 16 ≠ 2 ^ 10 + pos → a.key / 2 ^ 16 ≠ 2 ^ 16 + pos → t.reg a = s.reg a

/-- Every register but the energy counters (R389) and those listed reads as before. -/
def RegsButEnergy (but : List RegAddr) (s t : State) : Prop :=
  ∀ a : RegAddr, (∀ b ∈ but, a.key ≠ b.key) →
    (∀ p k, p < 1024 → k < 64 → a.key ≠ (tileA p (Reg.ENERGY_LO k)).key ∧ a.key ≠ (tileA p (Reg.ENERGY_LO k)).key + 4) →
    a.key ≠ (dieA Reg.DIE_E_UNATTR_LO).key → a.key ≠ (dieA Reg.DIE_E_UNATTR_LO).key + 4 → t.reg a = s.reg a

/-- Every word that a run of bytes touches can be read and written. -/
def State.runGood (s : State) (pos off n : Nat) : Prop := ∀ k ∈ wordsTouched off n, s.wordGood pos k

/-- A packet's payload fits a slot's allocation, and its words can be written now. -/
def State.landsWell (s : State) (pos slot : Nat) (p : Pkt) : Prop :=
  p.payload.length = p.words ∧ s.allocSound pos slot ∧ s.landFits pos slot p = true ∧ s.landWaits pos slot p = false ∧
    s.runGood pos (s.allocBase pos slot + p.addr) (32 * p.words)

/-! ### The tray processor port -/

/-- An access of the tray processor port: position, privilege, slot, address, length, identifier, and whether its window
takes this row's kind of access (R190, R467). -/
def tppOf (i : Instr) : Option (Nat × Priv × Nat × Nat × Nat × Nat × Bool) :=
  match i with
  | .tppRead pos priv slot addr len id => some (pos, priv, slot, addr, len, id, tppPlainKind (tppWindow addr))
  | .tppWrite pos priv slot addr len id _ _ => some (pos, priv, slot, addr, len, id, tppPlainKind (tppWindow addr))
  | .tppBitSet pos priv slot addr id _ => some (pos, priv, slot, addr, 8, id, tppWindow addr == .bitSet)
  | .tppBitClear pos priv slot addr id _ => some (pos, priv, slot, addr, 8, id, tppWindow addr == .bitClear)
  | .tppTake pos priv slot addr id => some (pos, priv, slot, addr, 32, id, tppWindow addr == .take)
  | .tppRotate pos priv slot addr len id _ _ => some (pos, priv, slot, addr, len, id, tppWindow addr == .rotate)
  | _ => none

/-- Length, alignment and range of an access suit its window. -/
def State.tppShape (s : State) (addr len : Nat) : Bool :=
  tppLenOk (tppWindow addr) len && tppAligned (tppWindow addr) addr len && s.tppInside (tppWindow addr) addr len

/-- An access to tray bytes that meets every rule, and whose words can be read and written now. -/
def State.tppGood (s : State) (pos : Nat) (priv : Priv) (slot addr len : Nat) : Prop :=
  s.tppOpen pos = true ∧ s.tppShape addr len = true ∧ s.tppReach pos priv slot (tppWindow addr) addr len = true ∧
    s.banksBusy pos (s.tppOffset pos priv slot addr) len = false ∧
    s.tppOffset pos priv slot addr + len ≤ 2 ^ 20 ∧ s.runGood pos (s.tppOffset pos priv slot addr) len

/-- The processor port of a position answered with an identifier, data and an error flag. -/
def TppAnswers (pos id : Nat) (data : List Byte) (err : Bool) (t : State) : Prop :=
  t.trays.tppRsp.head? = some ⟨pos, id, data, err⟩

/-! ### Spine ports -/

/-- A spine group that exists, whose clock runs, at a router of the mesh. -/
def State.groupRuns (s : State) (g : Nat) : Prop :=
  s.spExists g = true ∧ s.stopped = false ∧ s.inMesh (s.spSite g).1 = true

/-- A spine port that exists, whose clock runs, at a router of the mesh. -/
def State.portRuns (s : State) (g p : Nat) : Prop :=
  s.spHas g p = true ∧ s.stopped = false ∧ s.inMesh (s.spSite g).1 = true

/-- Nothing changed but one spine group: its own registers, ports and lanes, the faults and trace units that leave, and
free values drawn. -/
def SpineOnly (g : Nat) (s t : State) : Prop :=
  t = { s with regs := t.regs, spine := t.spine, flt := t.flt, trace := t.trace, fresh := t.fresh } ∧
  (∀ a : RegAddr, a.key / 2 ^ 14 ≠ (s.spA g 0).key / 2 ^ 14 → a.key ≠ (dieA Reg.TRACE_STAT).key →
    a.key ≠ (dieA Reg.TRACE_LOST_CNT).key → t.reg a = s.reg a) ∧
  ∀ h, h ≠ g → t.spGroup h = s.spGroup h ∧ ∀ q < 8, t.spPort h q = s.spPort h q

/-- Where a port stands that entered WAIT_PMA: LOCK, where one of its lanes has signal already (R284). -/
def State.spWaits (t : State) (g p : Nat) : Prop := t.spState g p = if t.portSignal g p then spLOCK else spWAIT_PMA

/-- A training attempt failed (R290): its code is LAST_FAIL, the attempt counts, and the port starts again; after
RETRAIN_MAX in a row it is FAILED, reports it, and holds no packet. -/
def AttemptFailed (g p code : Nat) (s t : State) : Prop :=
  fld (t.spReg g (Reg.SP_PORT_STAT p)) 15 8 = code ∧
  t.spReg g (Reg.SP_RETRAIN_CNT p) = satAdd (s.spReg g (Reg.SP_RETRAIN_CNT p)) 1 ∧
  if max 1 (fld (s.spReg g Reg.SP_LINK_CFG) 31 24) ≤ (s.spPort g p).fails + 1 then
    t.spState g p = spFAILED ∧ Raised Src.LINK_FAIL s t ∧ (t.spPort g p).tx = []
  else (t.spPort g p).fails = (s.spPort g p).fails + 1 ∧ t.spWaits g p

/-- A packet's flits follow those of an injection buffer of a router (R92). -/
def Injected (pos input : Nat) (p : Pkt) (s t : State) : Prop :=
  (t.vcb pos input p.vc.toNat).buf ++ (t.vcb pos input p.vc.toNat).feed =
    (s.vcb pos input p.vc.toNat).buf ++ (s.vcb pos input p.vc.toNat).feed ++
      (List.range p.flits).map fun i => (⟨p, i, false⟩ : Flit)

/-! ### The canvas -/

/-- A base record, whole, that the loader takes next (R341 to R343): in its order, with its CRC right, inside IMAGE_LEN. -/
def State.recordStands (s : State) (ty : Nat) (b : List Byte) : Prop :=
  s.inCanvas = true ∧ s.load.reading = true ∧ 64 ≤ s.load.place ∧ s.load.place = s.load.image.length ∧
    s.glazeWait = false ∧ leAt b 0 2 = ty ∧ leAt b 2 1 = 255 ∧ leAt b 4 4 % 4 = 0 ∧ b.length = recBytes (leAt b 4 4) ∧
    s.load.place + b.length ≤ s.load.len ∧ s.load.order ≤ ty ∧ recordCrcOk b 0 = true

/-- A record's head as it stands in the image. -/
def State.headOf (s : State) (b : List Byte) : RecHead := { imageRecord b 0 with place := s.load.place }

/-- A valid END record for an image that it ends (R349). -/
def endsImage (image b : List Byte) : Prop :=
  leAt b 0 2 = 0xFFFF ∧ leAt b 2 1 = 255 ∧ leAt b 4 4 = 4 ∧ leAt b 8 4 = 0 ∧ b.length = 32 ∧ recordCrcOk b 0 = true ∧
    leAt b 16 4 = crc32c image

/-- A copy failed with a code at an offset (R338, R361): copy B is read next, or with copy B the die is in NO_CANVAS. -/
def CopyFailed (code off : Nat) (s t : State) : Prop :=
  if s.copyNow = 0 then
    t.phase = 5 ∧ t.copyNow = 1 ∧ (t.die Reg.LOAD_ERR_A).toNat = code * 2 ^ 24 + off ∧ t.load.place = 0 ∧ t.load.image = []
  else t.phase = 10 ∧ t.mode = 3 ∧ (t.die Reg.LOAD_ERR_B).toNat = code * 2 ^ 24 + off ∧ t.release = false

/-- Every pair of a REG_WRITE record names a router register without an action. -/
def plainPairs (r : RecHead) : Prop :=
  ∀ i < r.len / 8, let a := RegAddr.ofWord (BitVec.ofNat 32 (leAt r.body (8 * i) 4))
    a.region = 0 ∧ routeReg a.off = none ∧ a.off ≠ Reg.ARB_COMMIT ∧ a.off ≠ Reg.ONOFF_CFG

end Sys2Proof.Machine
end

