-- ==== Sys2Proof/Certificates/Slice0/Obligations.lean ====
section
/-! DEFINITION. The statements for the provers: what the commands of the block do, what they leave alone, and what every
step keeps. Each names the rules of the specification that it comes from. -/

section Slice0Statements
open Sys2Proof Sys2Proof.Machine

/-- A step with a command at the front of the queue is exec of that command on the state with the queue's rest. Tier
1; 00_scope.md. -/
def Obligations.StepRunsFrontCommand : Prop :=
  ∀ (c : Instr) (q : List Instr) (s : State), s.pending = c :: q → step s = exec c { s with pending := q }

/-- The invariant of the block holds right after reset, with an empty queue, and every register holds its reset value.
Tier 1; 11_bringup_canvas.md (R330, R331), 00_scope.md (R13), 16_implementation.md (R482). -/
def Obligations.InvariantHoldsAtReset : Prop :=
  Inv State.reset ∧ State.reset.pending = [] ∧ State.reset.phase = 0 ∧ State.reset.mode = 0 ∧
    ∀ a : RegAddr, State.reset.reg a = resetOf a

/-- Every step keeps the CONFIG word legal, the trays in canonical form, and an instruction in the TAP. Tier 3;
16_implementation.md (R482, R485), 11_bringup_canvas.md (R334), 06_trays_messages.md (R188), 14_observability.md
(R452). -/
def Obligations.EveryStepKeepsInvariant : Prop :=
  ∀ s t : State, Inv s → step s = .next t → Inv t

/-- No command changes the queue of waiting commands. Tier 2; 00_scope.md. -/
def Obligations.CommandsLeaveTheQueueAlone : Prop :=
  ∀ (i : Instr) (s t : State), exec i s = .next t → t.pending = s.pending

/-- While the coolant stop or a FREEZE halts the clocks, clocked commands and the idle block change nothing. Tier 1;
11_bringup_canvas.md (R336), 12_power_clocks.md (R392), 14_observability.md (R455). -/
def Obligations.HaltedClocksHoldEveryBlock : Prop :=
  (∀ (i : Instr) (s : State), onClock i = true → s.stopped = true → exec i s = .next s) ∧
  ∀ s : State, s.pending = [] →
    (∃ t, step s = .next t) ∧
    (s.stopped = true → step s = .next s) ∧
    (bit (s.die Reg.CLK_STAT) 31 = false → step s = .next s)

/-- A register write that a check stops leaves every register and tray as it was, records why, and answers its status.
Tier 2; 00_scope.md (R9, R16), 11_bringup_canvas.md (R333), 15_ports_registers.md (R458, R460). -/
def Obligations.RefusedWritesHaveNoEffect : Prop :=
  ∀ (i : Instr) (acc : Access) (a : RegAddr) (s : State), writeOf i = some (acc, a) →
    (s.canIssue acc = false → exec i s = .next s) ∧
    (s.canIssue acc = true → s.verdict acc a true ≠ .ok →
      ∃ t, exec i s = .next t ∧ SameRegsAndTrays s t ∧ t.spine = s.spine ∧ t.eng = s.eng ∧ t.mesh = s.mesh ∧
        (s.verdict acc a true = .stopped → t.flt = s.flt) ∧
        (s.verdict acc a true = .unmapped →
          ∃ r, t.flt.inFlight = s.flt.inFlight ++ [r] ∧ r.source = BitVec.ofNat 8 Src.ACCESS_UNMAPPED ∧
            r.arg0 = BitVec.ofNat 64 a.key) ∧
        (s.verdict acc a true = .priv →
          ∃ r, t.flt.inFlight = s.flt.inFlight ++ [r] ∧ r.source = BitVec.ofNat 8 Src.ACCESS_PRIV) ∧
        (s.verdict acc a true = .startup →
          ∃ r, t.flt.inFlight = s.flt.inFlight ++ [r] ∧ r.source = BitVec.ofNat 8 Src.BRINGUP_WRITE) ∧
        (∀ k, acc.path = .host k → t.hostReqs = s.hostReqs ++
          [⟨k, acc.tag, BitVec.ofNat 32 a.key, true, 0, (s.verdict acc a true).status⟩]))

/-- The head control block of a packet and the header of a sketch flit spell every field, and nothing else. Tier 3;
02_addresses_packets.md (R54, R60). -/
def Obligations.PacketAndFlitHeadersRoundTrip : Prop :=
  (∀ p : Pkt, Pkt.ofHeader p.header p.payload = p) ∧
  (∀ (h : BitVec 256) (ws : List DataWord), (Pkt.ofHeader h ws).header = h) ∧
  (∀ f : SFlit, SFlit.ofHeader f.header f.body = f)

/-- A tray word reads back as it was stored, its codeword clean, and every other byte of every tray stays. Tier 2;
06_trays_messages.md (R188, R189, R198). -/
def Obligations.TrayWordReadsBack : Prop :=
  ∀ (s : State) (pos k : Nat) (w : DataWord), k < 2 ^ 15 →
    (s.putWord pos k w).trayWord pos k = w ∧ (s.putWord pos k w).wordDecode pos k = .clean ∧
    BytesSame s (s.putWord pos k w) pos k ∧
    s.putWord pos k w = { s with trays := { s.trays with
      mem := (s.putWord pos k w).trays.mem, bad := (s.putWord pos k w).trays.bad } } ∧
    (Memory.wf s.trays = true → Memory.wf (s.putWord pos k w).trays = true)

/-- A REG_RSP or its timeout frees the request it answers; one that nothing waits for counts as late. Tier 2;
15_ports_registers.md (R460, R458), 01_fabric.md (R30). -/
def Obligations.HostResponseEndsItsRequest : Prop :=
  ∀ (s : State) (port : Nat) (tag : BitVec 16),
    (∀ (pre post : List HostReq) (r : HostReq), s.hostReqs = pre ++ r :: post → r.port = port → r.tag = tag →
      (∀ x ∈ pre, ¬(x.port = port ∧ x.tag = tag)) →
      exec (.regRsp port tag) s =
        .next { s with hostReqs := pre ++ post, lastRsp := s.lastRsp.set (0, 0) port (r.data, r.status) } ∧
      ∀ pos side, s.hostSite port = some (pos, side) →
        ∃ t, exec (.hostRspTimeout port tag) s = .next t ∧ t.hostReqs = pre ++ post ∧
          t.lastRsp.get (0, 0) port = (0, 3) ∧ bit (t.reg (edgeA pos side Reg.HP_STAT)) 30 = true ∧
          t.reg (edgeA pos side Reg.HP_TO_CNT) = satAdd (s.reg (edgeA pos side Reg.HP_TO_CNT)) 1 ∧
          OnlyRegs [edgeA pos side Reg.HP_STAT, edgeA pos side Reg.HP_TO_CNT] s t) ∧
    ((∀ x ∈ s.hostReqs, ¬(x.port = port ∧ x.tag = tag)) → ∀ pos side, s.hostSite port = some (pos, side) →
      ∃ t, exec (.regRsp port tag) s = .next t ∧
        t.reg (edgeA pos side Reg.HP_LATE_CNT) = satAdd (s.reg (edgeA pos side Reg.HP_LATE_CNT)) 1 ∧
        JustRegs [edgeA pos side Reg.HP_LATE_CNT] s t)

/-- An admitted REG_WR of a register without an action changes each bit by its access type, and no other register.
Tier 2; 00_scope.md (R11, R12), 15_ports_registers.md (R460). -/
def Obligations.PlainRegisterWriteByAccessType : Prop :=
  ∀ (acc : Access) (addr data : Word) (s : State) (r : RegSpec),
    let a := RegAddr.ofWord addr
    ((a.region = 0 ∧ routeReg a.off = none ∧ a.off ≠ Reg.ARB_COMMIT ∧ a.off ≠ Reg.ONOFF_CFG) ∨
      (a.region = 1 ∧ 0x2000 ≤ a.off ∧ a.off < 0x6200)) →
    Admitted acc a s → specOf a = some r →
    ∃ t, exec (.regWr acc addr data) s = .next t ∧ OnlyRegs [a] s t ∧
      ∀ i < 32, bit (t.reg a) i =
        if r.rw.testBit i then (if r.w1c.testBit i then bit data i || (bit (s.reg a) i && !bit data i) else bit data i)
        else if r.w1c.testBit i then bit (s.reg a) i && !bit data i
        else bit (s.reg a) i

/-- DIE_ID and arbitration values are staged by their writes and taken into use by DIE_ID_APPLY and ARB_COMMIT. Tier
2; 02_addresses_packets.md (R46), 00_scope.md (R14), 03_routing_arbitration.md (R102). -/
def Obligations.DieIdAndArbitrationAreShadowed : Prop :=
  (∀ (acc : Access) (data : Word) (s : State), Admitted acc (dieA Reg.DIE_ID) s →
    ∃ t, exec (.dieIdWrite acc data) s = .next t ∧ fld (t.die Reg.DIE_ID) 16 0 = fld data 16 0 ∧
      t.time.dieId = s.time.dieId ∧ t.time.idLoad = some (BitVec.ofNat 17 data.toNat) ∧
      RegsSame [dieA Reg.DIE_ID] s t ∧
      t = { s with regs := t.regs, time := { s.time with idLoad := t.time.idLoad }, hostReqs := t.hostReqs
                   lastRsp := t.lastRsp }) ∧
  (∀ (s : State) (d : BitVec 17), s.time.idLoad = some d →
    ∃ t, exec .dieIdApply s = .next t ∧ t.time.dieId = d ∧ t.time.idLoad = none ∧
      t = { s with time := { s.time with dieId := d, idLoad := none } }) ∧
  (∀ (acc : Access) (pos : Pos) (data : Word) (s : State), Admitted acc (rtrA pos Reg.ARB_COMMIT) s →
    ∃ t, exec (.arbCommit acc pos data) s = .next t ∧
      t = { s with arbLive := t.arbLive, hostReqs := t.hostReqs, lastRsp := t.lastRsp } ∧
      (bit data 0 = false → t.arbLive = s.arbLive) ∧
      (bit data 0 = true → (∀ off ∈ arbOffsets, t.arbReg pos off = s.reg (rtrA pos off)) ∧
        ∀ p off, p ≠ pos → off < 2 ^ 16 → t.arbReg p off = s.arbReg p off))

/-- A sketch flit that reaches a router joins the queue of its output, or is discarded as SKETCH_DISCARD. Tier 1;
01_fabric.md (R27, R31), 02_addresses_packets.md (R61), 13_faults_health.md (R416). -/
def Obligations.SketchFlitJoinsItsOutput : Prop :=
  ∀ (s : State) (pos : Pos) (first : Bool) (f : SFlit), s.inMesh pos = true → s.sketchRuns = true →
    (∀ goal g, (first = false ∨ flitGood f = true) → s.flitGoal f = some (goal, g) →
      s.sketchCut pos (sketchOut pos goal) = false →
      ∃ t, exec (.sketchFlitArrive pos first f) s = .next t ∧ t = { s with sketch := t.sketch } ∧
        t.sketch.waiting.get [] (sketchKey pos (sketchOut pos goal) f.kvc.toNat) =
          s.sketch.waiting.get [] (sketchKey pos (sketchOut pos goal) f.kvc.toNat) ++ [f] ∧
        ∀ k, k ≠ sketchKey pos (sketchOut pos goal) f.kvc.toNat →
          t.sketch.waiting.get [] k = s.sketch.waiting.get [] k) ∧
    ((first = true ∧ flitGood f = false) ∨ s.flitGoal f = none ∨
        (∃ goal g, s.flitGoal f = some (goal, g) ∧ s.sketchCut pos (sketchOut pos goal) = true) →
      ∃ t, exec (.sketchFlitArrive pos first f) s = .next t ∧ Raised Src.SKETCH_DISCARD s t ∧
        t.sketch.waiting = s.sketch.waiting ∧ SameRegsAndTrays s t)

/-- Each AON edge advances network time by TIME_INCR and loads an accepted TIME_SET; an upset slice reports
TIME_SLICE. Tier 2; 04_time_stencils.md (R110, R115, R142). -/
def Obligations.NetworkTimeAdvances : Prop :=
  (∀ (s : State) (reports : List TileReport), (∃ t, exec (.aonEdge reports) s = .next t) ∧
    (s.ntEdge.showHold.clocked = false → s.time.slew = 0 → s.time.setLoad = none →
      ∃ t, exec (.aonEdge reports) s = .next t ∧ t.time.edges = s.time.edges + 1 ∧
        t.time.nt.toNat * 2 ^ 32 + t.time.frac.toNat =
          (s.time.nt.toNat * 2 ^ 32 + s.time.frac.toNat + s.timeIncr) % 2 ^ 96 ∧
        t.trays = s.trays ∧ RegsSame [dieA Reg.TIME_STAT] s t) ∧
    (∀ v, s.ntEdge.showHold.clocked = false → s.time.setLoad = some v →
      ∃ t, exec (.aonEdge reports) s = .next t ∧ t.time.nt = v ∧ t.time.frac = 0 ∧ t.time.setLoad = none ∧
        t.time.edges = s.time.edges + 1 ∧ RegsSame [dieA Reg.TIME_STAT] s t)) ∧
  (∀ (s : State) (upset : List Pos), ∃ t, exec (.timeBeacon upset) s = .next t ∧ SameRegsAndTrays s t ∧
    t.time = s.time ∧ ∃ rs, t.flt.inFlight = s.flt.inFlight ++ rs ∧
      rs.map (·.pos) = upset.filter s.inMesh ∧ ∀ r ∈ rs, r.source = BitVec.ofNat 8 Src.TIME_SLICE)

/-- A watchdog expiry of a running easel core is reported; a second one within QUIET_US of it leaves the core halted.
Tier 2; 01_fabric.md (R39), 13_faults_health.md (R403). -/
def Obligations.EaselWatchdogExpires : Prop :=
  ∀ (s : State) (core : Nat), core ≤ s.masterCore → s.coreRuns core = true → s.stopped = false →
    ∃ t, exec (.easelWdt core) s = .next t ∧ SameRegsAndTrays s t ∧ t.time = s.time ∧
      (∃ r, t.flt.inFlight = s.flt.inFlight ++ [r] ∧ r.source = BitVec.ofNat 8 Src.EASEL_WDT ∧
        r.arg0 = BitVec.ofNat 64 core) ∧
      t.flt.wdtLast.find? core = some s.time.edges ∧
      (∀ e, s.flt.wdtLast.find? core = some e → s.time.edges ≤ e + s.quietEdges →
        t.coreRuns core = false ∧ t.core.mem = s.core.mem) ∧
      ((∀ e, s.flt.wdtLast.find? core = some e → e + s.quietEdges < s.time.edges) →
        t.coreRuns core = true ∧ ∀ off < 2 ^ 19, t.core.mem.get 0 (2 ^ 20 * core + 2 ^ 19 + off) = 0)

/-- The TAP's instructions select their register, FREEZE halts the clocks until UNFREEZE, and TRACE_READ returns trace
units. Tier 1; 14_observability.md (R452, R453, R455). -/
def Obligations.TapSelectsReadsAndFreezes : Prop :=
  (∀ s : State,
    (∃ t, exec .idcode s = .next t ∧ t.tap.ir = 1 ∧ t.tap.dr.toNat % 2 = 1 ∧ bitsOf t.tap.dr.toNat 31 28 = 2 ∧
      bitsOf t.tap.dr.toNat 27 12 = 0x2F17 ∧ t = { s with tap := { s.tap with ir := 1, dr := t.tap.dr } }) ∧
    (∃ t, exec .testLogicReset s = .next t ∧ exec .idcode s = .next t) ∧
    (∃ t, exec .ijtag s = .next t ∧ t.ijtag = true ∧ t = { s with tap := { s.tap with ir := 2 } }) ∧
    (∃ t, exec .bypass s = .next t ∧ t.ijtag = false ∧ t = { s with tap := { s.tap with ir := 0xFF, dr := 0 } })) ∧
  ∀ s : State, s.ijtag = true →
    (∃ t, exec .freeze s = .next t ∧ t.stopped = true ∧ t = { s with frozen := true } ∧
      (s.frozen = false → exec .unfreeze t = .next s)) ∧
    (∃ t, exec .unfreeze s = .next t ∧ t = { s with frozen := false } ∧
      t.stopped = bit (s.die Reg.COOLANT_STAT) 31) ∧
    (∀ unit, ∃ t, exec (.tapTraceRead unit) s = .next t ∧ t.tap.dr = s.trace.buf.get 0 (unit % 2 ^ 14) ∧
      t.tap.unit = (unit + 1) % 2 ^ 14 ∧ t = { s with tap := { s.tap with dr := t.tap.dr, unit := t.tap.unit } })

/-- REG_ACCESS reads and writes any mapped register with Debug privilege, forces stored bits, and answers ERR
elsewhere. Tier 2; 14_observability.md (R454), 15_ports_registers.md (R458, R459). -/
def Obligations.TapRegisterAccess : Prop :=
  ∀ (s : State) (addr data : Word), s.ijtag = true →
    let a := RegAddr.ofWord addr
    (a.region = 0 → routeReg a.off = none → a.off ≠ Reg.ARB_COMMIT → a.off ≠ Reg.ONOFF_CFG → s.stopped = false →
      s.mapped a = true →
      (∃ t, exec (.regAccess true false addr data) s = .next t ∧ t.tap.err = false ∧ t.tap.done = true ∧
        RegsSame [a] s t ∧ t = { s with regs := t.regs, tap := { s.tap with
          done := true, err := false, addr := addr, data := 0 } } ∧
        ∀ r, specOf a = some r → t.reg a = maskedValue r (s.reg a) data) ∧
      (∃ t, exec (.regAccess true true addr data) s = .next t ∧ t.reg a = data ∧ RegsSame [a] s t ∧ t.tap.err = false) ∧
      (a.off ≠ Reg.CMAP_WINDOW_ID → ¬(0x2000 ≤ a.off ∧ a.off < 0x2540) →
        ∃ t, exec (.regAccess false false addr data) s = .next t ∧ t.tap.data = s.reg a ∧ t.tap.err = false ∧
          t = { s with tap := { s.tap with done := true, err := false, addr := addr, data := s.reg a } })) ∧
    (∀ write force, s.mapped a = false ∨ (s.stopped = true ∧ a.region ≠ 3) →
      ∃ t, exec (.regAccess write force addr data) s = .next t ∧ t.tap.err = true ∧ t.tap.done = true ∧
        SameRegsAndTrays s t)

/-- EASEL_DBG halts, resumes and steps one core and writes its registers, breakpoints and memories. Tier 2;
14_observability.md (R453, R456), 01_fabric.md (R37). -/
def Obligations.EaselDebugReachesItsCore : Prop :=
  ∀ (s : State) (core : Nat), core ≤ s.masterCore →
    (s.ijtag = true →
      (s.coreRuns core = true → ∃ t, exec (.easelHalt core) s = .next t ∧ t.easel.get 0 core = 2 ∧
        (∀ c, c ≠ core → t.easel.get 0 c = s.easel.get 0 c) ∧ t = { s with easel := t.easel }) ∧
      (s.easel.get 0 core = 2 → ∃ t, exec (.easelResume core) s = .next t ∧ t.coreRuns core = true ∧
        (∀ c, c ≠ core → t.easel.get 0 c = s.easel.get 0 c) ∧ t = { s with easel := t.easel }) ∧
      (∀ reg value, reg < 32 → ∃ t, exec (.easelRegWrite core reg value) s = .next t ∧
        t.core.regs.get 0 (64 * core + reg) = value ∧
        (∀ k, k ≠ 64 * core + reg → t.core.regs.get 0 k = s.core.regs.get 0 k) ∧
        t = { s with core := { s.core with regs := t.core.regs } }) ∧
      (∀ n value, n < 4 → ∃ t, exec (.easelRegWrite core (33 + n) value) s = .next t ∧
        bit (t.core.breaks.get 0 (4 * core + n)) 0 = true ∧
        (∀ i, i ≠ 0 → bit (t.core.breaks.get 0 (4 * core + n)) i = bit value i) ∧
        t = { s with core := { s.core with breaks := t.core.breaks } }) ∧
      (∀ addr value : Word, addr.toNat < s.coreMem core → ∃ t, exec (.easelMemWrite core addr value) s = .next t ∧
        (∀ i < 4, t.core.mem.get 0 (2 ^ 20 * core + addr.toNat / 4 * 4 + i) = BitVec.ofNat 8 (value.toNat >>> (8 * i))) ∧
        (∀ k, k / 4 ≠ (2 ^ 20 * core + addr.toNat) / 4 → t.core.mem.get 0 k = s.core.mem.get 0 k) ∧
        t = { s with core := { s.core with mem := t.core.mem } }) ∧
      (s.easel.get 0 core = 2 → s.stopped = false → ∃ t, exec (.easelStep core) s = .next t ∧
        t.easel = s.easel ∧ t.core.breaks = s.core.breaks ∧ t.fresh = s.fresh + 1 ∧
        (∀ k, k / 64 ≠ core → t.core.regs.get 0 k = s.core.regs.get 0 k) ∧
        t = { s with core := t.core, fresh := t.fresh })) ∧
    (∀ b, s.coreRuns core = true → s.stopped = false →
      (((List.range 4).map fun k => s.core.breaks.get 0 (4 * core + k)).filter fun x => bit x 0) = [b] →
      ∃ t, exec (.easelBreakpoint core) s = .next t ∧ t.easel.get 0 core = 2 ∧
        t.core.regs.get 0 (64 * core) = setBit b 0 false ∧
        t = { s with core := { s.core with regs := t.core.regs }, easel := t.easel, fresh := s.fresh + 1 })

/-- An output grants a candidate of the least urgency value, higher PRIO first among equals, and keeps an owner that
still requests. Tier 2; 03_routing_arbitration.md (R98, R99, R100, R101). -/
def Obligations.ArbiterGrantsTheMostUrgent : Prop :=
  ∀ (s : State) (pos output : Nat) (w : Nat × Nat),
    ((s.outp pos output).owner = none → s.choose pos output = some w →
      w ∈ s.candidates pos output ∧ ∀ c ∈ s.candidates pos output,
        s.urgency pos w.2 (s.frontPkt pos w.1 w.2) ≤ s.urgency pos c.2 (s.frontPkt pos c.1 c.2) ∧
        (s.urgency pos w.2 (s.frontPkt pos w.1 w.2) = s.urgency pos c.2 (s.frontPkt pos c.1 c.2) →
          s.vcPrio pos c.2 ≤ s.vcPrio pos w.2)) ∧
    ((s.outp pos output).owner = some w → w ∈ s.candidates pos output →
      (fld (s.arbReg pos Reg.ARB_MARGIN) 21 16).testBit w.2 = false → s.choose pos output = some w) ∧
    (s.stopped = false → s.choose pos output = some w → (s.branches pos w).length ≤ 1 →
      (∀ p ∈ allPairs, ∀ l ∈ s.branches pos p, l.free = false) →
      ∃ t, exec (.arbitrate pos output) s = .next t ∧ (t.outp pos output).owner = some w ∧
        (∀ o, o ≠ output → t.outp pos o = s.outp pos o) ∧
        (∀ input vc, (t.vcb pos input vc).buf = (s.vcb pos input vc).buf) ∧ t.trays = s.trays)

/-- A head takes the route that its lookup decides, and a crossing flit leaves its buffer and parks the output on its
pair. Tier 2; 03_routing_arbitration.md (R72, R76, R88, R100), 02_addresses_packets.md (R56). -/
def Obligations.HeadsAreRoutedAndFlitsCross : Prop :=
  (∀ (s : State) (pos input vc : Nat) (f : Flit) (rest : List Flit) (l : List Leg) (used : Option (Nat × Nat)),
    s.stopped = false → (s.vcb pos input vc).buf = f :: rest → (s.vcb pos input vc).route = none → f.idx = 0 →
    (isInjection input && input != 13 && f.pkt.malformed) = false →
    (f.pkt.ty.toNat ≠ tyMC_WRITE ∨ s.ownDie (dieOf f.pkt.dest) = false) →
    s.decide' pos input vc f.pkt = (.legs l, used) →
    ∃ t, exec (.routeLookup pos input vc) s = .next t ∧ (t.vcb pos input vc).route = some ⟨l, 0, false, false, []⟩ ∧
      (t.vcb pos input vc).buf = f :: rest ∧ t = { s with mesh := t.mesh }) ∧
  (∀ (s : State) (pos input vc : Nat) (f : Flit) (rest : List Flit),
    s.stopped = false → (s.vcb pos input vc).buf = f :: rest → (s.vcb pos input vc).route = none → f.idx = 0 →
    isInjection input = true → input ≠ 13 → f.pkt.malformed = true →
    ∃ t, exec (.routeLookup pos input vc) s = .next t ∧
      t.reg (rtrA pos Reg.DISC_BAD_CNT) = satAdd (s.reg (rtrA pos Reg.DISC_BAD_CNT)) 1 ∧ t.trays = s.trays) ∧
  (∀ (s : State) (pos output : Nat) (w : Nat × Nat) (f : Flit) (rest : List Flit) (r : Route),
    s.stopped = false → s.crossing pos output = some w → (s.vcb pos w.1 w.2).buf = f :: rest →
    (s.vcb pos w.1 w.2).route = some r → (r.legs.all fun l => s.downOn pos l.out w.2) = true →
    ∃ t, exec (.flitCross pos output) s = .next t ∧ (t.outp pos output).parked = some w ∧
      (t.outp pos output).owner = (if f.tail then none else some w) ∧ t.trays = s.trays) ∧
  (∀ (s : State) (pos output : Nat), s.crossing pos output = none → exec (.flitCross pos output) s = .next s)

/-- A losing candidate past STARVE_LIMIT sets its flags, the first record and one ROUTER_STARVE report. Tier 2;
03_routing_arbitration.md (R103, R104). -/
def Obligations.StarvedCandidateIsFlagged : Prop :=
  ∀ (s : State) (pos input vc output : Nat), s.stopped = false → input < 14 → vc < 6 →
    (s.starveLimit pos = 0 → exec (.routerStarve pos input vc output) s = .next s) ∧
    (s.starveLimit pos ≠ 0 → s.starveLimit pos < (s.vcb pos input vc).wait → s.candidate pos output input vc = true →
      s.choose pos output ≠ some (input, vc) →
      ∃ t, exec (.routerStarve pos input vc output) s = .next t ∧
        bit (t.reg (rtrA pos Reg.STARVE_STAT)) input = true ∧ bit (t.reg (rtrA pos Reg.STARVE_STAT)) (16 + vc) = true ∧
        (s.reg (rtrA pos Reg.STARVE_STAT) ≠ 0 →
          t.reg (rtrA pos Reg.STARVE_FIRST) = s.reg (rtrA pos Reg.STARVE_FIRST)) ∧
        (s.reg (rtrA pos Reg.STARVE_STAT) = 0 → fld (t.reg (rtrA pos Reg.STARVE_FIRST)) 3 0 = input ∧
          fld (t.reg (rtrA pos Reg.STARVE_FIRST)) 6 4 = vc) ∧
        ((s.vcb pos input vc).told = false → Raised Src.ROUTER_STARVE s t) ∧
        ((s.vcb pos input vc).told = true → t.flt = s.flt) ∧ (t.vcb pos input vc).told = true ∧
        RegsSame [rtrA pos Reg.STARVE_STAT, rtrA pos Reg.STARVE_FIRST] s t ∧ t.trays = s.trays)

/-- A route entry and a spray set are stored as written; one that fails its check sets INVALID_ENTRY. Tier 2;
03_routing_arbitration.md (R80, R81, R107). -/
def Obligations.RouteTablesStoreAsWritten : Prop :=
  ∀ (acc : Access) (pos : Pos) (bank : Nat) (data : Word) (s : State), bank < 2 →
    (∀ index, index < 1216 → Admitted acc (entryA pos bank index) s →
      ∃ t, exec (.routeEntryWrite acc pos bank index data) s = .next t ∧
        fld (t.reg (entryA pos bank index)) 16 0 = fld data 16 0 ∧
        RegsSame [entryA pos bank index, rtrA pos Reg.ROUTE_FLAG_STAT, rtrA pos Reg.ROUTE_FLAG_INFO] s t ∧
        t = { s with regs := t.regs, hostReqs := t.hostReqs, lastRsp := t.lastRsp } ∧
        (let u := s.plainWrite (entryA pos bank index) data
         if bit data 16 && u.entryInvalid pos bank index (u.entry pos bank index) then
           bit (t.reg (rtrA pos Reg.ROUTE_FLAG_STAT)) 0 = true
         else RegsSame [entryA pos bank index] s t)) ∧
    (∀ n, n < 64 → Admitted acc (sprayA pos bank n) s →
      ∃ t, exec (.spraySetWrite acc pos bank n data) s = .next t ∧ t.spray pos bank n = data ∧
        t = { s with regs := t.regs, hostReqs := t.hostReqs, lastRsp := t.lastRsp } ∧
        (if (s.plainWrite (sprayA pos bank n) data).sprayInvalid pos data then
           bit (t.reg (rtrA pos Reg.ROUTE_FLAG_STAT)) 0 = true
         else RegsSame [sprayA pos bank n] s t))

/-- A drain holds its VCs, times out once, and a swap is taken only with every held VC empty. Tier 2;
03_routing_arbitration.md (R94, R96, R97). -/
def Obligations.DrainHoldTimeoutAndSwap : Prop :=
  (∀ (acc : Access) (data : Word) (s : State), Admitted acc (dieA Reg.DRAIN_CTRL) s →
    ∃ t, exec (.drainHold acc data) s = .next t ∧ t.hold = fld data 5 0 ∧ RegsSame [dieA Reg.DRAIN_CTRL] s t ∧
      t = { s with regs := t.regs, hostReqs := t.hostReqs, lastRsp := t.lastRsp, mesh := { s.mesh with
        holdSince := t.mesh.holdSince, timedOut := t.mesh.timedOut } } ∧
      ∀ v < 6, (t.hold.testBit v = true → s.hold.testBit v = false → t.mesh.holdSince.get 0 v = s.time.edges + 1) ∧
        (t.hold.testBit v = true → s.hold.testBit v = true → t.mesh.holdSince.get 0 v = s.mesh.holdSince.get 0 v)) ∧
  (∀ (vc : Nat) (s : State), s.stopped = false → s.hold.testBit vc = true → s.vcEmpty vc = false →
    s.mesh.holdSince.get 0 vc ≠ 0 → s.mesh.holdSince.get 0 vc - 1 + 100 * s.drainLimit ≤ s.time.edges →
    s.mesh.timedOut.testBit vc = false →
    ∃ t, exec (.drainTimeout vc) s = .next t ∧ bit (t.die Reg.DRAIN_STAT) 8 = true ∧ Raised Src.DRAIN_TIMEOUT s t ∧
      RegsSame [dieA Reg.DRAIN_STAT] s t ∧ t.trays = s.trays ∧ exec (.drainTimeout vc) t = .next t) ∧
  (∀ (acc : Access) (data : Word) (s : State), Admitted acc (dieA Reg.ROUTE_SWAP) s → bit data 0 = true →
    ∃ t, exec (.routeSwap acc data) s = .next t ∧
      (if s.heldEmpty then t.mesh.swapPending = true ∧ RegsSame [] s t
       else bit (t.die Reg.DRAIN_STAT) 16 = true ∧ t.mesh = s.mesh ∧ RegsSame [dieA Reg.DRAIN_STAT] s t)) ∧
  (∀ s : State, (s.mesh.swapPending = false → exec .routeBankSwitch s = .next s) ∧
    (s.mesh.swapPending = true → ∃ t, exec .routeBankSwitch s = .next t ∧ t.routeBank = 1 - s.routeBank ∧
      t.mesh = { s.mesh with swapPending := false } ∧ t.trays = s.trays ∧
      RegsSame [dieA Reg.ROUTE_BANK, dieA Reg.TRACE_STAT, dieA Reg.TRACE_LOST_CNT] s t))

/-- A window end makes the live counters the snapshot, and each panel core copies its records once. Tier 2;
03_routing_arbitration.md (R108), 14_observability.md (R435, R436). -/
def Obligations.CongestionWindowsAreSnapshots : Prop :=
  (∀ s : State, s.stopped = false →
    (bit (s.die Reg.CMAP_CTRL) 8 = false ∨ s.mesh.cmapLast = s.ntNat / 2 ^ s.cmapWin →
      exec .cmapSnapshot s = .next s) ∧
    (bit (s.die Reg.CMAP_CTRL) 8 = true → s.mesh.cmapLast ≠ s.ntNat / 2 ^ s.cmapWin →
      Store.wf (fun _ => 0) s.mesh.util = true →
      ∃ t, exec .cmapSnapshot s = .next t ∧ t.mesh.cmapId = s.mesh.cmapId + 1 ∧ t.mesh.util = [] ∧ t.mesh.hist = [] ∧
        t.mesh.liveCycles = 0 ∧ t.mesh.snapCycles = s.mesh.liveCycles ∧ t.trays = s.trays ∧
        ∀ pos o, pos < 1024 → o < 14 →
          t.reg (rtrA pos (Reg.UTIL_CNT o)) = s.mesh.util.get 0 (14 * pos + o))) ∧
  (∀ (s : State) (panel : Nat) (c : Claim), s.stopped = false → panel ∈ s.cmap.left → s.coreRuns panel = true →
    s.trayClaim 4 none = some c →
    ∃ t, exec (.cmapRecordCopy panel) s = .next t ∧ t.cmap.left = s.cmap.left.filter (fun p => p != panel) ∧
      (t.cmap.left ≠ [] → t.die Reg.CMAP_LAST = s.die Reg.CMAP_LAST) ∧
      (t.cmap.left = [] → s.masterRuns = true → t.die Reg.CMAP_LAST = s.cmap.win))

/-- The root steers network time to the nearest reference edge, free-runs without one, and ROOT makes a die the root.
Tier 2; 04_time_stencils.md (R116, R117, R121, R142). -/
def Obligations.RootFollowsItsReference : Prop :=
  (∀ s : State, (s.timeState ≠ 5 → exec .timerefEdge s = .next s) ∧
    (s.timeState = 5 → ∃ t e, exec .timerefEdge s = .next t ∧ t.die Reg.TIME_PHASE_ERR = BitVec.ofInt 32 e ∧
      t.time.slew = e ∧ t.time.refMissed = 0 ∧ (16000000 : Int) ∣ (s.ntNat : Int) + e ∧ -8000000 < e ∧ e ≤ 8000000 ∧
      t.time.nt = s.time.nt ∧ t.trays = s.trays ∧
      RegsSame [dieA Reg.TIME_PHASE_ERR, dieA Reg.TIME_INCR_LO, dieA Reg.TIME_INCR_HI] s t)) ∧
  (∀ s : State, s.timeState = 5 → ∃ t, exec .refLost s = .next t ∧ bit (t.die Reg.TIME_STAT) 20 = true ∧
    t.time.slew = 0 ∧ t.timeIncr = s.timeIncr ∧ RegsSame [dieA Reg.TIME_STAT] s t ∧ t.trays = s.trays) ∧
  (∀ (acc : Access) (data : Word) (s : State), Admitted acc (dieA Reg.TIME_CFG) s →
    ∃ t, exec (.timeCfgWrite acc data) s = .next t ∧ fld (t.die Reg.TIME_CFG) 14 8 = fld data 14 8 ∧
      fld (t.die Reg.TIME_CFG) 6 0 = fld data 6 0 ∧ bit (t.die Reg.TIME_CFG) 31 = bit data 31 ∧
      bit (t.die Reg.TIME_STAT) 23 = false ∧ t.trays = s.trays ∧ t.time.nt = s.time.nt ∧
      (bit data 31 = true → t.timeState = 5 ∧ fld (t.die Reg.TIME_STAT) 27 24 = 0) ∧
      (bit data 31 = false → s.timeState = 5 → t.timeState = 0) ∧
      (bit data 31 = false → s.timeState = 0 → t.timeState = if bit data 6 then 1 else 0) ∧
      RegsSame [dieA Reg.TIME_CFG, dieA Reg.TIME_STAT, dieA Reg.TRACE_STAT, dieA Reg.TRACE_LOST_CNT] s t)

/-- A lost parent moves a locked die to its backup or to HOLDOVER, and 5 ms of holdover stop the stencils. Tier 2;
04_time_stencils.md (R121, R122, R126). -/
def Obligations.LostParentAndExpiredHoldover : Prop :=
  (∀ s : State, s.timeState = 2 → s.parentIsLost = true →
    ∃ t, exec .parentLost s = .next t ∧ bit (t.die Reg.TIME_STAT) 19 = true ∧ t.trays = s.trays ∧
      (if bit (s.die Reg.TIME_CFG) 14 && s.time.backup.valid && !bit (s.die Reg.TIME_STAT) 23 then
         t.timeState = 2 ∧ bit (t.die Reg.TIME_STAT) 23 = true ∧ Raised Src.TIME_PARENT_LOST s t ∧
           t.time.slew = s.time.backup.lastE
       else t.timeState = 3 ∧ t.time.slew = 0 ∧ t.time.holdEdge = s.time.edges)) ∧
  (∀ s : State, (s.timeState ≠ 3 ∨ s.holdUs < 5000 → exec .timeExpired s = .next s) ∧
    (s.timeState = 3 → 5000 ≤ s.holdUs → ∃ t, exec .timeExpired s = .next t ∧ t.timeState = 4 ∧ t.stencilRun = false ∧
      t.time.gates = [] ∧ t.time.expired = true ∧
      ∃ r ∈ t.flt.inFlight, r.source = BitVec.ofNat 8 Src.TIME_EXPIRED))

/-- A reverse beacon is answered with its BSEQ, a parent's forward beacon enters its record, and each sent beacon
counts. Tier 2; 09_spine_ports.md (R289), 04_time_stencils.md (R118, R119, R123). -/
def Obligations.BeaconsAreAnsweredAndMeasured : Prop :=
  (∀ (s : State) (g p : Nat) (b : BitVec 256), s.spHas g p = true → s.stopped = false →
    (s.spState g p = spTIME ∨ s.spState g p = spACTIVE) →
    (b.toNat.testBit 16 = true → ∃ t w, exec (.beacon g p b) s = .next t ∧
      (t.spPort g p).ctl = (s.spPort g p).ctl ++ [w] ∧ bitsOf w.toNat 15 8 = bitsOf b.toNat 15 8 ∧
      w.toNat.testBit 16 = false ∧ t = { s with spine := t.spine, fresh := t.fresh }) ∧
    (b.toNat.testBit 16 = false → (s.spPort g p).t1.find? (bitsOf b.toNat 15 8) = none →
      exec (.beacon g p b) s = .next s) ∧
    (∀ t1 primary, b.toNat.testBit 16 = false → (s.spPort g p).t1.find? (bitsOf b.toNat 15 8) = some t1 →
      s.timeRole g = some primary → s.masterRuns = true → s.spState g p = spACTIVE →
      ∃ t, exec (.beacon g p b) s = .next t ∧ (t.parentRec primary).missed = 0 ∧
        (t.parentRec primary).state = bitsOf b.toNat 20 17 ∧ (t.parentRec primary).depth = bitsOf b.toNat 40 37 ∧
        t.trays = s.trays)) ∧
  (∀ (s : State) (g : Nat), s.spExists g = true → s.stopped = false →
    ∃ t, exec (.beaconSend g) s = .next t ∧ SameRegsAndTrays s t ∧
      (∀ p < s.spPorts g, s.spState g p = spTIME → ∃ w, (t.spPort g p).ctl = (s.spPort g p).ctl ++ [w] ∧
        w.toNat.testBit 16 = true) ∧
      (∀ primary, s.timeRole g = some primary → s.masterRuns = true →
        (t.parentRec primary).missed = (s.parentRec primary).missed + 1))

/-- TIME_SET loads in FREE or ROOT with RUN 0, and the epoch changes only with RUN 0; otherwise a Note, no effect.
Tier 2; 04_time_stencils.md (R130, R142), 00_scope.md (R10). -/
def Obligations.TimeAndEpochWritesAreGuarded : Prop :=
  ∀ (acc : Access) (data : Word) (s : State),
    (Admitted acc (dieA Reg.TIME_SET_LO) s → ∃ t, exec (.timeSet acc data) s = .next t ∧ SameRegsAndTrays s t ∧
      (if (s.timeState = 0 ∨ s.timeState = 5) ∧ s.stencilRun = false then
         t.time.setLoad = some (BitVec.ofNat 64 (join64 data (s.staged acc.path (dieA Reg.TIME_SET_HI)))) ∧
           t.flt = s.flt
       else t.time = s.time ∧ Raised Src.CFG_ADJUSTED s t)) ∧
    (Admitted acc (dieA Reg.STENCIL_EPOCH_HI) s → ∃ t, exec (.stencilEpochWrite acc true data) s = .next t ∧
      t.staged acc.path (dieA Reg.STENCIL_EPOCH_HI) = data ∧ SameRegsAndTrays s t ∧ t.time = s.time) ∧
    (Admitted acc (dieA Reg.STENCIL_EPOCH_LO) s → ∃ t, exec (.stencilEpochWrite acc false data) s = .next t ∧
      (if s.stencilRun then SameRegsAndTrays s t ∧ Raised Src.CFG_ADJUSTED s t
       else fld (t.die Reg.STENCIL_EPOCH_LO) 31 5 = fld data 31 5 ∧
         t.die Reg.STENCIL_EPOCH_HI = s.staged acc.path (dieA Reg.STENCIL_EPOCH_HI) ∧
         OnlyRegs [dieA Reg.STENCIL_EPOCH_LO, dieA Reg.STENCIL_EPOCH_HI] s t))

/-- RUN starts and stops every stencil, a switch needs a later NT, and takes entry 0 of the other bank at its time.
Tier 2; 04_time_stencils.md (R126, R130, R131, R132, R142). -/
def Obligations.StencilsRunAndSwitch : Prop :=
  (∀ (acc : Access) (data : Word) (s : State), Admitted acc (dieA Reg.STENCIL_CTRL) s →
    ∃ t, exec (.stencilRun acc data) s = .next t ∧ t.trays = s.trays ∧
      t.stencilRun = (bit data 0 && (s.stencilRun || !s.time.expired)) ∧
      (bit data 0 = false → s.stencilRun = true → t.time.gates = []) ∧
      (bit data 0 = true → s.stencilRun = true → t.time.gates = s.time.gates)) ∧
  (∀ (acc : Access) (data : Word) (s : State), Admitted acc (dieA Reg.STENCIL_SWITCH_ARM) s → bit data 0 = true →
    ∃ t, exec (.stencilSwitchArm acc data) s = .next t ∧ OnlyRegs [dieA Reg.STENCIL_SWITCH_ARM] s t ∧
      (if s.ntNat < s.switchAt then bit (t.die Reg.STENCIL_SWITCH_ARM) 0 = true
       else bit (t.die Reg.STENCIL_SWITCH_ARM) 1 = true ∧
         bit (t.die Reg.STENCIL_SWITCH_ARM) 0 = bit (s.die Reg.STENCIL_SWITCH_ARM) 0)) ∧
  (∀ s : State, bit (s.die Reg.STENCIL_SWITCH_ARM) 0 = true → s.switchAt ≤ s.ntNat →
    bit (s.die Reg.GLAZE_SWITCH_STAT) 31 = false →
    ∃ t, exec .stencilBankSwitch s = .next t ∧ t.stencilBank = 1 - s.stencilBank ∧
      bit (t.die Reg.STENCIL_SWITCH_ARM) 0 = false ∧ t.reg64 (dieA Reg.STENCIL_EPOCH_LO) = s.switchAt % 2 ^ 64 ∧
      (s.stencilRun = false → t.time.gates = []) ∧ t.trays = s.trays)

/-- A sequencer takes the next entry at its boundary, and STENCIL_DATA reads and writes the selected entry and steps
INDEX. Tier 2; 04_time_stencils.md (R128, R129, R130, R142), 00_scope.md (R10). -/
def Obligations.StencilEntriesAdvanceAndAreWritten : Prop :=
  (∀ (s : State) (pos point : Nat), (s.stencilRun = false → exec (.stencilEntryAdvance pos point) s = .next s) ∧
    (∀ g, s.stencilRun = true → s.hasStencil pos point = true → s.time.gates.find? (32 * pos + point) = some g →
      (s.ntNat < g.closes → exec (.stencilEntryAdvance pos point) s = .next s) ∧
      (g.closes ≤ s.ntNat → ∃ t n, exec (.stencilEntryAdvance pos point) s = .next t ∧
        n = (if entLast g.entry || g.index == 255 then 0 else g.index + 1) ∧
        t.time.gates.find? (32 * pos + point) = some ⟨n, s.stencilEntry s.stencilBank pos point n, g.closes⟩ ∧
        (∀ k, k ≠ 32 * pos + point → t.time.gates.find? k = s.time.gates.find? k) ∧
        RegsSame [dieA Reg.STENCIL_CTRL] s t ∧ t.trays = s.trays))) ∧
  (∀ (acc : Access) (data : Word) (s : State) (k : Nat), s.selectedEntry = some k →
    (Admitted acc (dieA Reg.STENCIL_DATA_LO) s → ∃ t, exec (.stencilDataAccess acc true data) s = .next t ∧
      t.time.stencils.get 0 k = BitVec.ofNat 64 (join64 data (s.staged acc.path (dieA Reg.STENCIL_DATA_HI))) ∧
      (∀ j, j ≠ k → t.time.stencils.get 0 j = s.time.stencils.get 0 j) ∧
      t.dieF Reg.STENCIL_SEL 7 0 = (s.dieF Reg.STENCIL_SEL 7 0 + 1) % 256 ∧ RegsSame [dieA Reg.STENCIL_SEL] s t) ∧
    (AdmittedRead acc (dieA Reg.STENCIL_DATA_LO) s → ∃ t, exec (.stencilDataAccess acc false data) s = .next t ∧
      t.time = s.time ∧ t.dieF Reg.STENCIL_SEL 7 0 = (s.dieF Reg.STENCIL_SEL 7 0 + 1) % 256 ∧
      t.latched acc.path (dieA Reg.STENCIL_DATA_HI) 0 = hi32 (s.time.stencils.get 0 k).toNat ∧
      (acc.path = .tap → t.lastRsp.get (0, 0) 2 = (lo32 (s.time.stencils.get 0 k).toNat, 0)))) ∧
  (∀ (acc : Access) (data : Word) (s : State), Admitted acc (dieA Reg.WASH_OWNER) s → s.washRuns = false →
    s.timeState ≠ 4 → ∃ t, exec (.washOwnerWrite acc data) s = .next t ∧
      t.time.wash = (if bit data 31 then some (mkPos (fld data 9 5) (fld data 4 0)) else none) ∧
      RegsSame [dieA Reg.WASH_OWNER] s t ∧ t.trays = s.trays)

/-- A bind writes VALID, the context and CTX_JOB where R152 permits it, and is refused elsewhere; an unbind clears
them where the slot is idle. Tier 2; 05_contexts_engines.md (R151, R152, R153). -/
def Obligations.ContextsBindAndUnbind : Prop :=
  ∀ (acc : Access) (pos : Pos) (data : Word) (s : State), pos < 1024 → Admitted acc (tileA pos Reg.CTX_W0) s →
    let slot := fld (s.reg (tileA pos Reg.CTX_SEL)) 5 0
    let w0 : RegAddr := ⟨64, pos, Reg.W_CTX 0 slot⟩
    let flags := tileA pos Reg.TP_FLAG_STAT
    (∃ t, exec (.ctxBind acc pos data) s = .next t ∧
      (s.slotValid pos slot = false → s.mayBind pos slot (fld data 11 0) = true →
        t.slotValid pos slot = true ∧ t.slotCtx pos slot = fld data 11 0 ∧ fld (t.reg w0) 30 23 = fld data 30 23 ∧
        t.homeOf (fld data 11 0) = some pos ∧ t.jobOf (fld data 11 0) = some (s.slotJob pos slot) ∧
        OnlyRegs [w0, dieA (Reg.CTX_JOB (fld data 11 0))] s t) ∧
      (s.slotValid pos slot = false → s.mayBind pos slot (fld data 11 0) = false →
        t.slotValid pos slot = false ∧ bit (t.reg flags) 0 = true ∧ Raised Src.CFG_ADJUSTED s t ∧
        RegsSame [w0, flags] s t ∧ t.trays = s.trays ∧ t.eng = s.eng) ∧
      (s.slotValid pos slot = true →
        t.slotValid pos slot = true ∧ t.slotCtx pos slot = s.slotCtx pos slot ∧
        fld (t.reg w0) 30 23 = fld data 30 23 ∧ OnlyRegs [w0] s t)) ∧
    (∃ t, exec (.ctxUnbind acc pos data) s = .next t ∧
      (s.slotValid pos slot = true → s.slotBusy pos slot = 0 → s.rdOutOf pos slot = 0 →
        t.slotValid pos slot = false ∧ t.ctxBound (s.slotCtx pos slot) = false ∧
        t.trays.lastAlloc.get (0, 0) (64 * pos + slot) = (s.allocBase pos slot, s.allocLen pos slot) ∧
        RegsSame [w0, dieA (Reg.CTX_JOB (s.slotCtx pos slot))] s t ∧
        t = { s with regs := t.regs, trays := { s.trays with lastAlloc := t.trays.lastAlloc }, hostReqs := t.hostReqs
                     lastRsp := t.lastRsp }) ∧
      (s.slotValid pos slot = true → ¬(s.slotBusy pos slot = 0 ∧ s.rdOutOf pos slot = 0) →
        t.slotValid pos slot = true ∧ bit (t.reg flags) 2 = true ∧ OnlyRegs [flags] s t) ∧
      (s.slotValid pos slot = false → t.slotValid pos slot = false ∧ OnlyRegs [w0] s t))

/-- SQ_CFG and SQ_TAIL writes are stored where they fit, and flagged where they do not; SQ_CTRL restarts a queue and
aborts its command. Tier 2; 05_contexts_engines.md (R156, R157, R159). -/
def Obligations.QueuesAreEnabledSubmittedAndStopped : Prop :=
  ∀ (acc : Access) (pos : Pos) (slot q : Nat) (data : Word) (s : State), pos < 1024 → slot < 64 → q < 4 →
    let cfg := tileA pos (Reg.SQ_CFG slot q)
    let tail := tileA pos (Reg.SQ_TAIL slot q)
    let ctrl := tileA pos (Reg.SQ_CTRL slot q)
    let flags := tileA pos Reg.TP_FLAG_STAT
    let fits := s.inAlloc pos slot (64 * fld data 19 6) (64 * 2 ^ sqLog data)
    (Admitted acc cfg s → ∃ t, exec (.queueEnable acc pos slot q data) s = .next t ∧
      (bit (s.reg cfg) 31 = false → (bit data 31 = false ∨ fits = true) →
        t.reg cfg = data &&& 0x80FFFFC0 ∧ OnlyRegs [cfg] s t) ∧
      (bit (s.reg cfg) 31 = false → bit data 31 = true → fits = false →
        bit (t.reg cfg) 31 = false ∧ bit (t.reg flags) 0 = true ∧ Raised Src.QUEUE_ERR s t ∧
        RegsSame [cfg, flags] s t ∧ t.trays = s.trays ∧ t.eng = s.eng) ∧
      (bit (s.reg cfg) 31 = true → bit (t.reg cfg) 31 = bit data 31 ∧
        (∀ i < 31, bit (t.reg cfg) i = bit (s.reg cfg) i) ∧ RegsSame [cfg] s t ∧ t.trays = s.trays ∧ t.eng = s.eng)) ∧
    (Admitted acc tail s → ∃ t, exec (.queueSubmit acc pos slot q data) s = .next t ∧
      ((fld data 15 0 + 65536 - s.sqHead pos slot q) % 65536 ≤ 2 ^ sqLog (s.sqCfg pos slot q) →
        t.sqTail pos slot q = fld data 15 0 ∧ OnlyRegs [tail] s t) ∧
      (2 ^ sqLog (s.sqCfg pos slot q) < (fld data 15 0 + 65536 - s.sqHead pos slot q) % 65536 →
        bit (t.reg flags) 1 = true ∧ Raised Src.QUEUE_ERR s t ∧ RegsSame [flags] s t ∧ t.trays = s.trays ∧
        t.eng = s.eng)) ∧
    (Admitted acc ctrl s → s.fenced pos = false → bit data 0 = false → bit data 1 = false →
      ∃ t, exec (.queueRestart acc pos slot q data) s = .next t ∧ bit (t.reg ctrl) 3 = false ∧
        bit (t.reg ctrl) 2 = bit data 2 ∧ OnlyRegs [ctrl] s t) ∧
    (Admitted acc ctrl s → ∀ c, s.cmd? pos slot q = some c → ∃ t, exec (.abort acc pos slot q data) s = .next t ∧
      t.cmd? pos slot q = some (if c.stop = 0 then { c with stop := stABORTED } else c) ∧
      (∀ k, k ≠ sqKey pos slot q → t.eng.cmds.find? k = s.eng.cmds.find? k) ∧ RegsSame [ctrl] s t ∧
      t = { s with regs := t.regs, eng := { s.eng with cmds := t.eng.cmds }, hostReqs := t.hostReqs
                   lastRsp := t.lastRsp })

/-- Every opcode row takes the entry at HEAD: QUEUED where it waits, RUNNING where it starts, FAILED and past it where
a check fails. Tier 3; 05_contexts_engines.md (R157, R159, R161, R162, R172), 05_contexts_engines.md (R171, R175),
08_collectives.md (R245). -/
def Obligations.EnginesTakeTheEntryAtHead : Prop :=
  ∀ (s : State) (c : Instr) (pos slot q op : Nat), takes c = some (pos, slot, q, op) →
    (s.mayTake pos slot q = false → exec c s = .next s) ∧
    (s.mayTake pos slot q = true → s.allocSound pos slot →
      let e := s.headEntry pos slot q
      let r := s.readEntry pos slot e.2
      let d := r.1
      let cmd := Cmd.take d e.1
      let k := r.2.2.takeCheck pos slot q cmd
      r.2.1 = false → dOp d = op →
      (k.1 ≠ 0 → ∃ t, exec c s = .next t ∧ Over pos slot q s t ∧ TileOnly pos s t ∧
        (s.inAlloc pos slot (16 * dStatus d) 8 = true →
          s.wordGood pos ((s.allocBase pos slot + 16 * dStatus d) / 32) →
          t.statusAt pos slot (dStatus d) = statusWord stateFailed k.1 0)) ∧
      (k.1 = 0 → s.inAlloc pos slot (16 * dStatus d) 8 = true →
        let waits := dArmed d || (dTimed d && decide (s.ntNat < dStart d)) || (!dTimed d && s.washWaits pos d)
        (waits = true → ∃ t cmd', exec c s = .next t ∧ t.cmd? pos slot q = some cmd' ∧ cmd'.desc = d ∧ cmd'.st = 1 ∧
          cmd'.coll = k.2 ∧ TileOnly pos s t) ∧
        (waits = false → op ≠ opTRIGGER →
          (∀ g, k.2 = some g → s.copiesHold pos g.index (cNroot d) (dPeer d) = true) →
          ∃ t cmd', exec c s = .next t ∧ t.cmd? pos slot q = some cmd' ∧ cmd'.desc = d ∧ cmd'.st = 2 ∧
            cmd'.entry = e.1 ∧ TileOnly pos s t) ∧
        (waits = false → op = opTRIGGER → ∃ t, exec c s = .next t ∧
          t.sketch.links = s.sketch.links ++ [(pos, s.armTrigOf pos slot d)] ∧ TileOnly pos s t ∧
          (descBits d 22 0 0 = 0 → Over pos slot q s t) ∧
          (descBits d 22 0 0 = 1 → ∃ cmd', t.cmd? pos slot q = some cmd' ∧ cmd'.desc = d ∧ cmd'.st = 2))))

/-- A QUEUED command starts at START_NT or when its trigger fires; an ARM_TRIG that starts nothing is a miss, one not
permitted is discarded. Tier 2; 05_contexts_engines.md (R171, R172). -/
def Obligations.TimedAndArmedCommandsStart : Prop :=
  (∀ (s : State) (pos slot q : Nat) (c : Cmd), slot < 64 → q < 4 → s.cmd? pos slot q = some c → c.st = 1 → c.stop = 0 →
    s.preempting pos slot = false → s.stopped = false → s.panelRuns pos = true → s.startsWell pos slot c →
    ((dTimed c.desc = true ∧ dStart c.desc ≤ s.ntNat) ∨ (c.fire ≠ 0 ∧ c.fire ≤ s.ntNat)) →
    ∃ t c', exec (.timedStart pos slot q) s = .next t ∧ t.cmd? pos slot q = some c' ∧ c'.desc = c.desc ∧ c'.st = 2 ∧
      TileOnly pos s t) ∧
  (∀ (s : State) (pos : Pos) (f : SFlit), s.inMesh pos = true → f.stype.toNat = 3 → s.stopped = false → pos < 1024 →
    let miss := tileA pos Reg.TRIG_MISS_CNT
    (s.fenced pos = true → ∃ t, exec (.armTrig pos f) s = .next t ∧ t.reg miss = satAdd (s.reg miss) 1 ∧
      t.eng = s.eng ∧ t.trays = s.trays ∧ RegsSame [miss] s t) ∧
    (s.fenced pos = false → s.trigAllowed pos f = false → ∃ t, exec (.armTrig pos f) s = .next t ∧
      Raised Src.SKETCH_DISCARD s t ∧ SameRegsAndTrays s t ∧ t.eng = s.eng) ∧
    (s.fenced pos = false → s.trigAllowed pos f = true →
      ((∀ k, s.trigSlot pos f = some k → s.armedQueues pos k f = []) →
        ∃ t, exec (.armTrig pos f) s = .next t ∧ t.reg miss = satAdd (s.reg miss) 1 ∧ t.eng = s.eng ∧
          t.trays = s.trays ∧ RegsSame [miss] s t) ∧
      (∀ k, s.trigSlot pos f = some k → s.armedQueues pos k f ≠ [] →
        (s.ntNat < f.field 0 8 → ∃ t, exec (.armTrig pos f) s = .next t ∧
          (∀ q ∈ s.armedQueues pos k f, ∀ c, s.cmd? pos k q = some c →
            t.cmd? pos k q = some { c with fire := f.field 0 8 }) ∧
          (f.field 8 1 % 2 = 1 → t.sketch.links = s.sketch.links ++
            [(pos, s.armAckOf pos f (s.armedQueues pos k f).length (s.slotCtx pos k))]) ∧
          t.trays = s.trays ∧ t.regs = s.regs) ∧
        (f.field 0 8 ≤ s.ntNat → (∀ q ∈ s.armedQueues pos k f, ∀ c, s.cmd? pos k q = some c → s.startsWell pos k c) →
          ∃ t, exec (.armTrig pos f) s = .next t ∧
            (∀ q ∈ s.armedQueues pos k f, ∀ c, s.cmd? pos k q = some c →
              ∃ c', t.cmd? pos k q = some c' ∧ c'.desc = c.desc ∧ c'.st = 2) ∧ TileOnly pos s t)))) ∧
  (∀ (s : State) (pos : Pos) (f : SFlit) (slot : Nat) (c : Cmd), s.inMesh pos = true → f.stype.toNat = 4 →
    s.stopped = false → s.slotOf pos f.ctx.toNat = some slot → s.cmd? pos slot 2 = some c → s.allocSound pos slot →
    ∃ t, exec (.armAck pos f) s = .next t ∧ t.eng.acks.find? pos = some (f.field 0 2, f.field 2 2) ∧ TileOnly pos s t ∧
      (dOp c.desc = opTRIGGER → c.st = 2 → c.stop = 0 → descBytes c.desc 20 2 = f.tag.toNat → Over pos slot 2 s t))

/-- PACKET_INJECT puts a port's waiting answer, or the next packet of a COPY, into its injection buffer. Tier 2;
05_contexts_engines.md (R154, R163, R164), 02_addresses_packets.md (R62), 03_routing_arbitration.md (R92). -/
def Obligations.PacketsLeaveTheirPorts : Prop :=
  (∀ (s : State) (pos : Pos) (port : Nat) (p : Pkt) (rest : List Pkt), s.stopped = false → s.inMesh pos = true →
    (port < 20 ∨ port = 31) →
    let m := answerPort port
    ¬(m = 0 ∧ s.fenced pos = true) →
    takeFirst (fun p : Pkt => s.portOpen pos (portInput m) (portPoint m) p.vc.toNat) (s.answersAt pos m) = some (p, rest) →
    ∃ t p', exec (.packetInject pos port .answers) s = .next t ∧ t.answersAt pos m = rest ∧
      (p.ty.toNat ≠ tyREAD_REQ → p' = p) ∧ p' = { p with deadline := p'.deadline } ∧
      (t.vcb pos (portInput m) p.vc.toNat).buf ++ (t.vcb pos (portInput m) p.vc.toNat).feed =
        (s.vcb pos (portInput m) p.vc.toNat).buf ++ (s.vcb pos (portInput m) p.vc.toNat).feed ++
          (List.range p.flits).map (fun i => (⟨p', i, false⟩ : Flit)) ∧
      t = { s with mesh := { s.mesh with answers := t.mesh.answers, vcs := t.mesh.vcs } }) ∧
  (∀ (s : State) (pos : Pos) (slot q : Nat) (c : Cmd), s.inMesh pos = true → pos < 1024 → slot < 64 → q < 2 →
    let u := s.noteProgress pos slot q
    let d := c.desc
    u.cmd? pos slot q = some c → u.injectStopped pos slot c = false → c.st = 2 → c.issued < totalWords d →
    dOp d = opCOPY → dLane d = 0 → dReads d = false → dVirtual d = false → u.mayInject pos slot (dVc d) = true →
    u.allocSound pos slot → u.statusFits pos slot c = true →
    let n := (nextPiece d c.issued (dFar d)).2.2
    let r := u.readRun pos slot (dLocal d + 32 * c.issued) (32 * n)
    r.2.1 = false →
    ∃ t c' p, exec (.packetInject pos 0 (.queue slot q)) s = .next t ∧ t.cmd? pos slot q = some c' ∧ c'.desc = d ∧
      c'.issued = c.issued + n ∧
      fld (t.ctxWord pos slot 7) 23 0 = (fld (u.ctxWord pos slot 7) 23 0 + 1) % 2 ^ 24 ∧
      p.ty.toNat = tyWRITE ∧ p.dest.toNat = dPeer d ∧ p.payload = bytesWords n r.1 ∧
      (t.vcb pos 0 (dVc d)).buf ++ (t.vcb pos 0 (dVc d)).feed =
        (u.vcb pos 0 (dVc d)).buf ++ (u.vcb pos 0 (dVc d)).feed ++
          (List.range p.flits).map (fun i => (⟨p, i, false⟩ : Flit)) ∧
      ∀ a : RegAddr, a.key / 2 ^ 16 ≠ 2 ^ 10 + pos → a.key / 2 ^ 16 ≠ 2 ^ 16 + pos → t.reg a = u.reg a)

/-- COMMAND_END writes the final status and passes HEAD; a finished walk fills the cache, a failed one pauses its
command. Tier 2; 05_contexts_engines.md (R159, R173, R176, R180, R182). -/
def Obligations.CommandsEndAndWalksFill : Prop :=
  (∀ (s : State) (pos slot q : Nat) (c : Cmd), slot < 64 → q < 4 → s.cmd? pos slot q = some c → s.stopped = false →
    s.preempting pos slot = false → s.feedPkt pos slot q = none → s.allocSound pos slot →
    let ends := c.stop != 0 || (c.st == 2 && s.workDone pos slot c)
    let code := if c.stop ≠ 0 then c.stop else c.fail
    (ends = true → ∃ t, exec (.commandEnd pos slot q) s = .next t ∧ Over pos slot q s t ∧ TileOnly pos s t ∧
      (code < 256 → s.statusFits pos slot c = true → s.wordGood pos ((s.allocBase pos slot + 16 * dStatus c.desc) / 32) →
        t.statusAt pos slot (dStatus c.desc) =
          if code = 0 then statusWord stateDone stDONE c.progress else statusWord stateFailed code c.progress)) ∧
    (ends = false → exec (.commandEnd pos slot q) s = .next s)) ∧
  (∀ (s : State) (pos slot q : Nat) (c : Cmd) (w : Walk), slot < 64 → q < 4 → s.cmd? pos slot q = some c → s.stopped = false →
    c.walk = some w → w.asked = false →
    (w.kind = 7 → ∃ t e, exec (.xlateWalkDone pos slot q) s = .next t ∧
      t.cmd? pos slot q = some { c with walk := none } ∧ (t.eng.tlb.get [] pos).head? = some e ∧
      e.ctx = s.slotCtx pos slot ∧ e.leaf = w.leaf ∧ e.page ≤ w.va ∧ w.va < e.page + 2 ^ e.bits ∧
      t = { s with eng := { s.eng with cmds := t.eng.cmds, tlb := t.eng.tlb } }) ∧
    (w.kind ≠ 7 → w.kind ≠ 0 → s.allocSound pos slot → s.statusFits pos slot c = true →
      s.inAlloc pos slot (256 * fld (s.ctxWord pos slot 3) 11 0) 256 = true →
      ∃ t c' r, exec (.xlateWalkDone pos slot q) s = .next t ∧ t.cmd? pos slot q = some c' ∧
        ((c'.st = 3 ∧ c'.why = stXLATE_FAULT) ∨ c'.stop = stDATA_LOSS) ∧ t.flt.inFlight.getLast? = some r ∧
        r.source = BitVec.ofNat 8 Src.XLATE_FAULT ∧ r.arg0 = BitVec.ofNat 64 w.va ∧ TileOnly pos s t))

/-- XLATE_INV removes a page or a context from the cache and ends when the port is idle; XLATE_RESUME continues a
faulted command. Tier 2; 05_contexts_engines.md (R181, R182, R185). -/
def Obligations.TranslationsAreRemovedAndResumed : Prop :=
  (∀ (acc : Access) (pos : Pos) (data : Word) (s : State), pos < 1024 → Admitted acc (tileA pos Reg.XLATE_INV) s →
    let va := s.reg64 (tileA pos Reg.XLATE_INV_VA_LO)
    let hit := fun e : TlbEntry => e.ctx == fld data 11 0 &&
      (bit data 30 || (decide (e.page ≤ va) && decide (va < e.page + 2 ^ e.bits)))
    ∃ t, exec (.xlateInv acc pos data) s = .next t ∧ RegsSame [tileA pos Reg.XLATE_INV] s t ∧
      (bit data 31 = false → OnlyRegs [tileA pos Reg.XLATE_INV] s t) ∧
      (bit data 31 = true → t.eng.tlb.get [] pos = (s.eng.tlb.get [] pos).filter (fun e => !hit e) ∧
        (∀ p, p ≠ pos → t.eng.tlb.get [] p = s.eng.tlb.get [] p) ∧ t.eng.inval.get 0 pos = 1 ∧
        t = { s with regs := t.regs, eng := { s.eng with tlb := t.eng.tlb, inval := t.eng.inval }
                     hostReqs := t.hostReqs, lastRsp := t.lastRsp })) ∧
  (∀ (s : State) (pos : Pos), s.stopped = false → s.eng.inval.get 0 pos = 1 → s.localIdle pos = true →
    ∃ t, exec (.xlateInvDone pos) s = .next t ∧ bit (t.reg (tileA pos Reg.XLATE_INV_STAT)) 0 = true ∧
      t.eng.inval.get 0 pos = 0 ∧ RegsSame [tileA pos Reg.XLATE_INV_STAT] s t ∧
      t = { s with regs := t.regs, eng := { s.eng with inval := t.eng.inval } }) ∧
  (∀ (acc : Access) (pos : Pos) (slot q : Nat) (data : Word) (s : State) (c : Cmd), pos < 1024 → slot < 64 → q < 4 →
    Admitted acc (tileA pos (Reg.SQ_CTRL slot q)) s → bit data 0 = false → s.cmd? pos slot q = some c →
    c.st = 3 → c.why = stXLATE_FAULT → c.stop = 0 → s.preempting pos slot = false → s.allocSound pos slot →
    let w := s.plainWrite (tileA pos (Reg.SQ_CTRL slot q))
      (if s.fenced pos then setBit (setBit data 1 true) 3 false else setBit data 1 true)
    let r := w.loadRecord pos slot q
    let e := r.2.2.readEntry pos slot (64 * fld (w.sqCfg pos slot q) 19 6 +
      64 * (bitsOf r.1 79 64 % 2 ^ sqLog (w.sqCfg pos slot q)))
    let good := r.2.1 = false ∧ e.2.1 = false ∧ entryCheck e.1 = bitsOf r.1 95 80 ∧ dOp e.1 = bitsOf r.1 103 96
    ∃ t, exec (.xlateResume acc pos slot q data) s = .next t ∧ TileWrite pos s t ∧
      (good → c.coll = none → s.inAlloc pos slot (16 * dStatus e.1) 8 = true →
        ∃ c', t.cmd? pos slot q = some c' ∧ c'.desc = e.1 ∧ c'.why = 0 ∧ c'.walk = none ∧
          c'.st = if bitsOf r.1 63 60 = stateQueued then 1 else 2) ∧
      (¬good → Over pos slot q s t))

/-- PREEMPT holds a slot's queues and pauses its commands until RESUME; SCRUB zeroes what an unbound slot leaves
behind. Tier 2; 05_contexts_engines.md (R183, R185, R187). -/
def Obligations.PreemptionPausesAndScrubsClear : Prop :=
  (∀ (acc : Access) (pos : Pos) (data : Word) (s : State), pos < 1024 → Admitted acc (tileA pos Reg.PREEMPT_CTRL) s →
    let slot := fld data 5 0
    let stat := tileA pos Reg.PREEMPT_STAT
    let regs := [tileA pos Reg.PREEMPT_CTRL, stat, tileA pos (Reg.SQ_CTRL slot 0), tileA pos (Reg.SQ_CTRL slot 1),
      tileA pos (Reg.SQ_CTRL slot 2), tileA pos (Reg.SQ_CTRL slot 3)]
    (bit (s.reg stat) 31 = true →
      (bit data 31 = true → ∃ t, exec (.preempt acc pos data) s = .next t ∧ bit (t.reg stat) 29 = true ∧ OnlyRegs [stat] s t) ∧
      (∃ t, exec (.preemptResume acc pos data) s = .next t ∧ bit (t.reg stat) 29 = true ∧ OnlyRegs [stat] s t)) ∧
    (bit (s.reg stat) 31 = false → s.allocSound pos slot →
      s.inAlloc pos slot (256 * fld (s.ctxWord pos slot 3) 11 0) 256 = true →
      (∀ q < 4, ∀ c, s.cmd? pos slot q = some c → s.statusFits pos slot c = true) →
      (bit data 31 = true → ∃ t, exec (.preempt acc pos data) s = .next t ∧ TileWrite pos s t ∧ bit (t.reg stat) 31 = true ∧
        t.preempting pos slot = true ∧ (∀ q < 4, bit (t.sqCtrl pos slot q) 2 = true) ∧
        ((∀ q < 4, s.cmd? pos slot q = none) → fld (t.reg stat) 3 0 = 15 ∧ OnlyRegs regs s t) ∧
        (s.localIdle pos = true → ∀ q < 4, ∀ c, s.cmd? pos slot q = some c →
          ∃ c', t.cmd? pos slot q = some c' ∧ (c'.st = 3 ∨ c'.stop = stDATA_LOSS))) ∧
      (bit data 31 = false → ∃ t, exec (.preemptResume acc pos data) s = .next t ∧ TileWrite pos s t ∧
        (∀ q < 4, bit (t.sqCtrl pos slot q) 2 = false) ∧
        ((∀ q < 4, s.cmd? pos slot q = none) → OnlyRegs regs s t) ∧
        (∀ q < 4, ∀ c, s.cmd? pos slot q = some c → c.st = 3 → c.why = stPAUSED → c.stop = 0 →
          Over pos slot q s t ∨ ∃ c', t.cmd? pos slot q = some c' ∧ c'.why = 0 ∧ (c'.st = 1 ∨ c'.st = 2))))) ∧
  (∀ (s : State) (pos : Pos), s.stopped = false → bit (s.reg (tileA pos Reg.PREEMPT_STAT)) 31 = true →
    fld (s.reg (tileA pos Reg.PREEMPT_STAT)) 3 0 = 15 →
    ∃ t, exec (.preemptSaveDone pos) s = .next t ∧ bit (t.reg (tileA pos Reg.PREEMPT_STAT)) 31 = false ∧
      JustRegs [tileA pos Reg.PREEMPT_STAT] s t) ∧
  (∀ (acc : Access) (pos : Pos) (data : Word) (s : State), pos < 1024 → Admitted acc (tileA pos Reg.SCRUB_CTRL) s →
    let slot := fld data 5 0
    bit data 31 = true →
    (s.slotValid pos slot = true → ∃ t, exec (.scrub acc pos data) s = .next t ∧
      bit (t.reg (tileA pos Reg.TP_FLAG_STAT)) 2 = true ∧
      OnlyRegs [tileA pos Reg.SCRUB_CTRL, tileA pos Reg.TP_FLAG_STAT] s t) ∧
    (s.slotValid pos slot = false → s.scrubClear pos slot = true → ∃ t, exec (.scrub acc pos data) s = .next t ∧
      bit (t.reg (tileA pos Reg.SCRUB_STAT)) 0 = true ∧ t.trays.scrubbing.get 0 pos = slot + 1 ∧
      RegsSame [tileA pos Reg.SCRUB_CTRL, tileA pos Reg.SCRUB_STAT] s t ∧ t.trays.mem = s.trays.mem ∧ t.eng = s.eng)) ∧
  (∀ (s : State) (pos : Pos) (slot : Nat), s.stopped = false → slot < 64 → pos < 1024 →
    s.trays.scrubbing.get 0 pos = slot + 1 →
    let r := s.trays.lastAlloc.get (0, 0) (64 * pos + slot)
    ∃ t, exec (.scrubDone pos) s = .next t ∧ bit (t.reg (tileA pos Reg.SCRUB_STAT)) 0 = false ∧
      bit (t.reg (tileA pos Reg.SCRUB_STAT)) 1 = true ∧ t.trays.scrubbing.get 0 pos = 0 ∧
      (∀ n < 64, t.reg (tileA pos (Reg.CTR slot n)) = 0) ∧ (∀ w < 16, t.ctxWord pos slot w = 0) ∧
      (∀ q < 4, t.sqCfg pos slot q = 0 ∧ t.sqTail pos slot q = 0 ∧ t.sqHead pos slot q = 0 ∧ t.sqCtrl pos slot q = 0) ∧
      (∀ p off, off < 2 ^ 20 → t.trayByte p off =
        if p = pos ∧ r.1 ≤ off ∧ off < r.1 + r.2 then 0 else s.trayByte p off) ∧
      ∀ a : RegAddr, a.key / 2 ^ 16 ≠ 2 ^ 10 + pos → a.key / 2 ^ 16 ≠ 2 ^ 16 + pos → t.reg a = s.reg a)

/-- A delivered WRITE, MC_WRITE or lane flit lands in the allocation, counts and is answered; one that no context
takes is discarded. Tier 2; 02_addresses_packets.md (R50, R57, R63, R64), 05_contexts_engines.md (R149, R168, R170),
06_trays_messages.md (R189). -/
def Obligations.DeliveriesLandAndCount : Prop :=
  (∀ (s : State) (pos : Pos) (p : Pkt), s.inMesh pos = true → s.stopped = false →
    let bs := p.payload.flatMap wordBytes
    (p.ty.toNat = tyWRITE → adPort p.dest < 16 →
      (∀ slot, s.unicastSlot pos p = some slot → s.ringCreditOf pos slot p = none → s.landsWell pos slot p →
        ∃ t, exec (.write pos p) s = .next t ∧ Landed pos (s.allocBase pos slot + p.addr) bs s t ∧
          Counted pos slot p.ccnt.toNat p.cnt s t ∧ Answered pos 0 p stDONE s t ∧ RegsOfTile pos s t ∧
          t.flt = s.flt ∧ t.eng.cmds = s.eng.cmds) ∧
      (s.unicastSlot pos p = none → ∃ t, exec (.write pos p) s = .next t ∧ Discarded pos 0 p s t)) ∧
    (p.ty.toNat = tyMC_WRITE →
      (∀ slot, s.jobSlot pos p = some slot → s.cmd? pos slot 2 = none → s.landsWell pos slot p →
        ∃ t, exec (.mcWrite pos p) s = .next t ∧ Landed pos (s.allocBase pos slot + p.addr) bs s t ∧
          Counted pos slot p.ccnt.toNat p.cnt s t ∧ Answered pos 0 p stDONE s t ∧ RegsOfTile pos s t ∧
          t.flt = s.flt ∧ t.eng.cmds = s.eng.cmds) ∧
      (s.jobSlot pos p = none → ∃ t, exec (.mcWrite pos p) s = .next t ∧ Discarded pos 0 p s t))) ∧
  (∀ (s : State) (pos : Pos) (side slot : Nat) (ctl : BitVec 256) (payload : List DataWord), s.inMesh pos = true →
    s.stopped = false → side < 4 → 1 ≤ payload.length →
    let n := ctl.toNat
    let words := payload.take (bitsOf n 14 13 + 1)
    let off := s.allocBase pos slot + bitsOf n 41 22
    s.slotOf pos (bitsOf n 11 0) = some slot → s.inAlloc pos slot (bitsOf n 41 22) (32 * words.length) = true →
    s.banksBusy pos off (32 * words.length) = false → s.allocSound pos slot → s.runGood pos off (32 * words.length) →
    bitsOf n 45 42 ≠ 1 →
    ∃ t, exec (.laneFlit pos side ctl payload) s = .next t ∧ Landed pos off (words.flatMap wordBytes) s t ∧
      Counted pos slot (bitsOf n 21 16) (n.testBit 12 && n.testBit 15) s t ∧ RegsOfTile pos s t ∧
      t.eng.lanes.get [] (4 * pos + side) = (s.eng.lanes.get [] (4 * pos + side)).erase (ctl, payload) ∧
      t.flt = s.flt ∧ t.eng.cmds = s.eng.cmds)

/-- A READ_REQ is answered with the words it names, a READ_RSP or CMPL completes the read it answers, and a walker's
answer advances its walk. Tier 2; 02_addresses_packets.md (R57, R63, R64), 05_contexts_engines.md (R175, R176, R177,
R180). -/
def Obligations.ReadsAreServedAndReturn : Prop :=
  (∀ (s : State) (pos : Pos) (p : Pkt) (slot : Nat), s.inMesh pos = true → s.stopped = false →
    p.ty.toNat = tyREAD_REQ → adPort p.dest < 16 → s.unicastSlot pos p = some slot →
    let off := s.allocBase pos slot + p.addr
    p.addr < 2 ^ 20 → s.inAlloc pos slot p.addr (32 * memWords p) = true →
    s.banksBusy pos off (32 * memWords p) = false → s.runGood pos off (32 * memWords p) →
    ∃ t r, exec (.readReq pos p) s = .next t ∧ t.answersAt pos 0 = s.answersAt pos 0 ++ [r] ∧
      r.ty.toNat = tyREAD_RSP ∧ r.dest = requester p ∧ r.seq = p.seq ∧
      r.payload = bytesWords (memWords p) (s.trayBytes pos off (32 * memWords p)) ∧ t.trays = s.trays ∧
      RegsOfTile pos s t ∧ t.eng.cmds = s.eng.cmds) ∧
  (∀ (s : State) (pos : Pos) (p : Pkt) (slot q first n : Nat) (c : Cmd), s.inMesh pos = true → s.stopped = false →
    adPort p.dest < 16 → p.ctx ≠ 0 → s.unicastSlot pos p = some slot → s.allocSound pos slot →
    s.statusFits pos slot c = true →
    (p.ty.toNat = tyREAD_RSP → s.landsWell pos slot p →
      s.readOf pos slot p.tag.toNat p.seq.toNat = some (q, c, first, n) →
      ∃ t c', exec (.readRsp pos p) s = .next t ∧ t.cmd? pos slot q = some c' ∧ c'.desc = c.desc ∧
        c'.reads = c.reads.filter (fun r => r.1 != p.seq.toNat) ∧ c'.fail = c.fail ∧
        t.rdOutOf pos slot = s.rdOutOf pos slot - 1 ∧ Counted pos slot p.ccnt.toNat p.cnt s t ∧ RegsOfTile pos s t ∧
        ∀ i < 32 * p.words, ¬(s.allocBase pos slot + 16 * dStatus c.desc ≤ s.allocBase pos slot + p.addr + i ∧
            s.allocBase pos slot + p.addr + i < s.allocBase pos slot + 16 * dStatus c.desc + 8) →
          t.trayByte pos (s.allocBase pos slot + p.addr + i) = (p.payload.flatMap wordBytes).getD i 0) ∧
    (p.ty.toNat = tyCMPL → p.cnt = false → p.tword 43 40 = tyREAD_REQ → p.tword 7 0 ≠ stDONE →
      s.readOf pos slot p.tag.toNat (p.tword 39 16) = some (q, c, first, n) →
      ∃ t c', exec (.cmpl pos p) s = .next t ∧ t.cmd? pos slot q = some c' ∧
        c'.reads = c.reads.filter (fun r => r.1 != p.tword 39 16) ∧
        c'.fail = (if c.fail = 0 then p.tword 7 0 else c.fail) ∧ t.rdOutOf pos slot = s.rdOutOf pos slot - 1 ∧
        TileOnly pos { s with mesh := t.mesh } t)) ∧
  (∀ (s : State) (pos : Pos) (p : Pkt) (slot : Nat), s.inMesh pos = true → s.stopped = false →
    adPort p.dest < 16 → p.ctx ≠ 0 → p.ty.toNat = tyCMPL → s.unicastSlot pos p = some slot → p.cnt = true →
    p.tword 43 40 ≠ tyREAD_REQ →
    let err := tileA pos (if p.ccnt.toNat < 32 then Reg.CTR_ERR_LO slot else Reg.CTR_ERR_HI slot)
    ∃ t, exec (.cmpl pos p) s = .next t ∧ Counted pos slot p.ccnt.toNat true s t ∧ t.trays = s.trays ∧
      bit (t.reg err) (p.ccnt.toNat % 32) = (bit (s.reg err) (p.ccnt.toNat % 32) || (p.tword 7 0 != stDONE)) ∧
      RegsSame [tileA pos (Reg.CTR slot p.ccnt.toNat), err] s t) ∧
  (∀ (s : State) (pos : Pos) (p : Pkt) (c : Cmd) (w : Walk), s.inMesh pos = true → s.stopped = false →
    adPort p.dest < 16 → p.ctx = 0 → s.cmd? pos (p.tag.toNat % 64) (p.tag.toNat / 64) = some c → c.walk = some w →
    w.asked = true →
    let lane := 8 * (w.addr % 32)
    let entry := BitVec.ofNat 64 (bitsOf (p.payload.headD 0).toNat (lane + 63) lane)
    (p.ty.toNat = tyREAD_RSP → ∃ t, exec (.readRsp pos p) s = .next t ∧ SameRegsAndTrays s t ∧
      t.cmd? pos (p.tag.toNat % 64) (p.tag.toNat / 64) =
        some { c with walk := some (w.advance (Config.mports s.config) (!dReads c.desc) entry) }) ∧
    (p.ty.toNat = tyCMPL → ∃ t, exec (.cmpl pos p) s = .next t ∧ SameRegsAndTrays s t ∧
      t.cmd? pos (p.tag.toNat % 64) (p.tag.toNat / 64) =
        some { c with walk := some { w with asked := false, kind := 5 } }))

/-- A memory request takes an identifier; its response, failure or timeout ends it and is answered; an identifier that
timed out is quarantined. Tier 2; 15_ports_registers.md (R470, R471). -/
def Obligations.MemoryPortsAnswerTheirRequests : Prop :=
  ∀ (s : State) (pos : Pos) (side : Nat), s.inMesh pos = true → s.stopped = false → side < 4 → s.isMem pos side = true →
    (∀ (p : Pkt) (id : Nat), adPort p.dest = 16 + side → memWords p ≤ 128 → p.addr % 32 = 0 →
      s.halfInReset pos side = false → s.memRateOk pos side p = true → s.freeId pos side = some id →
      (p.ty.toNat = tyWRITE → ∃ t, exec (.write pos p) s = .next t ∧
        t.mem.reqs.find? (1024 * halfKey pos side + id) = some ⟨p, s.time.edges⟩ ∧ t.trays = s.trays ∧
        RegsButEnergy [] s t) ∧
      (p.ty.toNat = tyREAD_REQ → ∃ t, exec (.readReq pos p) s = .next t ∧
        t.mem.reqs.find? (1024 * halfKey pos side + id) = some ⟨p, s.time.edges⟩ ∧ t.trays = s.trays ∧
        RegsButEnergy [] s t)) ∧
    (∀ (id : Nat) (r : MemReq), id < 1024 →
      let key := 1024 * halfKey pos side + id
      (∀ (data : List DataWord) (status : BitVec 2), s.halfDeaf pos side = false →
        (s.mem.quar.contains key = true → ∃ t, exec (.memResponse pos side id data status) s = .next t ∧
          t.reg (edgeA pos side Reg.MP_LATE_CNT) =
            satAdd (s.reg (edgeA pos side Reg.MP_LATE_CNT)) (max 1 (ceilDiv data.length 8)) ∧
          JustRegs [edgeA pos side Reg.MP_LATE_CNT] s t) ∧
        (s.mem.quar.contains key = false → s.mem.reqs.find? key = some r →
          ∃ t, exec (.memResponse pos side id data status) s = .next t ∧ t.mem.reqs.find? key = none ∧ t.trays = s.trays ∧
            (status = 0 → r.pkt.ty.toNat = tyREAD_REQ → ∃ x, t.answersAt pos (16 + side) =
              s.answersAt pos (16 + side) ++ [x] ∧ x.ty.toNat = tyREAD_RSP ∧ x.dest = requester r.pkt ∧
              x.payload = (data ++ List.replicate (memWords r.pkt) 0).take (memWords r.pkt) ∧ t.regs = s.regs) ∧
            (status = 0 → r.pkt.ty.toNat ≠ tyREAD_REQ → Answered pos (16 + side) r.pkt stDONE s t ∧ t.regs = s.regs) ∧
            (status = 2 → Raised Src.PKT_DISCARD s t ∧ Answered pos (16 + side) r.pkt stBAD_CMD s t ∧ t.regs = s.regs) ∧
            (status ≠ 0 → status ≠ 2 → Raised Src.MEM_UE s t ∧ Answered pos (16 + side) r.pkt stDATA_LOSS s t ∧
              t.reg (edgeA pos side Reg.MP_UE_CNT) = satAdd (s.reg (edgeA pos side Reg.MP_UE_CNT)) 1 ∧
              RegsSame [edgeA pos side Reg.MP_UE_CNT] s t))) ∧
      (s.mem.reqs.find? key = some r →
        (r.edge + s.memLimit pos side ≤ s.time.edges → ∃ t, exec (.memTimeout pos side id) s = .next t ∧
          t.mem.reqs.find? key = none ∧ t.mem.quar = key :: s.mem.quar ∧ Raised Src.MEM_UE s t ∧
          t.reg (edgeA pos side Reg.MP_TO_CNT) = satAdd (s.reg (edgeA pos side Reg.MP_TO_CNT)) 1 ∧
          Answered pos (16 + side) r.pkt stDATA_LOSS s t ∧ RegsSame [edgeA pos side Reg.MP_TO_CNT] s t ∧
          t.trays = s.trays) ∧
        (s.time.edges < r.edge + s.memLimit pos side → exec (.memTimeout pos side id) s = .next s)))

/-- A host's packet is stamped, policed and injected; one that R150 forbids enters no buffer; VC5 held too long sets
its flag. Tier 2; 15_ports_registers.md (R473), 04_time_stencils.md (R145), 05_contexts_engines.md (R150). -/
def Obligations.HostPacketsEnterTheMesh : Prop :=
  (∀ (s : State) (port pos side : Nat) (priv : Priv) (ctx : BitVec 12) (p : Pkt), Config.spineRole s.config = false →
    s.stopped = false → p.payload.length = p.words → s.hostSite port = some (pos, side) →
    let p' : Pkt := { p with src := s.physEndpoint pos (16 + side) }
    let may := !(priv == .tenant) || s.hostAllowed ctx.toNat p'
    (may = false → ∃ t, exec (.hostInject port priv ctx p) s = .next t ∧ t.mesh.vcs = s.mesh.vcs ∧ SameRegsAndTrays s t ∧
      t.mem = s.mem) ∧
    (may = true → s.portOpen pos (9 + side) (16 + side) p.vc.toNat = true →
      ((s.police pos side p').1 = true → ∃ t x, exec (.hostInject port priv ctx p) s = .next t ∧
        x.src = s.physEndpoint pos (16 + side) ∧ x.payload = p.payload ∧ x.dest = p.dest ∧ x.ctx = p.ctx ∧
        x.seq = BitVec.ofNat 24 (s.mem.hostSeq.get 0 (4096 * port + ctx.toNat)) ∧
        (t.vcb pos (9 + side) p.vc.toNat).buf ++ (t.vcb pos (9 + side) p.vc.toNat).feed =
          (s.vcb pos (9 + side) p.vc.toNat).buf ++ (s.vcb pos (9 + side) p.vc.toNat).feed ++
            (List.range p.flits).map (fun i => (⟨x, i, false⟩ : Flit)) ∧
        t.mem.hostSeq.get 0 (4096 * port + ctx.toNat) =
          (s.mem.hostSeq.get 0 (4096 * port + ctx.toNat) + 1) % 2 ^ 24 ∧ t.trays = s.trays ∧
        RegsSame [policeLevelA pos side (s.policerOf pos side p.ctx.toNat)] s t) ∧
      ((s.police pos side p').1 = false → ∃ t, exec (.hostInject port priv ctx p) s = .next t ∧
        t.mesh.vcs = s.mesh.vcs ∧ t.mem = s.mem ∧ t.trays = s.trays ∧
        t.reg (edgeA pos side Reg.POLICE_DROP_CNT) = satAdd (s.reg (edgeA pos side Reg.POLICE_DROP_CNT)) 1))) ∧
  (∀ (s : State) (port pos side : Nat), s.hostSite port = some (pos, side) →
    ∃ t, exec (.vc5Held port) s = .next t ∧ bit (t.reg (edgeA pos side Reg.HP_STAT)) 31 = true ∧
      JustRegs [edgeA pos side Reg.HP_STAT] s t)

/-- RING_CFG enables a ring that its slot can hold, a flush empties it, and RING_HEAD moves inside the ring alone.
Tier 2; 06_trays_messages.md (R202, R206, R208). -/
def Obligations.RingsAreEnabledAndFlushed : Prop :=
  ∀ (acc : Access) (pos : Pos) (r : Nat) (data : Word) (s : State), pos < 1024 → r < 64 →
    let cfg := tileA pos (Reg.RING_CFG r)
    let head := tileA pos (Reg.RING_HEAD r)
    let flags := tileA pos Reg.TP_FLAG_STAT
    let d := data &&& 0xBFF000FF
    (Admitted acc cfg s →
      (∃ t, exec (.ringEnable acc pos r data) s = .next t ∧
        (bit (s.reg cfg) 31 = false → bit data 31 = true → s.ringFits pos r d = true → t.reg cfg = d ∧
          t.ringW pos r = 0 ∧ t.ringC pos r = 0 ∧ t.ringH pos r = 0 ∧
          OnlyRegs [cfg, tileA pos (Reg.RING_WPOS r), tileA pos (Reg.RING_CPOS r), head] s t) ∧
        (bit (s.reg cfg) 31 = false → bit data 31 = true → s.ringFits pos r d = false → t.ringOn pos r = false ∧
          bit (t.reg flags) 0 = true ∧ Raised Src.CFG_ADJUSTED s t ∧ RegsSame [cfg, flags] s t ∧ t.trays = s.trays ∧
          t.msgs = s.msgs) ∧
        (bit (s.reg cfg) 31 = false → bit data 31 = false → t.reg cfg = d ∧ OnlyRegs [cfg] s t) ∧
        (bit (s.reg cfg) 31 = true → bit (t.reg cfg) 31 = bit data 31 ∧
          (∀ i < 31, bit (t.reg cfg) i = bit (s.reg cfg) i) ∧ OnlyRegs [cfg] s t)) ∧
      (bit data 31 = false → ∃ t, exec (.ringFlush acc pos r data) s = .next t ∧ t.ringOn pos r = false ∧
        t.resvs pos r = [] ∧ (∀ p, s.waiting pos = some p → msgRing p = r → t.waiting pos = none) ∧
        (∀ p, s.waiting pos = some p → msgRing p ≠ r → t.waiting pos = some p) ∧
        (∀ k, k ≠ r → k < 64 → t.resvs pos k = s.resvs pos k) ∧ t.trays = s.trays ∧
        RegsSame [cfg, rtrA pos Reg.DISC_BAD_CNT] s t)) ∧
    (Admitted acc head s →
      (diff32 (s.ringC pos r) data.toNat ≤ s.ringUnits pos r → ∃ t, exec (.ringHeadWrite acc pos r data) s = .next t ∧
        t.reg head = data ∧ RegsSame [head] s t ∧ t.trays = s.trays ∧ t.flt = s.flt) ∧
      (s.ringUnits pos r < diff32 (s.ringC pos r) data.toNat → ∃ t, exec (.ringHeadWrite acc pos r data) s = .next t ∧
        Raised Src.QUEUE_ERR s t ∧ SameRegsAndTrays s t))

/-- A message reserves its units or waits, commits in order with its header before its payload, and a stall is
reported. Tier 3; 06_trays_messages.md (R203, R204, R205, R207, R213). -/
def Obligations.MessagesReserveCommitAndStall : Prop :=
  (∀ (s : State) (pos : Pos) (p : Pkt), s.inMesh pos = true → s.stopped = false → p.ty.toNat = tyMSG →
    let r := msgRing p
    let wpos := tileA pos (Reg.RING_WPOS r)
    let fits := placeSkip (s.ringUnits pos r) (s.ringW pos r) (s.ringH pos r) (msgUnits p)
    (s.waiting pos ≠ none → exec (.msg pos p) s = .next s) ∧
    (s.waiting pos = none → ∃ t, exec (.msg pos p) s = .next t ∧
      (s.msgOk pos p = false → Discarded pos 0 p s t) ∧
      (s.msgOk pos p = true → fits = none → t.waiting pos = some p ∧ SameRegsAndTrays s t) ∧
      (∀ e, s.msgOk pos p = true → fits = some e → t.waiting pos = none ∧
        t.ringW pos r = (s.ringW pos r + e + msgUnits p) % 2 ^ 32 ∧ RegsSame [wpos] s t ∧ t.trays = s.trays ∧
        ∃ stamp, t.resvs pos r = s.resvs pos r ++ [⟨s.ringW pos r, msgUnits p, e, p, stamp⟩]))) ∧
  (∀ (s : State) (pos : Pos) (p : Pkt), s.stopped = false → s.waiting pos = some p →
    let r := msgRing p
    let fits := placeSkip (s.ringUnits pos r) (s.ringW pos r) (s.ringH pos r) (msgUnits p)
    (fits = none → exec (.msgPlace pos) s = .next s) ∧
    (∀ e, fits = some e → ∃ t, exec (.msgPlace pos) s = .next t ∧ t.waiting pos = none ∧
      t.ringW pos r = (s.ringW pos r + e + msgUnits p) % 2 ^ 32 ∧ t.trays = s.trays ∧
      t.resvs pos r = s.resvs pos r ++ [⟨s.ringW pos r, msgUnits p, e, p, s.msgs.waitStamp.get 0 pos⟩] ∧
      RegsSame [tileA pos (Reg.RING_WPOS r)] s t) ∧
    (s.msgs.stallFrom.get 0 pos ≠ 0 → s.msgs.stallFrom.get 0 pos - 1 + s.stallLimit pos ≤ s.time.edges →
      ∃ t x, exec (.ringStall pos) s = .next t ∧ t.flt.inFlight.getLast? = some x ∧
        x.source = BitVec.ofNat 8 Src.RING_STALL ∧ t.msgs.stallFrom.get 0 pos = 0 ∧ t.waiting pos = some p ∧
        RegsOfTile pos s t)) ∧
  (∀ (s : State) (pos : Pos) (r : Nat) (v : Resv) (rest : List Resv), s.stopped = false → r < 64 → pos < 1024 →
    s.resvs pos r = v :: rest → (s.mesh.msgIn.get [] pos).contains v.pkt = false →
    let slot := s.ringSlot pos r
    let size := s.ringUnits pos r
    let base := s.ringStart pos r
    let stat := s.allocBase pos slot + 16 * fld (s.reg (tileA pos (Reg.RING_STAT_OFF r))) 15 0
    let at' := base + 32 * ((v.start + v.skip) % size)
    let bs := wordBytes (msgHeader 0x4D v.units v.pkt.src.toNat v.pkt.rspCtx v.pkt.tag.toNat v.pkt.seq.toNat v.stamp) ++
      v.pkt.payload.flatMap wordBytes
    v.pkt.payload.length + 1 = v.units → (v.start + v.skip) % size + v.units ≤ size → base + 32 * size ≤ 2 ^ 20 →
    stat + 8 ≤ 2 ^ 20 → s.runGood pos base (32 * size) → s.runGood pos stat 8 →
    ∃ t, exec (.msgCommit pos r) s = .next t ∧ t.resvs pos r = rest ∧
      t.ringC pos r = (v.start + v.skip + v.units) % 2 ^ 32 ∧ Counted pos slot v.pkt.ccnt.toNat v.pkt.cnt s t ∧
      Answered pos 0 v.pkt stDONE s t ∧ RegsOfTile pos s t ∧ t.flt = s.flt ∧
      (∀ i < bs.length, ¬(stat ≤ at' + i ∧ at' + i < stat + 8) → t.trayByte pos (at' + i) = bs.getD i 0) ∧
      (∀ p o, o < 2 ^ 20 → ¬(p = pos ∧ base ≤ o ∧ o < base + 32 * size) → ¬(p = pos ∧ stat ≤ o ∧ o < stat + 8) →
        t.trayByte p o = s.trayByte p o))

/-- WELL_CFG enables a well that its slot can hold, and a WELL_ADD adds each element to its slot record and counts it.
Tier 2; 06_trays_messages.md (R209, R210, R211). -/
def Obligations.WellsAccumulate : Prop :=
  (∀ (acc : Access) (pos : Pos) (w : Nat) (data : Word) (s : State), pos < 1024 → w < 16 →
    Admitted acc (tileA pos (Reg.WELL_CFG w)) s →
    let cfg := tileA pos (Reg.WELL_CFG w)
    let flags := tileA pos Reg.TP_FLAG_STAT
    let d := data &&& 0xBFC0FFFF
    ∃ t, exec (.wellEnable acc pos w data) s = .next t ∧
      ((bit data 31 = false ∨ (fld data 29 28 ≠ 3 ∧ s.wellFits pos w d = true)) → t.reg cfg = d ∧ RegsSame [cfg] s t ∧
        t.trays.mem = s.trays.mem ∧ t.flt = s.flt) ∧
      (bit data 31 = true → fld data 29 28 = 3 → t.reg cfg = setBit d 31 false ∧ OnlyRegs [cfg] s t) ∧
      (bit data 31 = true → fld data 29 28 ≠ 3 → s.wellFits pos w d = false → bit (t.reg cfg) 31 = false ∧
        bit (t.reg flags) 0 = true ∧ Raised Src.CFG_ADJUSTED s t ∧ RegsSame [cfg, flags] s t ∧ t.trays = s.trays)) ∧
  (∀ (s : State) (pos : Pos) (p : Pkt), s.inMesh pos = true → s.stopped = false → p.ty.toNat = tyWELL_ADD →
    s.waiting pos = none →
    let w := p.tword 7 0
    let cfg := s.wellCfg pos w
    let slot := fld cfg 27 22
    let m := s.wellMode pos w
    let es := elemsOf (p.tword 27 24) (p.payload.flatMap wordBytes)
    let base := s.allocBase pos slot + 4096 * fld (s.wellBase pos w) 7 0
    let stat := s.allocBase pos slot + 16 * fld (s.wellBase pos w) 31 16
    (s.wellOk pos p = true → p.payload.length = p.words → base + 16 * (fld cfg 15 0 + 1) ≤ 2 ^ 20 → stat + 8 ≤ 2 ^ 20 →
      s.runGood pos base (16 * (fld cfg 15 0 + 1)) → s.runGood pos stat 8 →
      ∃ t, exec (.wellAddPacket pos p) s = .next t ∧
        t.trays.wellDone.get 0 (16 * pos + w) = (s.trays.wellDone.get 0 (16 * pos + w) + es.length) % 2 ^ 48 ∧
        (∀ i < es.length, let at' := base + 16 * (p.tword 23 8 + i)
          (at' + 16 ≤ stat ∨ stat + 8 ≤ at') → t.trayBytes pos at' 16 =
            bytesOf 16 (wellSlot m (p.tword 27 24) (es.getD i 0) (ofBytes (s.trayBytes pos at' 16))).1) ∧
        (∀ x o, o < 2 ^ 20 → ¬(x = pos ∧ base + 16 * p.tword 23 8 ≤ o ∧ o < base + 16 * (p.tword 23 8 + es.length)) →
          ¬(x = pos ∧ stat ≤ o ∧ o < stat + 8) → t.trayByte x o = s.trayByte x o) ∧
        Counted pos slot p.ccnt.toNat p.cnt s t ∧ Answered pos 0 p stDONE s t ∧ RegsOfTile pos s t ∧ t.flt = s.flt) ∧
    (s.wellOk pos p = false → ∃ t, exec (.wellAddPacket pos p) s = .next t ∧ Discarded pos 0 p s t))

/-- A reducer passes, discards, aborts, holds, merges or emits what reaches it, flushes an old slot, and takes a tree
entry as R240 says. Tier 3; 07_reduction_arithmetic.md (R231, R232, R233, R234, R235), 07_reduction_arithmetic.md
(R237, R240, R241). -/
def Obligations.ReducersMergeEmitAndFlush : Prop :=
  (∀ (s : State) (pos : Pos) (p : Pkt), s.inMesh pos = true → p.ty.toNat = tyPARTIAL → s.stopped = false →
    let r := redIndex p.tag
    let e := s.reg (redEntA pos r)
    let m := redMode e
    let live := bit e 31 && !s.flt.retired.contains (5, pos)
    let legal := opFmtOk (partialOp p) (partialFmt p) && decide (partialFmt p ≤ 7) && offsetOk p
    let mergedInto := fun (o : Option RedSlot) (xs : List (BitVec 64)) => match o with
      | some o => (mergeElems m (partialOp p) o.acc xs).1
      | none => if partialOp p = 2 ∨ partialOp p = 3 then xs
        else (mergeElems m (partialOp p) (xs.map (accIdentity (partialOp p))) xs).1
    ∃ t, exec (.partialPkt pos p) s = .next t ∧ t.trays = s.trays ∧
      (live = false → t.redSlots = s.redSlots ∧ t.regs = s.regs ∧
        (t.vcb pos 13 2).buf ++ (t.vcb pos 13 2).feed = (s.vcb pos 13 2).buf ++ (s.vcb pos 13 2).feed ++
          (List.range p.flits).map (fun i => (⟨p, i, false⟩ : Flit))) ∧
      (live = true → bit e 27 = true → t.redSlots = s.redSlots ∧
        t.reg (rtrA pos Reg.DISC_BAD_CNT) = satAdd (s.reg (rtrA pos Reg.DISC_BAD_CNT)) 1 ∧
        RegsSame [rtrA pos Reg.DISC_BAD_CNT] s t) ∧
      (live = true → bit e 27 = false → legal = false → t.redSlots = s.redSlots ∧ Discarded pos 31 p s t) ∧
      (live = true → bit e 27 = false → legal = true →
        (∀ flag, s.redCause pos p = some flag → bit (t.reg (redEntA pos r)) 27 = true ∧
          bit (t.reg (redA pos Reg.W_RED_STAT)) flag = true ∧ (∀ kv ∈ t.slotsAt pos, redIndex kv.2.tag ≠ r) ∧
          Raised Src.RED_SIG s t ∧ t.reg (rtrA pos Reg.DISC_BAD_CNT) = satAdd (s.reg (rtrA pos Reg.DISC_BAD_CNT)) 1) ∧
        (s.redCause pos p = none → s.redRoom pos m p = false → t = s) ∧
        (s.redCause pos p = none → s.redRoom pos m p = true →
          RegsSame [redEntA pos r, redSigA pos r, redA pos Reg.W_RED_OVF, redA pos Reg.W_RED_STAT] s t ∧
          bit (t.reg (redEntA pos r)) 28 = true ∧
          ((∀ g ∈ partialGroups m p, s.slotFor pos p.tag g.1 = none) → contrib p < fld e 20 0 →
            ∀ g ∈ partialGroups m p, ∃ k v, t.slotFor pos p.tag g.1 = some (k, v) ∧ v.count = contrib p ∧
              v.acc = mergedInto none g.2 ∧ v.first = p) ∧
          (∀ g k o, partialGroups m p = [g] → s.slotFor pos p.tag g.1 = some (k, o) →
            (o.count + contrib p < fld e 20 0 → ∃ v, t.slotFor pos p.tag g.1 = some (k, v) ∧
              v.count = o.count + contrib p ∧ v.acc = mergedInto (some o) g.2 ∧
              v.deadline = urgentDl o.deadline p.deadline) ∧
            (o.count + contrib p = fld e 20 0 → t.redSlots = s.redSlots.del k ∧ ∃ x,
              x.mask.toNat % 2 ^ 21 = fld e 20 0 ∧ x.tag = o.first.tag ∧ x.dest = o.first.dest ∧
              (t.vcb pos 13 2).buf ++ (t.vcb pos 13 2).feed = (s.vcb pos 13 2).buf ++ (s.vcb pos 13 2).feed ++
                [(⟨x, 0, false⟩ : Flit)]))))) ∧
  (∀ (s : State) (pos : Pos) (slot : Nat) (v : RedSlot), s.stopped = false → slot < 32 →
    s.redSlots.find? (32 * pos + slot) = some v → v.born + s.flushLimit pos ≤ s.cycle →
    ∃ t, exec (.reducerFlush pos slot) s = .next t ∧ t.redSlots = s.redSlots.del (32 * pos + slot) ∧
      t.reg (redA pos Reg.W_RED_FLUSH) = satAdd (s.reg (redA pos Reg.W_RED_FLUSH)) 1 ∧
      bit (t.reg (redA pos Reg.W_RED_STAT)) 0 = true ∧
      RegsSame [redA pos Reg.W_RED_FLUSH, redA pos Reg.W_RED_STAT] s t ∧
      t = { s with regs := t.regs, redSlots := t.redSlots, mesh := t.mesh }) ∧
  (∀ (acc : Access) (data : Word) (s : State), Admitted acc (dieA Reg.RED_TREE) s →
    let pos := s.redSelPos
    let r := s.dieF Reg.RED_SEL 5 0
    let ex := fld data 20 0
    let regs := [redEntA pos r, redSigA pos r, redA pos Reg.W_RED_FLUSH, redA pos Reg.W_RED_STAT]
    s.inMesh pos = true →
    (∃ t, exec (.redTreeEnable acc data) s = .next t ∧ RegsSame regs s t ∧ t.trays = s.trays ∧
      (∀ kv ∈ t.slotsAt pos, redIndex kv.2.tag ≠ r) ∧
      ((fld data 30 29 ≠ 3 ∧ 1 ≤ ex ∧ ex ≤ 1048576) → t.reg (redEntA pos r) = setBit data 31 true &&& 0xE01FFFFF ∧
        t.reg (redSigA pos r) = 0 ∧ t.flt = s.flt) ∧
      (¬(fld data 30 29 ≠ 3 ∧ 1 ≤ ex ∧ ex ≤ 1048576) → bit (t.reg (redEntA pos r)) 31 = false ∧
        Raised Src.CFG_ADJUSTED s t)) ∧
    (∃ t, exec (.redTreeDisable acc data) s = .next t ∧ RegsSame regs s t ∧ t.trays = s.trays ∧
      (∀ kv ∈ t.slotsAt pos, redIndex kv.2.tag ≠ r) ∧ bit (t.reg (redEntA pos r)) 31 = false ∧
      fld (t.reg (redEntA pos r)) 20 0 = ex))

/-- An arm gives every tile of the record its copy, a disarm takes it away, an abort or a passed deadline ends the
commands, and sub-roots stage partials. Tier 2; 08_collectives.md (R243, R244, R247, R251, R252, R255). -/
def Obligations.CollectivesAreArmedTimedAndAborted : Prop :=
  (∀ (acc : Access) (data : Word) (s : State), Admitted acc (dieA Reg.COLL_ARM_CTRL) s → s.masterRuns = true →
    let n := s.collSel
    let stat := dieA Reg.COLL_ARM_STAT
    (s.armCode n ≠ 0 → ∃ t, exec (.collArm acc data) s = .next t ∧ OnlyRegs [stat] s t ∧ bit (t.reg stat) 8 = true ∧
      fld (t.reg stat) 7 0 = s.armCode n) ∧
    (∀ r, s.armCode n = 0 → s.collRec (s.arm n).treeNo = some r → ∃ t, exec (.collArm acc data) s = .next t ∧
      bit (t.reg stat) 31 = true ∧ t.arm n = { s.arm n with valid := true } ∧ t.trays = s.trays ∧
      (∀ x ∈ s.copyHolders r, ∃ c, t.eng.copies.find? (64 * x.1 + n) = some c ∧ c.id = (s.arm n).id.toNat ∧
        c.tree = (s.arm n).treeNo ∧ c.sub = (s.arm n).sub ∧ c.distCtx = (s.arm n).distCtx) ∧
      t.eng.cmds = s.eng.cmds) ∧
    (s.indexBusy n = true → ∃ t, exec (.collDisarm acc data) s = .next t ∧ OnlyRegs [stat] s t ∧
      bit (t.reg stat) 8 = true ∧ fld (t.reg stat) 7 0 = 3) ∧
    (s.indexBusy n = false → ∃ t, exec (.collDisarm acc data) s = .next t ∧ bit (t.reg stat) 31 = true ∧
      t.arm n = { s.arm n with valid := false } ∧ t.trays = s.trays ∧ t.eng.cmds = s.eng.cmds ∧
      ∀ kc ∈ t.eng.copies, kc.1 % 64 ≠ n)) ∧
  (∀ s : State, s.stopped = false → ∃ t, exec .collArmDone s = .next t ∧ bit (t.reg (dieA Reg.COLL_ARM_STAT)) 31 = false ∧
    JustRegs [dieA Reg.COLL_ARM_STAT] s t) ∧
  (∀ (acc : Access) (data : Word) (s : State), Admitted acc (dieA Reg.COLL_ABORT_CTRL) s →
    (bit data 31 = false → ∃ t, exec (.collAbort acc data) s = .next t ∧ OnlyRegs [dieA Reg.COLL_ABORT_CTRL] s t) ∧
    (bit data 31 = true → ∃ t, exec (.collAbort acc data) s = .next t ∧
      (∀ pos slot c, slot < 64 → s.cmd? pos slot 2 = some c → dOp c.desc ≠ opTRIGGER →
        dPeer c.desc = (s.die Reg.COLL_ABORT_ID).toNat → t.cmd? pos slot 2 = none) ∧
      ∀ pos slot q, slot < 64 → q < 4 → q ≠ 2 → t.cmd? pos slot q = s.cmd? pos slot q)) ∧
  (∀ (s : State) (pos : Pos) (slot : Nat) (c : Cmd) (k : Coll), s.stopped = false → slot < 64 →
    s.cmd? pos slot 2 = some c → c.coll = some k → s.allocSound pos slot →
    let late := k.due.any (fun x => s.duePassed x.2) || k.stageDue.any fun x => s.duePassed x.2
    (c.st = 2 → c.stop = 0 → late = true → ∃ t, exec (.stepTimeout pos slot) s = .next t ∧ Over pos slot 2 s t ∧
      TileOnly pos s t) ∧
    (late = false → exec (.stepTimeout pos slot) s = .next s)) ∧
  (∀ (s : State) (pos : Pos) (p : Pkt), s.inMesh pos = true → s.stopped = false → p.ty.toNat = tyPARTIAL →
    (s.slotOf pos p.ctx.toNat = none → ∃ t, exec (.subrootPartial pos p) s = .next t ∧ Discarded pos 3 p s t) ∧
    (∀ slot a k, s.slotOf pos p.ctx.toNat = some slot → s.partialAgent pos slot p = some a →
      opFmtOk (partialOp p) (partialFmt p) = true → partialFmt p ≤ 7 → modeTakes (cMode a.cmd.desc) (partialFmt p) = true →
      offsetOk p = true →
      (partialSig p ≠ (signatureOf a.cmd.desc).toNat → ∃ t, exec (.subrootPartial pos p) s = .next t ∧
        t.cmd? pos slot 2 = some { a.cmd with stop := stSIG_MISMATCH } ∧ Raised Src.RED_SIG s t ∧ SameRegsAndTrays s t) ∧
      (partialSig p = (signatureOf a.cmd.desc).toNat → fullChunk a.coll.run (p.tag.toNat % 1024) = some k →
        k % cNroot a.cmd.desc = redIndex p.tag - a.coll.index → k < chunkCount a.cmd.desc →
        a.roots pos (redIndex p.tag - a.coll.index) = true → a.coll.shared.contains k = false →
        (∀ kv ∈ a.coll.stage, kv.1 / 2 ^ 16 = k) → (∀ w, s.wordGood pos w) → s.statusFits pos slot a.cmd = true →
        let st := (partialGroups (cMode a.cmd.desc) p).foldl (fun (st : Store Nat) g =>
          let key := 2 ^ 16 * k + g.1 * 16 / groupSize (cMode a.cmd.desc)
          st.set 0 key (st.get 0 key + contrib p)) a.coll.stage
        let u := (s.takeIntake pos 3 p).stageFlit pos slot k p
        (u.agent? pos slot).map (·.rcd) = some a.rcd →
        (∃ g < stageGroups a.cmd.desc k, st.get 0 (2 ^ 16 * k + g) < a.rcd.members.length) →
        ∃ t c' k', exec (.subrootPartial pos p) s = .next t ∧ t.cmd? pos slot 2 = some c' ∧ c'.desc = a.cmd.desc ∧
          c'.coll = some k' ∧ k'.stage = st ∧ Counted pos slot p.ccnt.toNat p.cnt s t ∧ RegsOfTile pos s t)))

/-- Ring pieces land in the double buffer, credits and freed chunks follow them, and wash beats land, wait or are lost
at their drop tap. Tier 2; 08_collectives.md (R257, R258, R259, R264, R265, R266). -/
def Obligations.RingsPassAndWashBeatsLand : Prop :=
  (∀ (s : State) (pos : Pos) (p : Pkt), s.inMesh pos = true → s.stopped = false → p.ty.toNat = tyRING_BLOCK →
    (∀ slot, s.unicastSlot pos p = some slot → s.ringAgent pos slot = none →
      ∃ t, exec (.ringBlock pos p) s = .next t ∧ Discarded pos 0 p s t) ∧
    (∀ slot a, s.unicastSlot pos p = some slot → s.ringAgent pos slot = some a →
      let d := a.cmd.desc
      let off := p.tword 25 0
      let at' := s.allocBase pos slot + dFar d + off
      let n := 32 * p.words
      let c := max 1 (ringChunks d)
      let q := if a.coll.run % 2 = off / cChunk d then a.coll.run else a.coll.run + 1
      let desc := s.allocBase pos slot + cStage d + 32 + 32 * (q % 2)
      let stat := s.allocBase pos slot + 16 * dStatus d
      let u := (s.takeIntake pos 0 p).landWords pos slot (dFar d + off) swMesh p.payload
      off % 32 = 0 → off + n ≤ 2 * cChunk d → p.payload.length = p.words → s.runGood pos at' n →
      s.inAlloc pos slot (dFar d + off) n = true → s.allocSound pos slot → s.statusFits pos slot a.cmd = true →
      q / c % 65536 = p.tag.toNat → (u.2.agent? pos slot).map (·.rcd) = some a.rcd →
      ∃ t c' k', exec (.ringBlock pos p) s = .next t ∧ t.cmd? pos slot 2 = some c' ∧ c'.desc = d ∧ c'.coll = some k' ∧
        RegsOfTile pos s t ∧
        (let got := a.coll.got.get 0 q + min n (ringBytesOf d q - off % cChunk d)
          if ringBytesOf d q ≤ got ∧ q = a.coll.run then k'.run = q + 1 else k'.run = a.coll.run ∧ k'.got.get 0 q = got) ∧
        ∀ i < n, ¬(desc ≤ at' + i ∧ at' + i < desc + 32) → ¬(stat ≤ at' + i ∧ at' + i < stat + 8) →
          t.trayByte pos (at' + i) = (p.payload.flatMap wordBytes).getD i 0)) ∧
  (∀ (s : State) (pos : Pos) (side slot : Nat) (ctl : BitVec 256) (a : AgentNow), s.inMesh pos = true →
    s.stopped = false → side < 4 → bitsOf ctl.toNat 45 42 = 1 → ctl.toNat.testBit 46 = true →
    s.slotOf pos (bitsOf ctl.toNat 11 0) = some slot → s.ringAgent pos slot = some a →
    let n := fullNumber a.coll.credit (bitsOf ctl.toNat 70 47)
    ∃ t, exec (.ringCredit pos side ctl) s = .next t ∧ SameRegsAndTrays s t ∧
      (a.coll.credit < n → n ≤ a.coll.sent → t.cmd? pos slot 2 =
        some { a.cmd with coll := some { a.coll with credit := n } }) ∧
      (¬(a.coll.credit < n ∧ n ≤ a.coll.sent) → t.eng.cmds = s.eng.cmds)) ∧
  (∀ (s : State) (pos : Pos) (slot q : Nat) (a : AgentNow), s.stopped = false → s.ringAgent pos slot = some a →
    let c := max 1 (ringChunks a.cmd.desc)
    q = a.coll.freed → q < a.coll.run → q < s.ringAck pos slot a.cmd.desc →
    (a.rcd.members.length - 2 ≤ q / c ∨ q + c < a.coll.sent ∨ (q + c + 1 = a.coll.sent ∧ a.coll.outq = [])) →
    a.cmd.st = 2 → a.cmd.stop = 0 →
    ∃ t p, exec (.ringChunkFree pos slot q) s = .next t ∧ t.cmd? pos slot 2 =
        some { a.cmd with coll := some { a.coll with freed := q + 1, outq := a.coll.outq ++ [p] } } ∧
      t = { s with eng := { s.eng with cmds := t.eng.cmds } }) ∧
  (∀ (s : State) (pos : Pos) (beat : List DataWord), s.stopped = false → s.inMesh pos = true → s.isSpare pos = false →
    beat.length = 5 → s.fenced pos = false →
    let side := (beat.getD 4 0).toNat
    (s.eng.taps.get [] pos = [] → s.tapSlot pos side = none → s.washCut pos = false →
      exec (.washBeat pos beat) s = .next s) ∧
    (∀ slot, s.eng.taps.get [] pos = [] → s.tapSlot pos side = some slot → s.washCut pos = false →
      s.tapFree pos beat = true → s.cmd? pos slot 2 = none → s.allocSound pos slot →
      let off := s.allocBase pos slot + 128 * bitsOf side 32 20
      s.runGood pos off 128 →
      ∃ t, exec (.washBeat pos beat) s = .next t ∧ Landed pos off ((beat.take 4).flatMap wordBytes) s t ∧
        RegsOfTile pos s t ∧ Counted pos slot (fld (s.reg (washLandA pos (bitsOf side 19 16))) 23 18) (side.testBit 33) s t) ∧
    (∀ slot b rest, s.eng.taps.get [] pos = b :: rest → s.tapFree pos b = false → s.tapSlot pos side = some slot →
      s.washCut pos = false → (b :: rest).length < 64 → ∃ t, exec (.washBeat pos beat) s = .next t ∧
        t.eng.taps.get [] pos = b :: rest ++ [beat] ∧ t = { s with eng := { s.eng with taps := t.eng.taps } }))

/-- A combiner counts arrivals and releases or combines at EXPECT, a release gives each waiting member its wave, and
the wave ends its BARRIER. Tier 2; 08_collectives.md (R260, R261, R262). -/
def Obligations.BarriersCountReleaseAndEnd : Prop :=
  (∀ (s : State) (pos : Pos) (f : SFlit), s.inMesh pos = true → s.stopped = false →
    let n := f.tag.toNat % 64
    let gen := f.tag.toNat / 64
    let sig := f.field 12 4
    let latched := s.eng.barSig.get 0 (64 * pos + n)
    let agrees := latched = 0 ∨ (latched - 1 = sig ∧ fld (s.reg (barHiA pos n)) 9 0 = gen)
    let total := (s.reg (barCountA pos n)).toNat + f.field 0 4 % 2 ^ 21
    let live := bit (s.reg (barHiA pos n)) 31 = true ∧ latched ≠ 2 ^ 33
    ∀ c : Instr, ((c = .barArrive pos f ∧ f.stype.toNat = 5) ∨ (c = .barCombined pos f ∧ f.stype.toNat = 6)) →
    ∃ t, exec c s = .next t ∧ t.trays = s.trays ∧
      (¬live → t = { s with sketch := t.sketch }) ∧
      (live → ¬agrees → t.reg (barCountA pos n) = 0 ∧ Raised Src.RED_SIG s t ∧ RegsSame [barCountA pos n] s t ∧
        t.eng.barSig.get 0 (64 * pos + n) = 2 ^ 33) ∧
      (live → agrees → total < (s.reg (barLoA pos n)).toNat → t.reg (barCountA pos n) = BitVec.ofNat 32 total ∧
        t.eng.barSig.get 0 (64 * pos + n) = sig + 1 ∧ fld (t.reg (barHiA pos n)) 9 0 = gen ∧
        RegsSame [barCountA pos n, barHiA pos n] s t) ∧
      (live → agrees → (s.reg (barLoA pos n)).toNat ≤ total → t.reg (barCountA pos n) = 0 ∧
        t.eng.barSig.get 0 (64 * pos + n) = 0)) ∧
  (∀ (s : State) (pos : Pos) (f : SFlit) (cp : CollCopy), s.inMesh pos = true → s.stopped = false → f.stype.toNat = 7 →
    let n := f.tag.toNat % 64
    let hi := s.reg (barHiA pos n)
    bit hi 31 = true → bit hi 17 = true → s.eng.copies.find? (64 * pos + n) = some cp →
    ∃ t, exec (.barRelease pos f) s = .next t ∧ t.trays = s.trays ∧
      t.eng.copies.find? (64 * pos + n) = some { cp with gen := (cp.gen + 1) % 1024 } ∧
      RegsSame [⟨64, pos, Reg.W_BAR_LATE⟩] s t ∧
      ∀ slot < 64, ∀ a, s.agent? pos slot = some a → dOp a.cmd.desc = opBARRIER → a.coll.index = n → a.coll.sent = 1 →
        a.coll.wave = none → a.cmd.stop = 0 →
        ∃ c', t.cmd? pos slot 2 = some c' ∧ c'.desc = a.cmd.desc ∧
          (f.field 8 1 ≠ 0 → c'.stop = f.field 8 1) ∧
          (f.field 8 1 = 0 → ∃ k nt, c'.coll = some k ∧ k.wave = some nt ∧
            f.field 0 8 + 32 * s.dieF Reg.BAR_TIMING 31 16 ≤ nt)) ∧
  (∀ (s : State) (pos : Pos) (slot : Nat) (a : AgentNow) (nt : Nat), s.stopped = false → slot < 64 →
    s.agent? pos slot = some a → a.coll.wave = some nt → dOp a.cmd.desc = opBARRIER → a.cmd.st = 2 → a.cmd.stop = 0 →
    s.allocSound pos slot →
    (nt ≤ s.ntNat → ∃ t, exec (.barrierWave pos slot) s = .next t ∧ Over pos slot 2 s t ∧ TileOnly pos s t) ∧
    (s.ntNat < nt → exec (.barrierWave pos slot) s = .next s))

/-- The tray processor port reads, writes, sets, clears, takes and rotates exactly the bytes it names, and refuses
what its windows or reach forbid. Tier 2; 06_trays_messages.md (R190, R191, R192, R193, R194, R195),
15_ports_registers.md (R466, R467). -/
def Obligations.ProcessorPortAccessesTrays : Prop :=
  (∀ (s : State) (c : Instr) (pos : Nat) (priv : Priv) (slot addr len id : Nat) (kind : Bool),
    tppOf c = some (pos, priv, slot, addr, len, id, kind) →
    (s.tppOpen pos = false → exec c s = .next s) ∧
    (s.tppOpen pos = true → (kind && s.tppShape addr len) = false → ∃ t, exec c s = .next t ∧
      Raised Src.ACCESS_UNMAPPED s t ∧ TppAnswers pos id (zeros len) true t ∧ t.regs = s.regs ∧
      t.trays.mem = s.trays.mem) ∧
    (s.tppOpen pos = true → (kind && s.tppShape addr len) = true →
      s.tppReach pos priv slot (tppWindow addr) addr len = false → ∃ t, exec c s = .next t ∧
      Raised Src.ACCESS_PRIV s t ∧ TppAnswers pos id (zeros len) true t ∧ t.regs = s.regs ∧
      t.trays.mem = s.trays.mem)) ∧
  (∀ (s : State) (pos : Pos) (priv : Priv) (slot addr len id : Nat) (mask : BitVec 128) (data : List Byte),
    let off := s.tppOffset pos priv slot addr
    (tppWindow addr = .plain → s.tppGood pos priv slot addr len →
      (∃ t, exec (.tppRead pos priv slot addr len id) s = .next t ∧ TppAnswers pos id (s.trayBytes pos off len) false t ∧
        t.regs = s.regs ∧ t.trays.mem = s.trays.mem ∧ t.flt = s.flt) ∧
      (data.length = len → ∃ t, exec (.tppWrite pos priv slot addr len id mask data) s = .next t ∧
        TppAnswers pos id [] false t ∧ BytesKept pos off len s t ∧ RegsOfTile pos s t ∧ t.flt = s.flt ∧
        ∀ i < len, t.trayByte pos (off + i) =
          if mask.toNat.testBit i then data.getD i 0 else s.trayByte pos (off + i))) ∧
    (∀ k n, tppWindow addr = .counter k n → s.tppOpen pos = true → s.tppShape addr len = true →
      s.tppReach pos priv slot (tppWindow addr) addr len = true →
      (∃ t, exec (.tppRead pos priv slot addr len id) s = .next t ∧ t.regs = s.regs ∧
        TppAnswers pos id (bytesOf 4 (s.reg (tileA pos (Reg.CTR k n))).toNat) false t) ∧
      (∃ t, exec (.tppWrite pos priv slot addr len id mask data) s = .next t ∧ TppAnswers pos id [] false t ∧
        RegsSame [tileA pos (Reg.CTR k n)] s t ∧ t.trays.mem = s.trays.mem ∧
        ∀ r, specOf (tileA pos (Reg.CTR k n)) = some r → t.reg (tileA pos (Reg.CTR k n)) =
          maskedValue r (s.reg (tileA pos (Reg.CTR k n))) (BitVec.ofNat 32 (ofBytes (data.take 4)))))) ∧
  (∀ (s : State) (pos : Pos) (priv : Priv) (slot addr id : Nat) (bits : BitVec 64),
    let off := s.tppOffset pos priv slot addr
    let old := BitVec.ofNat 64 (ofBytes (s.trayBytes pos off 8))
    (tppWindow addr = .bitSet → s.tppGood pos priv slot addr 8 →
      ∃ t, exec (.tppBitSet pos priv slot addr id bits) s = .next t ∧
        TppAnswers pos id (s.trayBytes pos off 8) false t ∧ Landed pos off (bytesOf 8 (old ||| bits).toNat) s t ∧
        RegsOfTile pos s t ∧ t.flt = s.flt) ∧
    (tppWindow addr = .bitClear → s.tppGood pos priv slot addr 8 →
      ∃ t, exec (.tppBitClear pos priv slot addr id bits) s = .next t ∧
        TppAnswers pos id (s.trayBytes pos off 8) false t ∧ Landed pos off (bytesOf 8 (old &&& ~~~bits).toNat) s t ∧
        RegsOfTile pos s t ∧ t.flt = s.flt) ∧
    (tppWindow addr = .take → s.tppGood pos priv slot addr 32 →
      ∃ t, exec (.tppTake pos priv slot addr id) s = .next t ∧ TppAnswers pos id (s.trayBytes pos off 32) false t ∧
        Landed pos off (zeros 32) s t ∧ RegsOfTile pos s t ∧ t.flt = s.flt)) ∧
  (∀ (s : State) (pos : Pos) (priv : Priv) (slot addr len id : Nat) (data : List Byte),
    let off := s.tppOffset pos priv slot addr
    tppWindow addr = .rotate → s.tppGood pos priv slot addr len →
    (s.mode ≠ 1 → ∃ t, exec (.tppRotate pos priv slot addr len id false data) s = .next t ∧
      TppAnswers pos id (s.trayBytes pos off len) false t ∧ t.regs = s.regs ∧ t.trays.mem = s.trays.mem) ∧
    (s.mode ≠ 1 → data.length = len → ∃ t, exec (.tppRotate pos priv slot addr len id true data) s = .next t ∧
      TppAnswers pos id [] false t ∧ Landed pos off data s t ∧ RegsOfTile pos s t ∧ t.flt = s.flt) ∧
    (s.mode = 1 → ∀ write, ∃ t, exec (.tppRotate pos priv slot addr len id write data) s = .next t ∧
      Raised Src.TRAY_ROTATE_DENIED s t ∧ TppAnswers pos id (zeros len) true t ∧ t.regs = s.regs ∧
      t.trays.mem = s.trays.mem))

/-- A bank takes the state written for it, loses its contents when it goes Off, and is busy when it leaves Off until
it is zeroed. Tier 2; 06_trays_messages.md (R188, R197, R199). -/
def Obligations.BanksChangeState : Prop :=
  (∀ (acc : Access) (pos : Pos) (data : Word) (s : State), Admitted acc (tileA pos Reg.TRAY_BANK_CTRL) s →
    ∃ t, exec (.trayBankCtrlWrite acc pos data) s = .next t ∧
      RegsSame [tileA pos Reg.TRAY_BANK_CTRL, tileA pos Reg.TRAY_BANK_STAT] s t ∧
      (∀ b < 16, t.bankState pos b =
        (if s.bankRetired pos b = true ∨ fld data (2 * b + 1) (2 * b) = 3 then s.bankState pos b
          else fld data (2 * b + 1) (2 * b)) ∧
        t.bankRetired pos b = s.bankRetired pos b ∧
        t.bankBusy pos b = (s.bankBusy pos b || (s.bankState pos b == 2 && t.bankState pos b != 2))) ∧
      ∀ p off, off < 2 ^ 20 → t.trayByte p off =
        if p = pos ∧ t.bankState pos (off / 32 % 16) = 2 ∧ s.bankState pos (off / 32 % 16) ≠ 2 then 0
        else s.trayByte p off) ∧
  (∀ (s : State) (pos : Pos) (b : Nat), s.stopped = false → b < 16 → s.bankBusy pos b = true →
    ∃ t, exec (.bankInitDone pos b) s = .next t ∧ t.bankBusy pos b = false ∧
      RegsSame [tileA pos Reg.TRAY_BANK_STAT] s t ∧ (∀ k, k ≠ b → k < 16 → t.bankBusy pos k = s.bankBusy pos k) ∧
      ∀ p off, off < 2 ^ 20 → t.trayByte p off = if p = pos ∧ off / 32 % 16 = b then 0 else s.trayByte p off) ∧
  (∀ (s : State) (pos : Pos) (b : Nat), s.stopped = false → b < 16 → s.inMesh pos = true →
    fld (s.reg (tileA pos Reg.TRAY_STARVE_LIMIT)) 15 0 ≠ 0 →
    ∃ t, exec (.trayStarve pos b) s = .next t ∧ bit (t.reg (tileA pos Reg.TRAY_STARVE_STAT)) b = true ∧
      Raised Src.TRAY_STARVE s t ∧ RegsSame [tileA pos Reg.TRAY_STARVE_STAT] s t ∧ t.trays = s.trays)

/-- A spine port's training goes from state to state by its messages, and a failed attempt starts again or fails the
port. Tier 2; 09_spine_ports.md (R284, R285, R286, R287, R288, R289, R290, R291, R294). -/
def Obligations.SpinePortsTrain : Prop :=
  (∀ (s : State) (g lane : Nat), s.groupRuns g → s.spCircuit g = false → lane ≤ 8 →
    (∃ t, exec (.pmaLock g lane) s = .next t ∧ SpineOnly g s t ∧
      (t.spGroup g).sig = (s.spGroup g).sig ||| 2 ^ lane ∧
      ∀ p < s.spPorts g, lane ∈ s.portLanes g p → s.spState g p = spWAIT_PMA → s.laneUsable g lane = true →
        t.spState g p = spLOCK ∧ (t.spPort g p).trainFrom = s.time.edges ∧ (t.spPort g p).lockFrom = s.time.edges) ∧
    (∀ p < s.spPorts g, s.spState g p = spLOCK → (∀ q < s.spPorts g, s.spState g q ≠ spSPARING) →
      lane ∈ s.trainLanes g p →
      ((s.spGroup g).sig.testBit lane = false → exec (.laneCodewordLock g lane) s = .next s) ∧
      ((s.spGroup g).sig.testBit lane = true → ∃ t, exec (.laneCodewordLock g lane) s = .next t ∧ SpineOnly g s t ∧
        (t.spGroup g).locked = (s.spGroup g).locked ||| 2 ^ lane ∧
        t.spState g p = if (s.trainLanes g p).all (fun l => !(s.spGroup g).sig.testBit l || l == lane ||
          (s.spGroup g).locked.testBit l) then spIDENT else spLOCK)) ∧
    (∀ p < s.spPorts g, s.spState g p = spACTIVE → s.portOfLane g lane = some p →
      (agrMask (s.spPort g p).agr).testBit lane = true →
      ∃ t, exec (.laneLost g lane) s = .next t ∧ SpineOnly g s t ∧ t.spState g p = spLOCK ∧
        (t.spPort g p).kept = true ∧ Raised Src.LINK_RETRAIN s t ∧ (t.spGroup g).sig.testBit lane = false ∧
        t.spReg g (Reg.SP_RETRAIN_CNT p) = satAdd (s.spReg g (Reg.SP_RETRAIN_CNT p)) 1) ∧
    (∀ p, s.portOfLane g lane = some p → (s.spGroup g).relock.get 0 lane ≠ 0 →
      (s.spGroup g).relock.get 0 lane + 9999 ≤ s.time.edges →
      (s.oeBlind g = false → fld (s.spReg g (Reg.LANE_STAT lane)) 15 12 < 3 →
        ∃ t, exec (.relockTimeout g lane) s = .next t ∧ SpineOnly g s t ∧
          (t.spGroup g).oemi.map (·.op) = (s.spGroup g).oemi.map (·.op) ++ [4] ∧
          fld (t.spReg g (Reg.LANE_STAT lane)) 15 12 = fld (s.spReg g (Reg.LANE_STAT lane)) 15 12 + 1 ∧
          (t.spGroup g).relock.get 0 lane = s.time.edges + 1) ∧
      (s.oeBlind g = true → ∃ t, exec (.relockTimeout g lane) s = .next t ∧ t.laneUsable g lane = false ∧
        t.trays = s.trays))) ∧
  (∀ (s : State) (g p : Nat), s.portRuns g p → s.spCircuit g = false →
    (s.spState g p = spLOCK → (s.spPort g p).lockFrom + 100000 ≤ s.time.edges →
      ((∀ l ∈ s.trainLanes g p, (s.spGroup g).locked.testBit l = false) →
        ∃ t, exec (.lockTimeout g p) s = .next t ∧ AttemptFailed g p 1 s t ∧ t.trays = s.trays) ∧
      (∀ l ∈ s.trainLanes g p, (s.spGroup g).locked.testBit l = true →
        ∃ t, exec (.lockTimeout g p) s = .next t ∧ SpineOnly g s t ∧ t.spState g p = spIDENT ∧
          ∀ k ∈ s.trainLanes g p, k ≤ 8 → (s.spGroup g).sig.testBit k = true → (s.spGroup g).locked.testBit k = false →
            t.laneUsable g k = false)) ∧
    (s.spTrains g p = true → (s.spPort g p).trainFrom + s.trainLimit g ≤ s.time.edges →
      ∃ t, exec (.trainLimit g p) s = .next t ∧ fld (t.spReg g (Reg.SP_PORT_STAT p)) 15 8 = 0x0B ∧ t.trays = s.trays ∧
        (s.spState g p ≠ spIDENT → AttemptFailed g p 0x0B s t)) ∧
    (∀ (lane : Nat) (b : BitVec 256), s.spState g p = spIDENT → lane ≤ 8 → lane ∈ s.trainLanes g p →
      (s.spGroup g).locked.testBit lane = true →
      let exp := s.spReg g (Reg.SP_PARTNER_EXP p)
      ∃ t, exec (.ident g p lane b) s = .next t ∧ t.trays = s.trays ∧
        (bitsOf b.toNat 58 55 ≠ 3 → fld (t.spReg g (Reg.SP_PORT_STAT p)) 15 8 = 3) ∧
        (bitsOf b.toNat 58 55 = 3 → bit exp 17 = true → partnerIs exp b = false →
          t.spState g p = spFAILED ∧ fld (t.spReg g (Reg.SP_PORT_STAT p)) 15 8 = 4 ∧
          bit (t.spReg g Reg.SP_FLAG_STAT) 6 = true) ∧
        (bitsOf b.toNat 58 55 = 3 → (bit exp 17 = false ∨ partnerIs exp b = true) → s.laneTaken g lane b = false →
          ((s.spGroup g).wlLock.testBit lane = false ∨ idWl b = fld (s.spReg g (Reg.LANE_STAT lane)) 20 16) →
          SpineOnly g s t ∧ partnerIs (t.spReg g (Reg.SP_PARTNER p)) b = true ∧
          (t.spGroup g).ident.testBit lane = true ∧ (t.spGroup g).rxLane.get 0 lane = idLane b + 1 ∧
          t.spState g p = if t.identDone g p then spNEGOTIATE else spIDENT)) ∧
    (∀ b : BitVec 256, s.spState g p = spNEGOTIATE →
      (s.agreeNow g p b = none → ∃ t, exec (.cap g p b) s = .next t ∧ AttemptFailed g p 5 s t ∧ t.trays = s.trays) ∧
      (∀ a, s.agreeNow g p b = some a → ∃ t, exec (.cap g p b) s = .next t ∧
        t.spPort g p = { s.spPort g p with cap := some b, agr := a } ∧ t = { s with spine := t.spine }) ∧
      ((s.spPort g p).cap.isSome = true → ∃ t, exec (.agree g p b) s = .next t ∧ t.trays = s.trays ∧
        (sameAgr (s.spPort g p).agr b = true → SpineOnly g s t ∧ t.spState g p = spDESKEW) ∧
        (sameAgr (s.spPort g p).agr b = false → AttemptFailed g p 6 s t))) ∧
    (∀ skew : Nat, s.spState g p = spDESKEW → ∃ t, exec (.deskew g p skew) s = .next t ∧ t.trays = s.trays ∧
      (skew ≤ 160 → SpineOnly g s t ∧ t.spState g p = spTIME ∧ (t.spPort g p).exch = []) ∧
      (160 < skew → AttemptFailed g p 7 s t)) ∧
    (∀ ackSeq startSeq : Nat, s.spState g p = spCONFIRM → ∃ t, exec (.ready g p ackSeq startSeq) s = .next t ∧
      t.trays = s.trays ∧ t.spState g p = spACTIVE ∧ (t.spPort g p).txSeq = ackSeq % 2 ^ 24 ∧
      (t.spPort g p).ackSeq = startSeq % 2 ^ 24 ∧ (t.spPort g p).fails = 0 ∧
      fld (t.spReg g (Reg.SP_PORT_STAT p)) 27 26 = agrWidth (s.spPort g p).agr % 4 ∧
      bit (t.spReg g (Reg.SP_PORT_STAT p)) 25 = agrLow (s.spPort g p).agr))

/-- SP_CTRL starts, stops, retrains and releases a group, eye safety holds it, and circuit windows open, train late,
close and end. Tier 2; 09_spine_ports.md (R269, R284, R290, R296, R299, R301), 10_spine_role.md (R322, R323, R324). -/
def Obligations.SpineGroupsAreControlled : Prop :=
  (∀ (acc : Access) (pos : Pos) (side g : Nat) (data : Word) (s : State), Admitted acc (edgeA pos side Reg.SP_CTRL) s →
    s.groupAt pos side = some g → s.spSite g = (pos, side) → s.inMesh pos = true → s.spCircuit g = false →
    (∀ c : Instr, (c = .spEnable acc pos side data ∨ c = .spRetrain acc pos side data) → bit data 29 = false →
      (bit (s.spReg g Reg.SP_CTRL) 31 = false → bit data 31 = true → bit data 30 = false →
        ∃ t, exec c s = .next t ∧ t.trays = s.trays ∧ bit (t.spReg g Reg.SP_CTRL) 31 = true ∧
          t.spWidthLog g = fld data 25 24 ∧ (t.spGroup g).oemi.map (·.op) = (s.spGroup g).oemi.map (·.op) ++ [2, 7, 6] ∧
          ∀ p < t.spPorts g, s.spState g p = spDISABLED → t.spWaits g p ∧ (t.spPort g p).fails = 0) ∧
      (bit (s.spReg g Reg.SP_CTRL) 31 = true → bit data 31 = false →
        ∃ t, exec c s = .next t ∧ t.trays = s.trays ∧ bit (t.spReg g Reg.SP_CTRL) 31 = false ∧
          ∀ p < s.spPorts g, t.spState g p = if s.spState g p = spSAFETY_HOLD then spSAFETY_HOLD else spDISABLED) ∧
      (bit (s.spReg g Reg.SP_CTRL) 31 = true → bit data 31 = true → bit data 30 = true →
        ∃ t, exec c s = .next t ∧ t.trays = s.trays ∧ t.spWidthLog g = fld data 25 24 ∧
          ∀ p < t.spPorts g, if s.spState g p = spSAFETY_HOLD then t.spState g p = spSAFETY_HOLD
            else t.spWaits g p ∧ (t.spPort g p).fails = 0)) ∧
    (∀ accepted : Bool, bit (s.spReg g Reg.SP_CTRL) 31 = true → bit data 31 = true → bit data 30 = false →
      bit data 29 = true → (s.spGroup g).shut = true →
      ∃ t, exec (.safetyRelease acc pos side data accepted) s = .next t ∧ t.trays = s.trays ∧
        (t.spGroup g).shut = !accepted ∧
        ∀ p < s.spPorts g, s.spState g p = spSAFETY_HOLD →
          if accepted then t.spWaits g p else t.spState g p = spSAFETY_HOLD)) ∧
  (∀ (s : State) (g : Nat), s.groupRuns g → s.spCircuit g = false →
    ∃ t, exec (.eyeShut g) s = .next t ∧ t.trays = s.trays ∧ bit (t.spReg g Reg.OE_STAT) 29 = true ∧
      (bit (s.spReg g Reg.SP_CTRL) 28 = true → Raised Src.OE_EYE_SHUT s t ∧ (t.spGroup g).shut = true ∧
        bit (t.spReg g Reg.SP_FLAG_STAT) 3 = true ∧ ∀ p < s.spPorts g, t.spState g p = spSAFETY_HOLD ∧
          fld (t.spReg g (Reg.SP_PORT_STAT p)) 15 8 = 0x0A ∧ (t.spPort g p).tx = []) ∧
      (bit (s.spReg g Reg.SP_CTRL) 28 = false → (t.spGroup g).sig = 0 ∧ ∀ p < s.spPorts g,
        (s.spState g p = spACTIVE → t.spState g p = spLOCK) ∧
        (s.spTrains g p = true → t.spState g p = spWAIT_PMA ∨ t.spState g p = spFAILED))) ∧
  (∀ (s : State) (g : Nat), s.groupRuns g → s.spCircuit g = true →
    (∀ left, s.spine.circ.find? g = none → s.circLeft g = some left → s.spState g 0 ≠ spDISABLED →
      s.spState g 0 ≠ spSAFETY_HOLD →
      let n := (s.circCur g + 1) % (fld (s.spReg g Reg.SP_CIRC_CFG) 27 24 + 1)
      ∃ t w, exec (.circuitWindowStart g) s = .next t ∧ SpineOnly g s t ∧ t.circCur g = n ∧
        t.spine.circ.find? g = some w ∧ w.from' = s.ntNat ∧ w.closed = false ∧
        w.cached = bit (s.spReg g (Reg.SP_CIRC_AGR n)) 14 ∧ (t.spPort g 0).sent = [] ∧
        (bit (s.spReg g (Reg.SP_CIRC_EXP n)) 17 = true → w.lost = false ∧ t.spWaits g 0) ∧
        (bit (s.spReg g (Reg.SP_CIRC_EXP n)) 17 = false → w.lost = true ∧ t.spState g 0 = spWAIT_PMA ∧
          Raised Src.CIRCUIT_PARTNER s t ∧
          t.spReg g Reg.SP_CIRC_MISS_CNT = satAdd (s.spReg g Reg.SP_CIRC_MISS_CNT) 1)) ∧
    (∀ w, s.spine.circ.find? g = some w →
      (w.lost = false → bit (s.spReg g Reg.SP_CIRC_STAT) 27 = false →
        (s.circLate g w = false → exec (.circuitTrainAbandon g) s = .next s) ∧
        (s.circLate g w = true → ∃ t, exec (.circuitTrainAbandon g) s = .next t ∧ SpineOnly g s t ∧
          t.spState g 0 = spWAIT_PMA ∧ t.spine.circ.find? g = some { w with lost := true } ∧
          Raised Src.CIRCUIT_MISS s t ∧ fld (t.spReg g Reg.SP_CIRC_STAT) 15 8 =
            (if s.spState g 0 ≤ spLOCK then 1 else 0x0B) ∧
          t.spReg g Reg.SP_CIRC_MISS_CNT = satAdd (s.spReg g Reg.SP_CIRC_MISS_CNT) 1)) ∧
      (∀ left, s.circLeft g = some left →
        (s.circCutoff g < left → exec (.circuitCutoff g) s = .next s) ∧
        (left ≤ s.circCutoff g → ∃ t, exec (.circuitCutoff g) s = .next t ∧ t.circClosed g = true ∧
          t.spine.circ.find? g = some { w with closed := true } ∧ t = { s with spine := t.spine })) ∧
      (s.circLeft g = none → ∃ t, exec (.circuitWindowEnd g) s = .next t ∧ t.spine.circ.find? g = none ∧
        bit (t.spReg g Reg.SP_CIRC_STAT) 27 = false ∧ t.trays = s.trays ∧ (t.spPort g 0).sent = [] ∧
        (t.spPort g 0).ingress = (s.spPort g 0).ingress ∧
        (s.spState g 0 ≠ spDISABLED → s.spState g 0 ≠ spSAFETY_HOLD → t.spState g 0 = spWAIT_PMA) ∧
        (((s.spPort g 0).sent ≠ [] ∨ (s.spPort g 0).tx ≠ [] ∨ (s.spPort g 0).txWords ≠ []) →
          Raised Src.CIRCUIT_CUT s t ∧
          t.spReg g Reg.SP_CIRC_CUT_CNT = satAdd (s.spReg g Reg.SP_CIRC_CUT_CNT) 1))))

/-- A faulty lane is spared or excluded, lanes and powers are watched, and the optical engine's answers take effect.
Tier 2; 09_spine_ports.md (R291, R292, R293, R294, R295, R296, R297, R298). -/
def Obligations.LanesAreSparedAndWatched : Prop :=
  (∀ (s : State) (g lane p : Nat), s.groupRuns g → s.spCircuit g = false → lane ≤ 8 →
    (s.laneUsable g lane = true → s.portOfLane g lane = some p → s.spState g p = spACTIVE → p < 8 →
      (agrMask (s.spPort g p).agr).testBit lane = true → agrSpare (s.spPort g p).agr ≠ lane →
      ∃ t, exec (.laneFault g lane) s = .next t ∧ SpineOnly g s t ∧ t.laneUsable g lane = false ∧
        ((s.freeSpare g p).isSome = true → t.spState g p = spSPARING ∧
          (t.spPort g p).sparing = some ⟨lane, s.time.edges, true, false⟩ ∧
          (t.spPort g p).ctl.length = (s.spPort g p).ctl.length + 1) ∧
        (s.freeSpare g p = none → t.spState g p = spLOCK ∧ t.laneDead g lane = true ∧ Raised Src.LINK_RETRAIN s t)) ∧
    (s.portOfLane g lane = none → s.laneUsable g lane = true →
      ∃ t, exec (.laneFault g lane) s = .next t ∧ SpineOnly g s t ∧ t.laneDead g lane = true) ∧
    (let n := (s.spGroup g).symNow.get 0 lane
     ∃ t, exec (.serCheck g lane) s = .next t ∧ SpineOnly g s t ∧ (t.spGroup g).symMs.get 0 lane = n ∧
       (t.spGroup g).symNow.get 0 lane = 0 ∧
       (n ≤ fld (s.spReg g Reg.SP_LANE_CFG) 31 16 → t = { s with spine := t.spine }) ∧
       (fld (s.spReg g Reg.SP_LANE_CFG) 31 16 < n → s.portOfLane g lane = some p → s.spState g p = spACTIVE →
         t.laneUsable g lane = false)) ∧
    (∀ (m : LaneMon), bit (s.spReg g Reg.SP_CTRL) 31 = true →
      ∃ t, exec (.readMon g [(lane, m)]) s = .next t ∧ SpineOnly g s t ∧
        fld (t.spReg g (Reg.LANE_RXP lane)) 15 0 = m.rxp.toNat ∧
        fld (t.spReg g (Reg.LANE_RXP lane)) 31 16 = fld (s.spReg g (Reg.LANE_RXP lane)) 31 16 ∧
        (t.spReg g (Reg.LANE_BIAS lane)).toNat = m.biasMax.toNat * 2 ^ 16 + m.bias.toNat ∧
        fld (t.spReg g (Reg.LANE_STAT lane)) 20 16 = m.wl.toNat % 32 ∧
        (t.spGroup g).wlLock.testBit lane = m.locked ∧
        ∀ q < s.spPorts g, s.spState g q = spACTIVE →
          ∃ w rest, (t.spPort g q).ctl = (s.spPort g q).ctl ++ w :: rest ∧ ctype w = 4) ∧
    (∀ wl : Nat, ∃ t, exec (.wlLockChange g lane true wl) s = .next t ∧ SpineOnly g s t ∧
      (t.spGroup g).wlLock.testBit lane = true ∧ fld (t.spReg g (Reg.LANE_STAT lane)) 20 16 = wl % 32 ∧
      (t.spGroup g).relock.get 0 lane = 0) ∧
    (∀ wl : Nat, ∃ t, exec (.wlLockChange g lane false wl) s = .next t ∧ t.trays = s.trays ∧
      (t.spGroup g).wlLock.testBit lane = false ∧
      (s.portOfLane g lane = none → t = { s with spine := t.spine }) ∧
      (s.portOfLane g lane = some p → s.laneUsable g lane = true → spIDENT ≤ s.spState g p →
        s.spState g p ≤ spSPARING → bit (t.spReg g Reg.SP_FLAG_STAT) 0 = true))) ∧
  (∀ (s : State) (g p lane : Nat), s.portRuns g p → s.spCircuit g = false → lane ≤ 8 →
    (∀ l, s.freeSpare g p = some l → (s.spGroup g).wlLock.testBit l = true →
      signed 16 (fld (s.spReg g Reg.OE_CFG2) 31 16) ≤ signed 16 (fld (s.spReg g (Reg.LANE_RXP l)) 15 0) →
      (s.spState g p = spACTIVE → (agrMask (s.spPort g p).agr).testBit lane = true →
        ∃ t, exec (.spareReq g p lane) s = .next t ∧ SpineOnly g s t ∧ t.spState g p = spSPARING ∧
          t.spPort g p = { s.spPort g p with
            sparing := some ⟨lane, s.time.edges, false, true⟩, off := 127, ctl := (t.spPort g p).ctl } ∧
          (t.spPort g p).ctl.length = (s.spPort g p).ctl.length + 1) ∧
      (∀ e, s.spState g p = spSPARING → (s.spPort g p).sparing = some ⟨lane, e, true, false⟩ →
        ∃ t, exec (.spareAck g p lane) s = .next t ∧ t = { s with spine := t.spine } ∧
          t.spPort g p = { s.spPort g p with sparing := some ⟨lane, e, true, true⟩, off := 127 })) ∧
    (∀ x, s.spState g p = spSPARING → (s.spPort g p).sparing = some x → x.lane ≤ 8 →
      (s.time.edges < x.edge + 2000 → exec (.sparingTimeout g p) s = .next s) ∧
      (x.edge + 2000 ≤ s.time.edges → ∃ t, exec (.sparingTimeout g p) s = .next t ∧ SpineOnly g s t ∧
        t.spState g p = spLOCK ∧ t.laneDead g x.lane = true ∧ (t.spPort g p).sparing = none ∧
        t.spReg g (Reg.SP_RETRAIN_CNT p) = satAdd (s.spReg g (Reg.SP_RETRAIN_CNT p)) 1)) ∧
    (∀ wl : Nat, ∃ t, exec (.wlAssign g p lane wl) s = .next t ∧ t = { s with spine := t.spine } ∧ SpineOnly g s t ∧
      (t.spGroup g).txWl.get 0 lane = wl % 32 + 1 ∧
      (t.spGroup g).oemi.map (fun x => (x.op, x.lane)) = (s.spGroup g).oemi.map (fun x => (x.op, x.lane)) ++ [(5, lane)]) ∧
    (∀ powers : List (BitVec 16), s.spState g p = spACTIVE → ∃ t, exec (.rxpReport g p powers) s = .next t ∧
      JustRegs ((List.range 9).map fun j => s.spA g (Reg.LANE_RXP j)) s t ∧
      ∀ j < 9, fld (t.spReg g (Reg.LANE_RXP j)) 15 0 = fld (s.spReg g (Reg.LANE_RXP j)) 15 0 ∧
        fld (t.spReg g (Reg.LANE_RXP j)) 31 16 = match powers[j]? with
          | some x => x.toNat
          | none => fld (s.spReg g (Reg.LANE_RXP j)) 31 16)) ∧
  (∀ (s : State) (g : Nat) (x : OemiReq) (xs : List OemiReq), s.groupRuns g → (s.spGroup g).oemi = x :: xs →
    (∀ f : BitVec 128, crc32c (bytesOf 12 f.toNat) ≠ bitsOf f.toNat 127 96 → x.tries + 1 < 3 →
      ∃ t, exec (.oemiResponse g f) s = .next t ∧ t = { s with spine := t.spine } ∧ SpineOnly g s t ∧
        (t.spGroup g).oemi = { x with tries := x.tries + 1, edge := s.time.edges } :: xs) ∧
    (∀ f : BitVec 128, crc32c (bytesOf 12 f.toNat) = bitsOf f.toNat 127 96 → bitsOf f.toNat 7 0 = x.op → 1 ≤ x.op →
      x.op ≤ 8 →
      (bitsOf f.toNat 23 16 ≠ x.tseq → exec (.oemiResponse g f) s = .next s) ∧
      (bitsOf f.toNat 23 16 = x.tseq → x.op ≠ 8 → ∃ t, exec (.oemiResponse g f) s = .next t ∧ SpineOnly g s t ∧
        (t.spGroup g).oemi.map (·.op) = xs.map (·.op) ∧
        (x.op = 2 → bitsOf f.toNat 31 24 = 0 → bit (t.spReg g Reg.OE_STAT) 31 = true ∧
          fld (t.spReg g Reg.OE_STAT) 23 16 = bitsOf f.toNat 47 40 ∧
          fld (t.spReg g Reg.OE_STAT) 15 0 = bitsOf f.toNat 63 48) ∧
        (x.op = 3 → x.lane ≤ 8 → bitsOf f.toNat 31 24 = 0 →
          fld (t.spReg g (Reg.LANE_BIAS x.lane)) 15 0 = bitsOf f.toNat 47 32))) ∧
    (s.time.edges < x.edge + 10000 → exec (.oemiTimeout g) s = .next s) ∧
    (x.edge + 10000 ≤ s.time.edges → ∃ t, exec (.oemiTimeout g) s = .next t ∧ SpineOnly g s t ∧
      (x.tries + 1 < 3 → (t.spGroup g).oemi = { x with tries := x.tries + 1, edge := s.time.edges } :: xs) ∧
      (3 ≤ x.tries + 1 → (t.spGroup g).oemi.map (·.op) = xs.map (·.op) ∧ bit (t.spReg g Reg.OE_STAT) 28 = true ∧
        Raised Src.OE_TIMEOUT s t)))

/-- Spine ports send and accept frames, packets leave and enter by them, and the partner's registers are reached. Tier
2; 09_spine_ports.md (R276, R278, R279, R280, R281, R304), 10_spine_role.md (R312, R314). -/
def Obligations.FramesPacketsAndPeersCross : Prop :=
  (∀ (s : State) (g p : Nat), s.portRuns g p → s.spState g p = spACTIVE → s.spCircuit g = false →
    s.sketch.edge.find? g = none →
    let v := s.spPort g p
    let held := bit (s.spReg g (Reg.SP_PORT_STAT p)) 23
    (v.replay = false → v.resend = none → (v.hasWork held = false ∨ v.window ≤ v.sent.length) →
      ∃ t, exec (.frameSend g p) s = .next t ∧ SpineOnly g s t ∧
        (t.spPort g p).line = List.replicate v.frameWords (v.control 6) ∧ (t.spPort g p).sent = v.sent ∧
        (t.spPort g p).txSeq = v.txSeq ∧ SameRegsAndTrays s t) ∧
    (v.replay = false → v.resend = none → v.hasWork held = true → v.sent.length < v.window → agrWidth v.agr ≤ 3 →
      ∃ t ws, exec (.frameSend g p) s = .next t ∧ SpineOnly g s t ∧ (t.spPort g p).line.length = v.frameWords ∧
        (t.spPort g p).sent = v.sent ++ [(v.txSeq % 2 ^ 24, ws)] ∧ (t.spPort g p).txSeq = (v.txSeq + 1) % 2 ^ 24 ∧
        ws.length = v.frameWords ∧ SameRegsAndTrays s t) ∧
    (∀ f, v.replay = true → v.resend = some f → agrLow v.agr = false →
      ∃ t w, exec (.frameSend g p) s = .next t ∧ SpineOnly g s t ∧ (t.spPort g p).line.head? = some (true, w) ∧
        ctype w = 7 ∧ wordBits w 39 16 = f % 2 ^ 24 ∧ (t.spPort g p).replay = false ∧ (t.spPort g p).resend = some f ∧
        t.spReg g (Reg.SP_REPLAY_CNT p) = satAdd (s.spReg g (Reg.SP_REPLAY_CNT p)) 1 ∧ Raised Src.LINK_REPLAY s t)) ∧
  (∀ (s : State) (g p : Nat) (f : PhizaFrame), s.portRuns g p → s.spState g p = spACTIVE → s.spCircuit g = false →
    f.syms = [] →
    let v := s.spPort g p
    (f.ue ≠ 0 → ∃ t, exec (.frameReceive g p f) s = .next t ∧ SpineOnly g s t ∧
      t.spReg g (Reg.SP_CW_UE_CNT p) = satAdd (s.spReg g (Reg.SP_CW_UE_CNT p)) f.ue ∧
      (v.rejects < 4 → t.spState g p = spACTIVE ∧
        t.spPort g p = { v with nak := true, nakDue := true, rejects := v.rejects + 1 }) ∧
      (4 ≤ v.rejects → t.spState g p = spLOCK ∧ fld (t.spReg g (Reg.SP_PORT_STAT p)) 15 8 = 9)) ∧
    (f.ue = 0 → (∀ w rest, f.words = (true, w) :: rest → ctype w ≠ 7) → holdFrame false f.words = false →
      (v.nak = true → exec (.frameReceive g p f) s = .next s) ∧
      (∀ v' fl, v.nak = false → SpPort.takeWords 0 v [] f.words = .ok v' fl → ∃ t,
        exec (.frameReceive g p f) s = .next t ∧ (t.spPort g p).ackSeq = (v.ackSeq + 1) % 2 ^ 24 ∧
        (t.spPort g p).ingress = v'.ingress ∧ (t.spPort g p).rejects = 0 ∧ t.trays = s.trays ∧ t.eng = s.eng))) ∧
  (∀ (s : State) (g vc p idx : Nat) (pkt : Pkt) (rest : List (Nat × Pkt)), s.groupRuns g → s.time.dieId ≠ aliasId →
    s.egressHead g vc = some ((idx, pkt), rest) → s.egressPort g idx vc = some p →
    let key := 32 * (s.spSite g).1 + 16 + (s.spSite g).2
    ((s.spState g p ≠ spFAILED ∧ s.spState g p ≠ spSAFETY_HOLD) →
      (s.circClosed g = true ∨ s.exitRateOk g pkt = false → exec (.spineEgress g vc) s = .next s) ∧
      (s.circClosed g = false → s.exitRateOk g pkt = true → ∃ t, exec (.spineEgress g vc) s = .next t ∧
        (t.spPort g p).tx = (s.spPort g p).tx ++ [(pkt, 0)] ∧ t.mesh.egress.get [] key = rest ∧
        RegsButEnergy [] s t ∧ t.trays = s.trays)) ∧
    (s.spState g p = spFAILED ∨ s.spState g p = spSAFETY_HOLD → ∃ t, exec (.spineEgress g vc) s = .next t ∧
      t.mesh.egress.get [] key = rest ∧ t.spReg g Reg.SP_DISC_CNT = satAdd (s.spReg g Reg.SP_DISC_CNT) 1 ∧
      RegsSame [s.spA g Reg.SP_DISC_CNT] s t ∧ t.trays = s.trays ∧ (t.spPort g p).tx = (s.spPort g p).tx)) ∧
  (∀ (s : State) (g : Nat) (pkt : Pkt), s.groupRuns g → pkt.vc.toNat < 6 → pkt.payload.length = pkt.words →
    s.time.dieId ≠ aliasId →
    let pos := (s.spSite g).1
    let side := (s.spSite g).2
    (s.isStale g pkt = true → ∃ t, exec (.spineIngress g pkt) s = .next t ∧
      t.spReg g Reg.SP_STALE_CNT = satAdd (s.spReg g Reg.SP_STALE_CNT) 1 ∧ t.mesh = s.mesh ∧ t.trays = s.trays ∧
      RegsSame [s.spA g Reg.SP_STALE_CNT] s t ∧ (s.spReg g Reg.SP_STALE_CNT = 0 → Raised Src.SPINE_STALE s t)) ∧
    (s.isStale g pkt = false → s.portOpen pos (9 + side) (16 + side) pkt.vc.toNat = true →
      ((s.police pos side pkt).1 = true → ∃ t, exec (.spineIngress g pkt) s = .next t ∧
        Injected pos (9 + side) pkt s t ∧ t.trays = s.trays ∧
        RegsSame [policeLevelA pos side (s.policerOf pos side pkt.ctx.toNat)] s t) ∧
      ((s.police pos side pkt).1 = false → ∃ t, exec (.spineIngress g pkt) s = .next t ∧ t.mesh.vcs = s.mesh.vcs ∧
        t.trays = s.trays))) ∧
  (∀ (acc : Access) (pos : Pos) (side g : Nat) (data : Word) (s : State), Admitted acc (edgeA pos side Reg.SP_PEER_CTRL) s →
    s.groupAt pos side = some g → s.spSite g = (pos, side) → s.inMesh pos = true → bit data 31 = true →
    let p := fld data 29 27
    let free := !bit (s.spReg g Reg.SP_PEER_STAT) 31 && s.spHas g p && s.spState g p == spACTIVE
    ∃ t, exec (.peerAccess acc pos side data) s = .next t ∧ t.trays = s.trays ∧
      RegsSame [s.spA g Reg.SP_PEER_CTRL, s.spA g Reg.SP_PEER_STAT] s t ∧
      (free = true → bit (t.spReg g Reg.SP_PEER_STAT) 31 = true ∧ (t.spGroup g).peer = some (p, s.time.edges) ∧
        ∃ f, (t.spPort g p).sk = (s.spPort g p).sk ++ [f] ∧ f.stype.toNat = (if bit data 30 then 1 else 0) ∧
          f.field 0 4 = (s.spReg g Reg.SP_PEER_ADDR).toNat ∧
          f.field 4 4 = if bit data 30 then (s.spReg g Reg.SP_PEER_DATA).toNat else 0) ∧
      (free = false → bit (t.spReg g Reg.SP_PEER_STAT) 28 = true ∧ t.spine = s.spine)) ∧
  (∀ (s : State) (g p : Nat), s.portRuns g p →
    (∀ e (data : Word) (status : BitVec 8), (s.spGroup g).peer = some (p, e) →
      ∃ t, exec (.peerResponse g p data status) s = .next t ∧ SpineOnly g s t ∧ (t.spGroup g).peer = none ∧
        fld (t.spReg g Reg.SP_PEER_STAT) 7 0 = status.toNat ∧ fld (t.spReg g Reg.SP_PEER_STAT) 31 30 = 1 ∧
        t.spReg g Reg.SP_PEER_DATA =
          if bit (s.spReg g Reg.SP_PEER_CTRL) 30 then s.spReg g Reg.SP_PEER_DATA else data) ∧
    (∀ (data : Word) (status : BitVec 8), (s.spGroup g).peer = none →
      ∃ t, exec (.peerResponse g p data status) s = .next t ∧ SameRegsAndTrays s t ∧ t.spine.ports = s.spine.ports ∧
        t.spine.groups = s.spine.groups) ∧
    (∀ e, (s.spGroup g).peer = some (p, e) →
      (s.time.edges < e + 10000 → s.spState g p = spACTIVE → exec (.peerAccessTimeout g) s = .next s) ∧
      (e + 10000 ≤ s.time.edges ∨ s.spState g p ≠ spACTIVE → ∃ t, exec (.peerAccessTimeout g) s = .next t ∧
        SpineOnly g s t ∧ (t.spGroup g).peer = none ∧ bit (t.spReg g Reg.SP_PEER_STAT) 29 = true ∧
        bit (t.spReg g Reg.SP_PEER_STAT) 31 = false)) ∧
    (∀ (write : Bool) (addr data : Word) (tag : BitVec 16), s.spine.peerIn = [] →
      let a := RegAddr.ofWord addr
      let acc : Access := ⟨.peer (8 * g + p), .supervisor, 0, 0, tag⟩
      ∃ t f, exec (.peerAccessReceive g p write addr data tag) s = .next t ∧ (t.spPort g p).sk.getLast? = some f ∧
        f.stype = 2 ∧ f.tag = tag ∧ f.field 0 4 = addr.toNat ∧ f.field 8 1 = (s.verdict acc a write).status ∧
        (write = false → f.field 4 4 =
          if s.verdict acc a false = .ok then (s.readAny (.peer (8 * g + p)) a).1.toNat else 0) ∧
        (write = true → s.verdict acc a true = .ok →
          ∀ b : RegAddr, t.reg b = (s.writeAny (.peer (8 * g + p)) a data).reg b)))

/-- A fused CONFIG that breaks R482 halts bring-up in FUSE with ERR FUSE_UE, and the die does not proceed. Tier 1;
R485. -/
def Obligations.IllegalConfigHaltsBringUp : Prop :=
  ∀ (s : State) (words : List (BitVec 128)), s.phase = 1 → s.mode = 0 → bit (s.die Reg.COOLANT_STAT) 31 = false →
    Config.legal (BitVec.ofNat 32 (words.getD 0 0).toNat) = false →
    ∃ t, exec (.fuseRead words true) s = .next t ∧ t.phase = 11 ∧ t.mode = 3 ∧ s.config = t.config ∧
      fld (t.die Reg.BRINGUP_STAT) 7 0 = 0x20 ∧
      (∀ w ok, exec (.fuseRead w ok) t = .next t) ∧ (∀ ok, exec (.clockStart ok) t = .next t) ∧
      (∀ l, exec (.calibrate l) t = .next t) ∧ (∀ l, exec (.trayTest l) t = .next t) ∧
      (∀ l ok, exec (.canvasRead l ok) t = .next t) ∧ (∀ l, exec (.firmwareStart l) t = .next t) ∧
      (∀ o, exec (.spinePhase o) t = .next t) ∧ (∀ o, exec (.timePhase o) t = .next t) ∧
      exec .enterReady t = .next t

/-- TIME follows TIME_CFG and ends when STATE is LOCKED or ROOT, or when TIME_WAIT has passed with TIME_NOT_LOCKED
set. Tier 1; R358. -/
def Obligations.TimePhaseEndsOnLockOrWait : Prop :=
  ∀ (s : State) (timedOut : Bool), s.phase = 8 → s.stopped = false →
    (timedOut = true → s.load.since + 100000 * s.load.timeMs ≤ s.time.edges) →
    let good := s.timeState = 2 ∨ s.timeState = 5
    ∃ t, exec (.timePhase timedOut) s = .next t ∧ t.time = s.time ∧ t.die Reg.TIME_CFG = s.die Reg.TIME_CFG ∧
      t.timeState = s.timeState ∧ (t.phase = 9 ↔ good ∨ timedOut = true) ∧
      (good → bit (t.die Reg.BRINGUP_STAT) 22 = bit (s.die Reg.BRINGUP_STAT) 22) ∧
      (¬good → timedOut = true → bit (t.die Reg.BRINGUP_STAT) 22 = true) ∧
      (¬good → timedOut = false → t = s)

/-- Resets, fuses, clocks, tests, the canvas, firmware, spine, time and READY follow one another, and glazes switch in
service. Tier 2; 11_bringup_canvas.md (R330, R332, R334, R335, R336, R338, R340, R343), 11_bringup_canvas.md (R344,
R345, R346, R347, R348, R349, R350, R353), 11_bringup_canvas.md (R354, R356, R357, R359, R361, R362, R363),
12_power_clocks.md (R366). -/
def Obligations.BringUpGoesPhaseByPhase : Prop :=
  (∀ (s : State) (sel : BitVec 4), ∃ t, exec (.powerOnReset sel) s = .next t ∧ t.phase = 0 ∧ t.mode = 0 ∧
    (∀ a : RegAddr, t.reg a = resetOf a) ∧ t.trays = State.reset.trays ∧ t.load.glazeSel = sel ∧
    t.config = s.config ∧ t.eng = State.reset.eng ∧ t.mesh = State.reset.mesh) ∧
  (∀ s : State, ∃ t, exec .systemReset s = .next t ∧ t.phase = 1 ∧ t.mode = 0 ∧ t.time.nt = s.time.nt ∧
    t.trays.mem = s.trays.mem ∧ t.trays.bad = s.trays.bad ∧ t.flt.retired = s.flt.retired ∧ t.config = s.config ∧
    t.eng = State.reset.eng ∧ t.mesh = State.reset.mesh ∧ (∀ pos off, pos < 1024 → off < 2 ^ 16 →
      t.reg (rtrA pos off) = resetOf (rtrA pos off))) ∧
  (∀ (acc : Access) (data : Word) (s : State), Admitted acc (dieA Reg.BRINGUP_CTRL) s →
    (s.mode = 3 → bit (s.die Reg.COOLANT_STAT) 31 = false →
      ∃ t, exec (.bringupReload acc data) s = .next t ∧ t.phase = 1 ∧ t.mode = 0 ∧ t.time.nt = s.time.nt ∧
        t.trays.mem = s.trays.mem) ∧
    (s.mode ≠ 3 → ∃ t, exec (.bringupReload acc data) s = .next t ∧ t.phase = s.phase ∧ Raised Src.CFG_ADJUSTED s t ∧
      RegsSame [dieA Reg.BRINGUP_CTRL] s t ∧ t.trays = s.trays) ∧
    (s.glazeWait = false ∨ s.inCanvas = false → ∃ t, exec (.bringupContinue acc data) s = .next t ∧
      fld (t.die Reg.BRINGUP_CTRL) 7 0 = fld data 7 0 ∧ OnlyRegs [dieA Reg.BRINGUP_CTRL] s t) ∧
    (s.glazeWait = true → s.inCanvas = true → s.load.wrote = [] → 2 ^ s.load.count ≤ fld data 7 0 →
      s.load.place / 16 < 2 ^ 24 → ∃ t, exec (.bringupContinue acc data) s = .next t ∧
        CopyFailed 0x11 (s.load.place / 16) s t) ∧
    (∀ image b, s.glazeWait = true → s.inCanvas = true → fld data 7 0 < 2 ^ s.load.count →
      s.load.image = image ++ b → s.load.place = image.length → 64 ≤ image.length → endsImage image b →
      s.load.len = image.length + 32 → ∃ t, exec (.bringupContinue acc data) s = .next t ∧ t.phase = 6 ∧
        t.activeGlazes = fld data 7 0 ∧ t.glazeWait = false)) ∧
  (∀ (s : State) (words : List (BitVec 128)), bit (s.die Reg.COOLANT_STAT) 31 = false →
    let config := BitVec.ofNat 32 (words.getD 0 0).toNat
    (s.phase ≤ 1 → s.mode = 0 → Config.legal config = true → ∃ t, exec (.fuseRead words true) s = .next t ∧ t.phase = 2 ∧
      t.config = config ∧ t.load.fuses = words ∧ ∀ n < Config.panels config,
        fld (t.die (Reg.PANEL_STAT n)) 15 8 = bitsOf (words.getD 1 0).toNat (8 * n + 7) (8 * n)) ∧
    (s.phase ≤ 1 → s.mode = 0 → ∃ t, exec (.fuseRead words false) s = .next t ∧ t.phase = 11 ∧
      fld (t.die Reg.BRINGUP_STAT) 7 0 = 0x20) ∧
    (s.phase = 2 → (∃ t, exec (.clockStart true) s = .next t ∧ t.phase = 3 ∧
        (t.die Reg.CLK_STAT).toNat = 2 ^ 31 + s.fusedF) ∧
      (∃ t, exec (.clockStart false) s = .next t ∧ t.phase = 11 ∧ fld (t.die Reg.BRINGUP_STAT) 7 0 = 0x21))) ∧
  (∀ s : State, s.stopped = false →
    (∀ failed : List (Nat × Nat), s.phase = 3 → ∃ t, exec (.calibrate failed) s = .next t ∧ t.phase = 4 ∧
      t.trays = s.trays ∧ (failed = [] → fuseParts s.load.fuses = [] → t.flt = s.flt) ∧
      ∀ f ∈ failed, s.isLink f.1 f.2 = true → f ∈ t.flt.retired ∧ bit (t.die Reg.BRINGUP_STAT) 23 = true) ∧
    (∀ failed : List (Nat × Nat × Nat), s.phase = 4 → ∃ t, exec (.trayTest failed) s = .next t ∧ t.phase = 5 ∧
      t.trays.mem = [] ∧ t.trays.bad = [] ∧ ∀ (pos b : Nat) (cols : List Nat), s.inMesh pos = true → b < 16 → cols.Nodup →
        4 < cols.length → (∀ c ∈ cols, c < 288 ∧ (pos, b, c) ∈ failed) →
        t.bankRetired pos b = true ∧ bit (t.die Reg.BRINGUP_STAT) 23 = true) ∧
    (∀ reports : List Nat, s.phase = 6 →
      let started (n : Nat) : Bool := reports.contains n && s.core.fw.contains n
      (started s.masterCore = true → ∃ t, exec (.firmwareStart reports) s = .next t ∧ t.phase = 7 ∧
        (∀ n ≤ s.masterCore, t.coreRuns n = started n) ∧ ∀ n < s.masterCore, started n = false →
          ∃ r ∈ t.flt.inFlight, r.source = BitVec.ofNat 8 Src.EASEL_START ∧ r.arg0 = BitVec.ofNat 64 n) ∧
      (started s.masterCore = false → ∃ t, exec (.firmwareStart reports) s = .next t ∧ t.phase = 11 ∧
        fld (t.die Reg.BRINGUP_STAT) 7 0 = 0x22)) ∧
    (∀ timedOut : Bool, s.phase = 7 → ∃ t, exec (.spinePhase timedOut) s = .next t ∧ t.spine = s.spine ∧
      (s.enabledGroups.all s.groupSettled = true → t.phase = 8) ∧
      (s.enabledGroups.all s.groupSettled = false → timedOut = true → s.waited s.load.spineMs = true →
        t.phase = 8 ∧ bit (t.die Reg.BRINGUP_STAT) 21 = true) ∧
      (s.enabledGroups.all s.groupSettled = false → timedOut = false ∨ s.waited s.load.spineMs = false → t = s)) ∧
    (s.phase = 9 → s.mode = 0 → ∃ t, exec .enterReady s = .next t ∧ t.release = true ∧
      t.mode = (if s.anyDiag s.activeGlazes then 2 else 1) ∧
      (∀ p ∈ s.positions, s.isSpare p = true → ∀ b < 16, t.bankOff p b = true) ∧
      ∀ p ∈ s.positions, s.damaged p = true → t.fenced p = true)) ∧
  (∀ (s : State) (c : Instr) (n : Nat), (c, n) ∈ [(Instr.calibrate [], 3), (.trayTest [], 4), (.canvasRead [] true, 5),
      (.firmwareStart [], 6), (.spinePhase true, 7), (.timePhase true, 8), (.enterReady, 9)] →
    s.phase ≠ n → exec c s = .next s) ∧
  (∀ (s : State) (b : List Byte), s.inCanvas = true → s.glazeWait = false → s.load.place = 0 →
    s.load.image = [] → s.load.wrote = [] → b.length = 64 → (s.headerErr b = 0 →
      ∃ t, exec (.canvasRead b true) s = .next t ∧ t.phase = 5 ∧ t.load.place = 64 ∧ t.load.image = b ∧
        t.load.len = leAt b 16 4 ∧ t.load.count = leAt b 24 1 ∧ t.load.policy = leAt b 25 1 ∧ t.trays = s.trays) ∧
    (s.headerErr b ≠ 0 → ∃ t, exec (.canvasRead b true) s = .next t ∧ CopyFailed (s.headerErr b) 0 s t) ∧
    (∃ t, exec (.canvasRead [] false) s = .next t ∧ CopyFailed 1 0 s t)) ∧
  (∀ (s : State) (ty : Nat) (b : List Byte) (c : Instr), (ty, c) ∈ [(1, Instr.glazeDesc b), (2, .claims b), (3, .colmap b),
      (4, .firmware b), (5, .regWriteRec b), (6, .routeRec b), (7, .sprayRec b), (8, .stencilRec b), (9, .collectiveRec b)] →
    s.recordStands ty b → s.load.place + b.length + 32 ≤ s.load.len →
    let s' : State := { s with load := { s.load with image := s.load.image ++ b, order := ty } }
    (∀ u, s'.applyRecord (s.headOf b) = .ok u → (ty = 5 → plainPairs (s.headOf b)) →
      exec c s = .next { u with load := { u.load with place := s.load.place + b.length } }) ∧
    (∀ code off, s'.applyRecord (s.headOf b) = .error (code, off) → s.load.wrote = [] → code < 256 → off < 2 ^ 24 →
      ∃ t, exec c s = .next t ∧ CopyFailed code off s t)) ∧
  (∀ (s u : State) (r : RecHead), s.applyRecord r = .ok u →
    (r.ty = 1 → ∃ d, u.load.descs.find? r.target = some d ∧ d.diag = (leAt r.body 0 1).testBit 0 ∧
      d.runtime = (leAt r.body 0 1).testBit 1 ∧ d.drain = bitsOf (leAt r.body 1 1) 5 0 ∧ u = { s with load := u.load }) ∧
    (r.ty = 2 → r.len = 16 → (leAt r.body 2 1).testBit 1 = false → u.load.claims = s.load.claims ++ [r.claim 0] ∧
      u = { s with load := u.load }) ∧
    (r.ty = 3 → JustRegs ((List.range 32).map fun i => dieA (Reg.COLMAP_SPARE i)) { s with load := u.load } u ∧
      ∀ i < Config.rows s.config, u.spareMask i = leAt r.body (4 * i) 4) ∧
    (r.ty = 4 → u = { s with core := u.core } ∧ ∀ i < r.body.length, r.target % 256 ≠ 255 →
      u.core.mem.get 0 (2 ^ 20 * (r.target % 256) + 2 ^ 19 * (r.target / 256 % 2) + r.target / 4096 + i) = r.body.getD i 0) ∧
    (r.ty = 5 → r.len = 8 → plainPairs r → ∀ spec,
      let a := RegAddr.ofWord (BitVec.ofNat 32 (leAt r.body 0 4))
      specOf a = some spec → u.reg a = maskedValue spec (s.reg a) (BitVec.ofNat 32 (leAt r.body 4 4)) ∧
        RegsSame [a] s u) ∧
    (r.ty = 6 → ∀ i < r.len / 4, fld (u.entry r.pos (if r.alt then 1 - s.routeBank else s.routeBank)
      (r.target % 2048 + i)) 16 0 = leAt r.body (4 * i) 4 % 2 ^ 17) ∧
    (r.ty = 7 → ∀ i < r.len / 4, (u.spray r.pos (if r.alt then 1 - s.routeBank else s.routeBank)
      (r.target % 64 + i)).toNat = leAt r.body (4 * i) 4) ∧
    (r.ty = 8 → ∀ i < r.len / 8, u.stencilEntry (if r.alt then 1 - s.stencilBank else s.stencilBank) r.pos
      (bitsOf r.target 12 8) (r.target % 256 + i) = BitVec.ofNat 64 (leAt r.body (8 * i) 8)) ∧
    (r.ty = 9 → (u.eng.records.find? r.target).isSome = true ∧
      u.load.storeAt = s.load.storeAt + 32 * ceilDiv r.body.length 32)) ∧
  (∀ (s : State) (b : List Byte), s.recordStands 0xFFFF b → s.load.len = s.load.place + 32 →
    (∀ m, s.load.set = some m → endsImage s.load.image b → ∃ t, exec (.endRec b) s = .next t ∧ t.phase = 6 ∧
      t.load.reading = false ∧ t.activeGlazes = m % 256 ∧ (t.die Reg.CANVAS_ID).toNat = leAt s.load.image 20 4 ∧
      t.trays = s.trays) ∧
    (∀ m, s.load.set = some m → leAt b 4 4 = 4 → leAt b 8 4 = 0 → leAt b 16 4 ≠ crc32c s.load.image → s.load.wrote = [] →
      s.load.place / 16 < 2 ^ 24 → ∃ t, exec (.endRec b) s = .next t ∧ CopyFailed 8 (s.load.place / 16) s t)) ∧
  (∀ (acc : Access) (data : Word) (readOk : Bool) (s : State), Admitted acc (dieA Reg.GLAZE_SWITCH_CTRL) s →
    let new := s.dieF Reg.GLAZE_SWITCH_MASK 7 0
    let busy := bit (s.die Reg.GLAZE_SWITCH_STAT) 31
    ∃ t, exec (.glazeSwitch acc data readOk) s = .next t ∧
      (bit data 31 = false → OnlyRegs [] s t) ∧
      (bit data 31 = true → busy = true → fld (t.die Reg.GLAZE_SWITCH_STAT) 7 0 = 6 ∧
        bit (t.die Reg.GLAZE_SWITCH_STAT) 30 = true ∧ OnlyRegs [dieA Reg.GLAZE_SWITCH_STAT] s t) ∧
      (bit data 31 = true → busy = false → s.switchCheck new ≠ 0 → t.switching = false ∧ t.hold = 0 ∧
        fld (t.die Reg.GLAZE_SWITCH_STAT) 7 0 = s.switchCheck new ∧ bit (t.die Reg.STENCIL_SWITCH_ARM) 0 = false ∧
        t.trays = s.trays) ∧
      (bit data 31 = true → busy = false → s.switchCheck new = 0 → readOk = false →
        fld (t.die Reg.GLAZE_SWITCH_STAT) 7 0 = 4 ∧ t.switching = false) ∧
      (bit data 31 = true → busy = false → s.switchCheck new = 0 → readOk = true → s.load.image ≠ [] →
        bit (t.die Reg.GLAZE_SWITCH_STAT) 31 = true ∧ t.load.switchAt = s.switchAt ∧ t.load.drained = false ∧
        t.load.oldSet = s.activeGlazes ∧ t.routeBank = s.routeBank ∧ t.stencilBank = s.stencilBank)) ∧
  (∀ s : State, Config.legal s.config = true → s.switching = true →
    (s.load.drained = false → s.ntNat + 16000 * s.drainLimit < s.load.switchAt →
      exec .glazeSwitchDrain s = .next s) ∧
    (s.load.drained = false → s.load.switchAt ≤ s.ntNat + 16000 * s.drainLimit → s.load.held < 64 →
      ∃ t, exec .glazeSwitchDrain s = .next t ∧
        (s.ntNat < s.switchAt → t.hold = s.hold ||| s.load.held ∧ bit (t.die Reg.STENCIL_SWITCH_ARM) 0 = true ∧
          t.load.drained = true ∧ t.switching = true) ∧
        (s.switchAt ≤ s.ntNat → bit (s.die Reg.STENCIL_SWITCH_ARM) 0 = false →
          fld (t.die Reg.GLAZE_SWITCH_STAT) 7 0 = 3 ∧ t.switching = false ∧ t.hold = 0)) ∧
    (s.load.drained = true → s.load.switchAt ≤ s.ntNat → s.switchAt ≤ s.ntNat →
      bit (s.die Reg.STENCIL_SWITCH_ARM) 0 = true → ∃ t, exec .glazeSwitchCommit s = .next t ∧ t.switching = false ∧
        t.hold = 0 ∧
        ((setBits 6 s.load.held).all (fun v => s.vcEmpty v) = true →
          t.routeBank = 1 - s.routeBank ∧ t.stencilBank = 1 - s.stencilBank ∧
          t.activeGlazes = s.dieF Reg.GLAZE_SWITCH_MASK 7 0 ∧ fld (t.die Reg.GLAZE_SWITCH_STAT) 7 0 = 0) ∧
        ((setBits 6 s.load.held).all (fun v => s.vcEmpty v) = false →
          t.routeBank = s.routeBank ∧ t.stencilBank = s.stencilBank ∧
          fld (t.die Reg.GLAZE_SWITCH_STAT) 7 0 = 5)))

/-- Panels sleep, wake and stretch, budgets and rails throttle, the cap is divided and shifted, energy is counted, and
coolant loss stops all. Tier 2; 12_power_clocks.md (R370, R372, R373, R374, R376, R377, R378), 12_power_clocks.md
(R379, R380, R382, R383, R384, R387, R388, R390), 12_power_clocks.md (R392, R393), 04_time_stencils.md (R135). -/
def Obligations.PanelsSleepAndPowerIsShared : Prop :=
  (∀ (s : State) (n : Nat), s.panelExists n = true → s.stopped = false →
    (∀ st, s.panelState n = 0 → s.power.entering.find? n = none → s.power.waking.find? n = none → s.panelIdle n = true →
      s.sleepChoice n = some st → ∃ t, exec (.panelSleep n) s = .next t ∧
        t.power.entering.find? n = some (st, s.ntNat + entryTime st) ∧
        t = { s with power := { s.power with entering := t.power.entering } }) ∧
    (s.panelState n ≠ 0 ∨ s.panelIdle n = false ∨ s.sleepChoice n = none → exec (.panelSleep n) s = .next s) ∧
    (∀ st at', s.power.entering.find? n = some (st, at') → st < 4 →
      (s.ntNat < at' → exec (.panelEntryDone n) s = .next s) ∧
      (at' ≤ s.ntNat → ∃ t, exec (.panelEntryDone n) s = .next t ∧ t.panelState n = st ∧
        t.power.entering.find? n = none ∧ t.trays = s.trays ∧
        (st ≠ 3 → RegsSame [dieA (Reg.PANEL_STAT n), dieA Reg.TRACE_STAT, dieA Reg.TRACE_LOST_CNT] s t) ∧
        (st = 3 → (∀ pos ∈ s.panelPos n, ∀ b < 16, s.bankState pos b = 0 → t.bankState pos b = 1) ∧
          ∀ pos ∈ s.panelPos n, ∀ off < 0x200, t.reg (rtrA pos off) = resetOf (rtrA pos off)))) ∧
    (s.power.waking.find? n = none → ∃ t, exec (.panelWake n) s = .next t ∧
      (s.wakingFrom n = 0 → t = s) ∧
      (s.wakingFrom n ≠ 0 → t.power.waking.find? n = some (s.ntNat + wakeTime (s.wakingFrom n), false) ∧
        t.power.entering.find? n = none ∧
        t.die (Reg.PANEL_WAKE_CNT n) = satAdd (s.die (Reg.PANEL_WAKE_CNT n)) 1 ∧
        RegsSame [dieA (Reg.PANEL_WAKE_CNT n)] s t ∧ t.trays = s.trays)) ∧
    (s.wakeDue n = false → exec (.panelWakePlanned n) s = .next s) ∧
    (s.wakeDue n = true → s.power.waking.find? n = none → ∃ t, exec (.panelWakePlanned n) s = .next t ∧
      t.power.waking.find? n = some (s.ntNat + wakeTime (s.wakingFrom n), true) ∧ SameRegsAndTrays s t) ∧
    (∀ at', s.wakeDue n = true → s.power.waking.find? n = some (at', false) →
      ∃ t, exec (.panelWakePlanned n) s = .next t ∧ t.power.waking.find? n = some (at', true) ∧
        (t.die (Reg.PANEL_WAKE_CNT n)).toNat = (s.die (Reg.PANEL_WAKE_CNT n)).toNat - 1) ∧
    (∀ at' planned, s.power.waking.find? n = some (at', planned) →
      (s.ntNat < at' → exec (.panelWakeDone n) s = .next s) ∧
      (at' ≤ s.ntNat → ∃ t, exec (.panelWakeDone n) s = .next t ∧ t.panelState n = 0 ∧ t.power.waking.find? n = none ∧
        t.trays = s.trays ∧ RegsSame [dieA (Reg.PANEL_STAT n), dieA Reg.TRACE_STAT, dieA Reg.TRACE_LOST_CNT] s t)) ∧
    (∃ t, exec (.droop n) s = .next t ∧ (t.power.droop.get (0, 0) n).1 = max 1 (s.power.droop.get (0, 0) n).1 ∧
      bit (t.die (Reg.PANEL_STAT n)) 29 = true ∧ Raised Src.DROOP s t ∧ t.trays = s.trays ∧
      fld (t.die (Reg.PANEL_STAT n)) 26 24 = min 7 (t.stretchLevel n)) ∧
    (∀ lvl at' persists, s.power.droop.find? n = some (lvl, at') → lvl ≠ 0 →
      (s.cycle < at' + s.droopHold → exec (.droopHoldEnd n persists) s = .next s) ∧
      (at' + s.droopHold ≤ s.cycle → ∃ t, exec (.droopHoldEnd n persists) s = .next t ∧ t.trays = s.trays ∧
        (t.power.droop.get (0, 0) n).1 = (if persists then min 7 (lvl + 1) else 0) ∧
        fld (t.die (Reg.PANEL_STAT n)) 26 24 = min 7 (t.stretchLevel n)))) ∧
  (∀ (s : State) (n : Nat), s.panelExists n = false → s.stopped = false →
    ∃ t, exec (.droop n) s = .next t ∧ Raised Src.DROOP_CTRL s t ∧ SameRegsAndTrays s t) ∧
  (∀ (s : State) (n : Nat) (temp : BitVec 8), s.panelExists n = true →
    let v := signed 8 temp.toNat
    let crit := signed 8 (s.dieF Reg.THERM_CFG 31 24)
    ∃ t, exec (.tempSample n temp) s = .next t ∧ fld (t.die (Reg.PANEL_STAT n)) 23 16 = temp.toNat ∧ t.trays = s.trays ∧
      (crit < v → n ∈ t.power.hot) ∧ (v ≤ crit - 5 → n ∉ t.power.hot) ∧
      (crit < v → n ∉ s.power.hot → bit (t.die (Reg.PANEL_STAT n)) 27 = true ∧
        fld (t.die (Reg.PANEL_STAT n)) 26 24 = 7 ∧
        ∀ p ∈ s.panelPos n, s.hasBudget p = true → fld (t.reg (tileA p Reg.TILE_BUDGET)) 15 13 = 7) ∧
      (signed 8 (s.dieF Reg.THERM_CFG 23 16) < v → s.power.warm.get 0 n = 0 →
        bit (t.die (Reg.PANEL_STAT n)) 28 = true ∧ ∃ r ∈ t.flt.inFlight, r.source = BitVec.ofNat 8 Src.THERM_WARN)) ∧
  (∀ (s : State) (pos : Pos) (f : SFlit), s.hasBudget pos = true → s.stopped = false → f.stype.toNat = 9 →
    (f.field 0 1 = 0 → ∃ t, exec (.powerBudget pos f) s = .next t ∧ t.trays = s.trays ∧
      fld (t.reg (tileA pos Reg.TILE_BUDGET)) 31 16 = f.field 2 2 ∧ RegsSame [tileA pos Reg.TILE_BUDGET] s t) ∧
    (f.field 0 1 ≠ 0 → ∃ t, exec (.powerBudget pos f) s = .next t ∧ Raised Src.SKETCH_DISCARD s t ∧
      SameRegsAndTrays s t) ∧
    (s.power.excess.get 0 pos < 10 → exec (.budgetViol pos) s = .next s) ∧
    (10 ≤ s.power.excess.get 0 pos → s.power.violAt.get 0 pos ≠ s.period + 1 →
      ∃ t, exec (.budgetViol pos) s = .next t ∧ bit (t.reg (tileA pos Reg.TILE_BUDGET)) 11 = true ∧
        t.power.viol.get 0 pos = min 7 (s.power.viol.get 0 pos + 1) ∧
        fld (t.reg (tileA pos Reg.TILE_BUDGET)) 15 13 = min 7 (t.throttleLevel pos) ∧
        RegsSame [tileA pos Reg.TILE_BUDGET] s t ∧ (s.power.viol.get 0 pos = 0 → Raised Src.BUDGET_VIOL s t))) ∧
  (∀ (s : State) (r : Nat), r < 8 → s.stopped = false → ∃ t, exec (.railLimit r) s = .next t ∧ t.trays = s.trays ∧
    let limit := s.dieF (Reg.RAIL_CFG r) 31 16
    let est := fld (t.die (Reg.RAIL_STAT r)) 15 0
    (limit = 0 → t.railLevel r = s.railLevel r ∧ RegsSame [dieA (Reg.RAIL_STAT r)] s t) ∧
    (limit ≠ 0 → limit < est → t.railLevel r = min 7 (s.railLevel r + 1) ∧ Raised Src.RAIL_LIMIT s t ∧
      bit (t.die (Reg.RAIL_STAT r)) 31 = true) ∧
    (limit ≠ 0 → est ≤ limit → t.railLevel r ≤ s.railLevel r ∧ (9 * limit ≤ 10 * est → t.railLevel r = s.railLevel r))) ∧
  (∀ s : State, bit (s.die Reg.POWER_CTRL) 31 = true → s.masterRuns = true → s.stopped = false →
    let unctrl := (Config.uncontrolled s.fresh).toNat
    let cap := s.dieF Reg.POWER_CAP 15 0
    let avail : Int := if cap = 0 then 3 * 65535 else (cap : Int) + signed 16 (s.dieF Reg.PWR_SHIFT 15 0) - unctrl
    let floor (d : Nat) : Nat := s.dieF (Reg.DOM_LIMIT d) 15 0
    ∃ t, exec .capDivide s = .next t ∧ t.trays = s.trays ∧ t.power.computeSum = 0 ∧ t.power.capAt = s.time.edges ∧
      RegsSame [dieA Reg.POWER_STAT, dieA (Reg.DOM_STAT 0), dieA (Reg.DOM_STAT 1), dieA (Reg.DOM_STAT 2)] s t ∧
      (avail < floor 0 + floor 1 + floor 2 → Raised Src.CAP_UNATTAINABLE s t ∧ bit (t.die Reg.POWER_STAT) 31 = true ∧
        ∀ d < 3, fld (t.die (Reg.DOM_STAT d)) 15 0 = floor d) ∧
      ((floor 0 + floor 1 + floor 2 : Int) ≤ avail → t.flt = s.flt ∧
        (∀ d < 3, floor d ≤ fld (t.die (Reg.DOM_STAT d)) 15 0) ∧
        ((fld (t.die (Reg.DOM_STAT 0)) 15 0 + fld (t.die (Reg.DOM_STAT 1)) 15 0 +
          fld (t.die (Reg.DOM_STAT 2)) 15 0 : Nat) : Int) ≤ avail)) ∧
  (∀ (s : State) (f : SFlit), s.coordinates = true → f.stype.toNat = 0x0A →
    (∀ r ∈ s.power.rounds, r.round ≠ f.field 6 4) → ∃ t, exec (.powerSlack f) s = .next t ∧ SameRegsAndTrays s t ∧
      (dieOf f.src).toNat ∈ t.power.members ∧
      t.power.rounds = if s.dieF Reg.PWR_GROUP_CFG 16 0 ≤ 1 then s.power.rounds
        else s.power.rounds ++ [⟨f.field 6 4, s.time.edges, [((dieOf f.src).toNat, f.field 0 4, signed 16 (f.field 4 2))]⟩]) ∧
  (∀ s : State, s.coordinates = true →
    let limit := 100 * max 1 (s.dieF Reg.PWR_SLACK_CFG 15 0)
    ∃ t, exec .slackRoundTimeout s = .next t ∧ RegsSame [dieA Reg.PWR_GROUP_RESET_CNT] s t ∧ t.trays = s.trays ∧
      (∀ r ∈ t.power.rounds, r ∈ s.power.rounds ∧ s.time.edges < r.edge + limit) ∧
      (∀ r, s.power.rounds = [r] → r.edge + limit ≤ s.time.edges →
        t.die Reg.PWR_GROUP_RESET_CNT = satAdd (s.die Reg.PWR_GROUP_RESET_CNT) 1 ∧
        t.sketch.links.length = s.sketch.links.length + s.power.members.length)) ∧
  (∀ (s : State) (f : SFlit), bit (s.die Reg.PWR_GROUP_CFG) 31 = true → s.masterRuns = true → s.stopped = false →
    f.stype.toNat = 9 → f.field 0 1 = 1 → ∃ t, exec (.dieShift f) s = .next t ∧ t.trays = s.trays ∧
      RegsSame [dieA Reg.PWR_SHIFT] s t ∧
      ((∀ r, s.power.lastRound = some r → r ≤ f.field 4 4) → (t.die Reg.PWR_SHIFT).toNat = f.field 2 2 ∧
        t.power.lastRound = some (f.field 4 4)) ∧
      (∀ r, s.power.lastRound = some r → f.field 4 4 < r → SameRegsAndTrays s t ∧ t.power = s.power)) ∧
  (∀ (s : State) (pos : Pos) (slot : Nat), s.inMesh pos = true → slot < 64 → s.slotValid pos slot = true →
    s.masterRuns = true → s.stopped = false →
    let now := s.reg64 (tileA pos (Reg.ENERGY_LO slot))
    let was := s.power.seen.get 0 (64 * pos + slot)
    let grown := if was ≤ now then now - was else now
    ∃ t, exec (.jobEnergyVisit pos slot) s = .next t ∧ t.trays = s.trays ∧ t.power.seen.get 0 (64 * pos + slot) = now ∧
      (∀ e, s.power.jobs.find? (s.slotJob pos slot) = some e →
        t.power.jobs.find? (s.slotJob pos slot) = some (1 + (e - 1 + grown) % 2 ^ 64) ∧ SameRegsAndTrays s t) ∧
      (s.power.jobs.find? (s.slotJob pos slot) = none → s.power.jobs.length < 1024 →
        t.power.jobs.find? (s.slotJob pos slot) = some (1 + grown) ∧ SameRegsAndTrays s t) ∧
      (s.power.jobs.find? (s.slotJob pos slot) = none → 1024 ≤ s.power.jobs.length →
        bit (t.die Reg.JOB_E_CTRL) 30 = true ∧ t.power.jobs = s.power.jobs)) ∧
  (∀ (acc : Access) (data : Word) (s : State), Admitted acc (dieA Reg.JOB_E_CTRL) s →
    ∃ t, exec (.jobEClr acc data) s = .next t ∧ RegsSame [dieA Reg.JOB_E_CTRL] s t ∧ t.trays = s.trays ∧
      (bit data 31 = true → t.power.jobs.find? (s.dieF Reg.JOB_E_SEL 15 0) = none ∧ ∀ j, j ≠ s.dieF Reg.JOB_E_SEL 15 0 →
        t.power.jobs.find? j = s.power.jobs.find? j) ∧
      (bit data 31 = false → t.power = s.power)) ∧
  (∀ s : State, Config.legal s.config = true →
    (bit (s.die Reg.COOLANT_STAT) 31 = true → exec .coolantStop s = .next s) ∧
    (bit (s.die Reg.COOLANT_STAT) 31 = false → ∃ t, exec .coolantStop s = .next t ∧ t.stopped = true ∧
      t.release = false ∧ t.trays = s.trays ∧ t.time = s.time ∧ Raised Src.COOLANT_STOP s t ∧
      bit (t.die Reg.COOLANT_STAT) 30 = true ∧
      ∀ g < 64, s.spExists g = true → ∀ p < s.spPorts g, t.spState g p = spDISABLED))

/-- Faults are counted, escalated, merged, logged and quieted, fences end commands, links retrain, parts retire and
wear, and soak tests run. Tier 2; 13_faults_health.md (R396, R398, R399, R401, R402, R404, R405, R406),
13_faults_health.md (R407, R409, R410, R411, R413, R414, R415, R416), 13_faults_health.md (R417, R418, R419, R421,
R422, R423, R426, R427). -/
def Obligations.FaultsAreCollectedPartsRetireAndWearIsKept : Prop :=
  (∀ (s : State) (msg : FaultMsg) (pre post : List FaultRec) (r : FaultRec), s.inMesh msg.pos = true →
    s.flt.inFlight = pre ++ r :: post → (∀ x ∈ pre, FaultRec.is x msg = false) → FaultRec.is r msg = true →
    (defaultSev msg.source.toNat).isSome = true → msg.source.toNat ≠ Src.RED_SIG → msg.source.toNat ≠ Src.RED_UE →
    (bit (s.die (Reg.FAULT_SRC_CFG msg.source.toNat)) 25 = true →
      r.block = .die ∨ r.block = .router ∨ r.block = .sketchRouter) →
    let c := msg.source.toNat
    let cfg := s.die (Reg.FAULT_SRC_CFG c)
    let again := s.srcActive c
    let sev := if again then min 3 (s.baseSev r + 1) else s.baseSev r
    let merges := again && s.mergeMode
    ∃ t, exec (.fault msg) s = .next t ∧ t.flt.inFlight = pre ++ post ∧ t.trays = s.trays ∧ t.eng = s.eng ∧
      t.srcActive c = true ∧
      (c ≠ Src.FAULT_OVERFLOW →
        t.die (Reg.FAULT_SRC_CNT c) = satAdd (s.die (Reg.FAULT_SRC_CNT c)) 1 ∧
        (merges = true → fld (t.die (Reg.FAULT_SRC_STAT c)) 15 0 = min 65535 (fld (s.die (Reg.FAULT_SRC_STAT c)) 15 0 + 1))) ∧
      (merges = true → bit cfg 22 = false ∨ r.ctx = 0 → t.flt.queue = s.flt.queue) ∧
      (merges = false →
        (bit cfg 29 = true → bit (t.die Reg.FAULT_IRQ_STAT) (fld cfg 28 27) = true) ∧
        (bit cfg 26 = true → bit (t.die Reg.FAULT_IRQ_STAT) 4 = true) ∧
        (bit cfg 23 = true → bit (t.die Reg.ERR_PIN) 31 = true) ∧
        (sev ≠ 0 → bit (t.die Reg.FAULT_STAT) 31 = true ∧ bit (t.die Reg.FAULT_STAT) 27 = true) ∧
        (bit (s.die Reg.FAULT_STAT) 27 = true → ∀ w < 12, t.die (Reg.FAULT_FIRST w) = s.die (Reg.FAULT_FIRST w)) ∧
        (16 ≤ s.flt.queue.length → t.flt.queue = s.flt.queue ∧ bit (t.die Reg.FAULT_STAT) 29 = true) ∧
        (s.flt.queue.length < 16 → ∃ l : LogRec, t.flt.queue = s.flt.queue ++ [l] ∧ l.what = r ∧ l.sev = sev ∧
          l.escalated = again ∧ l.merged = false ∧ l.pin = false ∧ l.blockNa = bit cfg 25 ∧
          l.chipHeld = (bit cfg 24 && s.chipHeld) ∧
          (sev ≠ 0 → bit (s.die Reg.FAULT_STAT) 27 = false → ∀ w < 12, t.die (Reg.FAULT_FIRST w) = s.logWord l w) ∧
          t.flt.chipReset = if bit cfg 24 = true ∧ s.chipHeld = false ∧ s.flt.chipReset = none then some s.time.edges
            else s.flt.chipReset))) ∧
  (∀ (s : State) (pos : Pos) (level : Nat),
    let w := s.flt.wires.get (0, 0) pos
    (w.1 ≠ 0 → w.1 = level → w.2 + 200 ≤ s.time.edges → ∃ t, exec (.pinSummary pos level) s = .next t ∧
      t.flt.wires = s.flt.wires.del pos ∧ t.trays = s.trays ∧ t.eng = s.eng ∧ t.flt.inFlight = s.flt.inFlight ∧
      t.die (Reg.FAULT_SRC_CNT Src.PIN_SUMMARY) = satAdd (s.die (Reg.FAULT_SRC_CNT Src.PIN_SUMMARY)) 1) ∧
    (¬(w.1 ≠ 0 ∧ w.1 = level ∧ w.2 + 200 ≤ s.time.edges) → exec (.pinSummary pos level) s = .next s)) ∧
  (∀ (s : State) (pos : Pos) (level : Nat), s.inMesh pos = true → level < 4 →
    ∃ t, exec (.tileClientErr pos level) s = .next t ∧ t.flt.cerr.get 0 pos = level ∧
      (level ≤ s.flt.cerr.get 0 pos → t = { s with flt := { s.flt with cerr := t.flt.cerr } }) ∧
      (s.flt.cerr.get 0 pos < level →
        (∃ r ∈ t.flt.inFlight, r.source = BitVec.ofNat 8 Src.TILE_CLIENT_ERR ∧ r.lvl.toNat = level) ∧
        (level ≠ 3 → Raised Src.TILE_CLIENT_ERR s t ∧ SameRegsAndTrays s t) ∧
        (level = 3 → t.fenced pos = true))) ∧
  (∀ (acc : Access) (s : State) (pos : Pos) (data : Word), s.inMesh pos = true → Admitted acc (tileA pos Reg.TP_FENCE) s →
    (s.fenced pos = true → ∃ t, exec (.fence acc pos data) s = .next t ∧ OnlyRegs [] s t) ∧
    (s.fenced pos = false → ∃ t, exec (.fence acc pos data) s = .next t ∧ t.fenced pos = true ∧
      fld (t.reg (tileA pos Reg.TP_FENCE)) 3 0 = 1 ∧
      (∃ r ∈ t.flt.inFlight, r.source = BitVec.ofNat 8 Src.TILE_FENCED ∧ r.pos = pos ∧ r.arg0 = 1) ∧
      ∀ slot < 64, ∀ q < 4, bit (t.sqCtrl pos slot q) 3 = true ∧ t.cmd? pos slot q = none)) ∧
  (∀ s : State,
    (∀ e, s.flt.chipReset = some e → e + 1000 ≤ s.time.edges → exec .chipReset s = exec .systemReset s) ∧
    (∀ e, s.flt.chipReset = some e → s.time.edges < e + 1000 → exec .chipReset s = .next s) ∧
    (s.flt.chipReset = none → exec .chipReset s = .next s)) ∧
  (∀ (acc : Access) (data : Word) (s : State), Admitted acc (dieA Reg.ERR_PIN) s →
    ∃ t, exec (.errPinRelease acc data) s = .next t ∧ RegsSame [dieA Reg.ERR_PIN] s t ∧ t.trays = s.trays ∧
      (bit (s.die Reg.ERR_PIN) 31 = false → OnlyRegs [] s t) ∧
      (bit (s.die Reg.ERR_PIN) 31 = true → s.pinMinOver = true → bit (t.die Reg.ERR_PIN) 31 = false ∧
        t.flt.pinRelease = false) ∧
      (bit (s.die Reg.ERR_PIN) 31 = true → s.pinMinOver = false → bit (t.die Reg.ERR_PIN) 31 = true ∧
        t.flt.pinRelease = true)) ∧
  (∀ s : State,
    (s.flt.pinRelease = true → s.pinMinOver = true → ∃ t, exec .errPinMinEnd s = .next t ∧
      bit (t.die Reg.ERR_PIN) 31 = false ∧ t.flt.pinRelease = false ∧ RegsSame [dieA Reg.ERR_PIN] s t ∧ t.trays = s.trays) ∧
    (s.flt.pinRelease = false ∨ s.pinMinOver = false → exec .errPinMinEnd s = .next s)) ∧
  (∀ s : State,
    (bit (s.die Reg.FAULT_STAT) 31 = true → s.flt.lastMinor + s.quietEdges ≤ s.time.edges →
      ∃ t, exec .faultQuiet s = .next t ∧ bit (t.die Reg.FAULT_STAT) 31 = false ∧
        t.die Reg.RECOVERY_CNT = satAdd (s.die Reg.RECOVERY_CNT) 1 ∧
        (∀ c < 256, t.srcActive c = false ∧
          fld (t.die (Reg.FAULT_SRC_STAT c)) 30 0 = fld (s.die (Reg.FAULT_SRC_STAT c)) 30 0) ∧
        JustRegs (dieA Reg.FAULT_STAT :: dieA Reg.RECOVERY_CNT ::
          (List.range 256).map fun c => dieA (Reg.FAULT_SRC_STAT c)) s t) ∧
    (bit (s.die Reg.FAULT_STAT) 31 = false ∨ s.time.edges < s.flt.lastMinor + s.quietEdges →
      exec .faultQuiet s = .next s)) ∧
  (∀ s : State, (s.masterRuns = false ∨ s.stopped = true) → exec .faultLogDrain s = .next s) ∧
  (∀ (s : State) (l : LogRec), s.masterRuns = true → s.stopped = false → s.flt.queue = [l] → s.flt.events = [] →
    let c := l.what.source.toNat
    let n := (s.die Reg.FAULT_LOG_HEAD).toNat
    ∃ t, exec .faultLogDrain s = .next t ∧ t.flt.queue = [] ∧ t.trays = s.trays ∧ t.eng = s.eng ∧
      (l.merged = true → t.flt.log = s.flt.log ∧ t.die Reg.FAULT_LOG_HEAD = s.die Reg.FAULT_LOG_HEAD) ∧
      (l.merged = false → t.flt.log.find? (n % 1024) = some l ∧
        t.die Reg.FAULT_LOG_HEAD = BitVec.ofNat 32 (n + 1) ∧ (1024 ≤ n → bit (t.die Reg.FAULT_STAT) 28 = true)) ∧
      (bit (s.die (Reg.FAULT_SRC_CFG c)) 22 = false ∨ l.what.ctx = 0 →
        RegsSame [dieA Reg.FAULT_LOG_HEAD, dieA Reg.FAULT_STAT] s t) ∧
      (∀ job, bit (s.die (Reg.FAULT_SRC_CFG c)) 22 = true → l.what.ctx ≠ 0 → s.jobOf l.what.ctx.toNat = some job →
        s.jobListed job = false →
        (∀ j, (List.range 16).find? (fun j => !bit (s.die (Reg.JOB_FAIL j)) 31) = some j →
          bit (t.die (Reg.JOB_FAIL j)) 31 = true ∧ fld (t.die (Reg.JOB_FAIL j)) 23 16 = c ∧
          fld (t.die (Reg.JOB_FAIL j)) 15 0 = job % 65536) ∧
        ((List.range 16).find? (fun j => !bit (s.die (Reg.JOB_FAIL j)) 31) = none →
          bit (t.die Reg.FAULT_STAT) 29 = true))) ∧
  (∀ (s : State) (kind part : Nat), s.masterRuns = true → s.stopped = false → s.flt.queue = [] → kind < 7 →
    s.partRetired kind part = false → (s.retireCfg kind).1 ≤ s.flt.events.length →
    (∀ e ∈ s.flt.events, e.kind = kind ∧ e.part = part ∧ s.nowMs < e.ms + (s.retireCfg kind).2) →
    ∃ t, exec .faultLogDrain s = .next t ∧ t.partRetired kind part = true ∧
      ∃ r ∈ t.flt.inFlight, r.source = BitVec.ofNat 8 (if kind = 4 then Src.TRAY_RETIRE else if kind = 5 then Src.RED_RETIRE
        else if kind = 6 then Src.ROUTE_UE else Src.ODL_RETIRE)) ∧
  (∀ (s : State) (kind : Nat) (pos : Pos) (output corrected rejected : Nat),
    let part := odlPart kind pos output
    (s.odlExists kind pos output = true → s.partRetired kind part = false → s.partTraining kind part = false →
      s.stopped = false → bit (s.die Reg.SOAK_STAT) 31 = false →
      ∃ t l, exec (.odlReplay kind pos output corrected rejected) s = .next t ∧ SameRegsAndTrays s t ∧
        t.flt.inFlight = s.flt.inFlight ++ l ∧
        l.map (fun r => r.source) = List.replicate corrected (BitVec.ofNat 8 Src.ODL_CE) ++
          List.replicate (min rejected 5) (BitVec.ofNat 8 Src.ODL_REPLAY) ∧
        t.partTraining kind part = decide (5 ≤ rejected)) ∧
    (s.odlExists kind pos output = false ∨ s.partRetired kind part = true ∨ s.partTraining kind part = true →
      exec (.odlReplay kind pos output corrected rejected) s = .next s) ∧
    (s.partTraining kind part = false → ∀ ok, exec (.odlRetrainDone kind pos output ok) s = .next s) ∧
    (s.partTraining kind part = true → s.stopped = false → kind < 3 →
      (∃ t, exec (.odlRetrainDone kind pos output true) s = .next t ∧ Raised Src.ODL_RETRAIN s t ∧ SameRegsAndTrays s t ∧
        t.partTraining kind part = false ∧ t.partRetired kind part = s.partRetired kind part) ∧
      (∃ t, exec (.odlRetrainDone kind pos output false) s = .next t ∧ t.partTraining kind part = false ∧
        t.partRetired kind part = true))) ∧
  (∀ s : State, (s.masterRuns = false ∨ s.stopped = true → exec .wearUpdate s = .next s) ∧
    (s.masterRuns = true → s.stopped = false → ∃ t, exec .wearUpdate s = .next t ∧ SameRegsAndTrays s t ∧
      ∀ x ∈ s.wearParts, (t.flt.scores.get (1000, 0) (wearKey x.1 x.2)).1 ≤ 1000 ∧
        (s.wearRetired x.1 x.2 = true → (t.flt.scores.get (1000, 0) (wearKey x.1 x.2)).1 = 0 ∧
          (0 < s.dieF Reg.WEAR_CFG 9 0 → wearKey x.1 x.2 ∉ s.flt.wearTold →
            ∃ r ∈ t.flt.inFlight, r.source = BitVec.ofNat 8 Src.WEAR_LOW)))) ∧
  (∀ s : State, ((s.die Reg.OPER_HOURS).toNat % 24 ≠ 0 → exec .wearHistory s = .next s) ∧
    ((s.die Reg.OPER_HOURS).toNat % 24 = 0 → s.masterRuns = true → s.stopped = false →
      ∃ t, exec .wearHistory s = .next t ∧ ∀ x ∈ s.wearParts, ∀ pos off, s.wearPlace x.1 x.2 = some (pos, off) →
        off + 64 ≤ 2 ^ 20 → s.runGood pos off 64 → (s.flt.scores.get (1000, 0) (wearKey x.1 x.2)).1 < 2 ^ 16 →
        t.samples x.1 x.2 = (s.samples x.1 x.2 ++ [(s.flt.scores.get (1000, 0) (wearKey x.1 x.2)).1]).drop
          ((s.samples x.1 x.2).length + 1 - 30))) ∧
  (∀ s : State, (s.phase = 0 → exec .operHour s = .next s) ∧
    (s.phase ≠ 0 → ∃ t, exec .operHour s = .next t ∧ t.die Reg.OPER_HOURS = wrapAdd (s.die Reg.OPER_HOURS) 1 ∧
      t.flt.ceCount = [] ∧ RegsSame [dieA Reg.OPER_HOURS] s t ∧ t.trays = s.trays)) ∧
  (∀ (acc : Access) (data : Word) (s : State), Admitted acc (dieA Reg.SOAK_CTRL) s →
    (bit data 30 = false →
      let u := s.plainWrite (dieA Reg.SOAK_CTRL) (setBit data 31 true)
      ∃ t, exec (.soakGo acc data) s = .next t ∧ RegsSame [dieA Reg.SOAK_CTRL, dieA Reg.SOAK_STAT] s t ∧ t.trays = s.trays ∧
        (u.soakMay = true → bit (t.die Reg.SOAK_STAT) 31 = true ∧
          t.flt.soakEnd = s.time.edges + max 1 (s.die Reg.SOAK_TIME).toNat * 100000000) ∧
        (u.soakMay = false → bit (t.die Reg.SOAK_STAT) 29 = true ∧ t.flt = s.flt)) ∧
    (bit data 31 = false →
      (bit (s.die Reg.SOAK_STAT) 31 = false → ∃ t, exec (.soakStop acc data) s = .next t ∧
        OnlyRegs [dieA Reg.SOAK_CTRL] s t) ∧
      (bit (s.die Reg.SOAK_STAT) 31 = true → ∃ t, exec (.soakStop acc data) s = .next t ∧
        bit (t.die Reg.SOAK_STAT) 31 = false ∧ bit (t.die Reg.SOAK_STAT) 30 = true ∧ t.trays.mem = [] ∧ t.trays.bad = [] ∧
        RegsSame [dieA Reg.SOAK_CTRL, dieA Reg.SOAK_STAT] s t))) ∧
  (∀ s : State,
    (bit (s.die Reg.SOAK_STAT) 31 = true → s.flt.soakEnd ≤ s.time.edges → s.stopped = false →
      ∃ t, exec .soakEnd s = .next t ∧ bit (t.die Reg.SOAK_STAT) 31 = false ∧ bit (t.die Reg.SOAK_STAT) 30 = true ∧
        t.trays.mem = [] ∧ t.trays.bad = [] ∧ RegsSame [dieA Reg.SOAK_STAT] s t) ∧
    (bit (s.die Reg.SOAK_STAT) 31 = false ∨ s.time.edges < s.flt.soakEnd → exec .soakEnd s = .next s)) ∧
  (∀ (acc : Access) (data : Word) (s : State), Admitted acc (dieA Reg.ERR_ENTRY_SEL) s →
    ∃ t, exec (.errEntrySelWrite acc data) s = .next t ∧ RegsSame [dieA Reg.ERR_ENTRY_SEL] s t ∧ t.trays = s.trays ∧
      t.die Reg.ERR_ENTRY_SEL = (s.plainWrite (dieA Reg.ERR_ENTRY_SEL) data).die Reg.ERR_ENTRY_SEL ∧
      t.flt.entryCnt = if (t.die Reg.ERR_ENTRY_SEL).toNat / 2 ^ 8 = (s.die Reg.ERR_ENTRY_SEL).toNat / 2 ^ 8 then s.flt.entryCnt
        else [])

/-- A snapshot counts each engine's cycle, swatches arm, scan, stop and digest, and the trace unit arms, triggers,
marks, syncs and is read. Tier 2; 14_observability.md (R430, R432, R437, R438, R439, R440, R441, R445),
14_observability.md (R447, R448, R449, R450). -/
def Obligations.EnginesSwatchesAndTraceObserve : Prop :=
  (∀ (acc : Access) (pos : Pos) (data : Word) (s : State), s.inMesh pos = true → Admitted acc (tileA pos Reg.TP_SNAP) s →
    (bit data 0 = false → ∃ t, exec (.tpSnap acc pos data) s = .next t ∧ OnlyRegs [] s t) ∧
    (bit data 0 = true → s.panelRuns pos = true → (∀ k ∈ s.liveEngines, s.inMesh (k / 4) = true) →
      ∃ t, exec (.tpSnap acc pos data) s = .next t ∧ t.trays = s.trays ∧ t.act = s.act ∧ t.eng = s.eng ∧ RegsOfTile pos s t ∧
        ∀ q < 4,
          let moved := s.act.moved.any fun x => x.1 == 4 * pos + q
          t.reg64 (tileA pos (Reg.ENG_BUSY_LO q)) = (s.act.busy.get 0 (4 * pos + q) + b2n moved) % 2 ^ 64 ∧
          t.reg64 (tileA pos (Reg.ENG_STALL_LO q)) =
            (s.act.stall.get 0 (4 * pos + q) + b2n (!moved && s.hasWork pos q)) % 2 ^ 64)) ∧
  (∀ (acc : Access) (pos : Pos) (u : Nat) (data : Word) (s : State), s.inMesh pos = true → u < 4 →
    Admitted acc (swA pos (Reg.SW_CTRL u)) s → ∀ i ∈ [Instr.swatchArm acc pos u data, .swatchScan acc pos u data,
      .swatchStop acc pos u data],
    let w := s.plainWrite (swA pos (Reg.SW_CTRL u)) data
    let results := [Reg.SW_WORDS u, Reg.SW_COUNT u, Reg.SW_NAN u, Reg.SW_INF u, Reg.SW_ZERO u, Reg.SW_MIN u, Reg.SW_MAX u,
      Reg.SW_DIG_LO u, Reg.SW_DIG_HI u, Reg.SW_SUM_LO u, Reg.SW_SUM_HI u, Reg.SW_SUMABS_LO u, Reg.SW_SUMABS_HI u]
    (bit data 30 = false → bit data 31 ≠ bit data 29 → w.swMayStart pos u = true → ∃ t, exec i s = .next t ∧
      (∀ off ∈ results, t.reg (swA pos off) = 0) ∧ t.swActive pos u = true ∧
      fld (t.reg (swA pos (Reg.SW_STAT u))) 30 29 = 0 ∧ (4 * pos + u ∈ t.trays.swScan ↔ bit data 29 = true) ∧
      t.reg (swA pos (Reg.SW_CTRL u)) = w.reg (swA pos (Reg.SW_CTRL u)) ∧
      RegsSame (swA pos (Reg.SW_CTRL u) :: swA pos (Reg.SW_STAT u) :: results.map fun off => swA pos off) s t ∧
      t.trays.mem = s.trays.mem) ∧
    (bit data 30 = false → (bit data 31 = true ∧ bit data 29 = true ∨
        bit data 31 ≠ bit data 29 ∧ w.swMayStart pos u = false) → ∃ t, exec i s = .next t ∧
      bit (t.reg (swA pos (Reg.SW_STAT u))) 27 = true ∧
      OnlyRegs [swA pos (Reg.SW_CTRL u), swA pos (Reg.SW_STAT u)] s t) ∧
    (bit data 31 = false → bit data 29 = false → (bit data 30 = false ∨ s.swActive pos u = false) → ∃ t, exec i s = .next t ∧
      OnlyRegs [swA pos (Reg.SW_CTRL u)] s t) ∧
    (bit data 30 = true → bit data 31 = false → bit data 29 = false → s.swActive pos u = true →
      4 * pos + u ∉ s.trays.swScan → ∃ t, exec i s = .next t ∧
      bit (t.reg (swA pos (Reg.SW_STAT u))) 31 = false ∧ bit (t.reg (swA pos (Reg.SW_STAT u))) 30 = true ∧
      bit (t.reg (swA pos (Reg.SW_STAT u))) 29 = (bit (w.reg (swA pos (Reg.SW_CTRL u))) 19 &&
        s.reg64 (swA pos (Reg.SW_DIG_LO u)) == s.reg64 (swA pos (Reg.SW_REF_LO u))) ∧
      (∀ off ∈ results, t.reg (swA pos off) = s.reg (swA pos off)) ∧
      (s.trayClaim 3 (some pos) = none → t.trays.mem = s.trays.mem) ∧
      ∀ cl, s.trayClaim 3 (some pos) = some cl →
        let off := 4096 * cl.first + 64 * (u + 4 * (s.trays.swRuns.get 0 (4 * pos + u) % max 1 (16 * cl.count)))
        off + 64 ≤ 2 ^ 20 → s.runGood pos off 64 → t.trayBytes pos off 64 = t.swRecord pos u false (s.stamp pos))) ∧
  (∀ (pos : Pos) (u : Nat) (s : State),
    (4 ≤ u ∨ 4 * pos + u ∉ s.trays.swScan ∨ s.panelRuns pos = false ∨ s.stopped = true →
      exec (.swatchScanDone pos u) s = .next s) ∧
    (u < 4 → 4 * pos + u ∈ s.trays.swScan → s.panelRuns pos = true → s.stopped = false → s.inMesh pos = true →
      let base := (s.reg (swA pos (Reg.SW_BASE u))).toNat
      ∃ t, exec (.swatchScanDone pos u) s = .next t ∧ t.swActive pos u = false ∧
        bit (t.reg (swA pos (Reg.SW_STAT u))) 30 = true ∧ 4 * pos + u ∉ t.trays.swScan ∧
        ((s.reg (swA pos (Reg.SW_LEN u))).toNat / 32 = 1 → base % 32 = 0 → s.wordGood pos (base / 32) →
          t.reg (swA pos (Reg.SW_WORDS u)) = satAdd (s.reg (swA pos (Reg.SW_WORDS u))) 1 ∧
          t.reg (swA pos (Reg.SW_DIG_LO u)) = wrapAdd (s.reg (swA pos (Reg.SW_DIG_LO u)))
            (crc32c (bytesOf 4 0 ++ wordBytes (s.trayWord pos (base / 32)))) ∧
          t.reg (swA pos (Reg.SW_DIG_HI u)) = wrapAdd (s.reg (swA pos (Reg.SW_DIG_HI u)))
            (crc32c (wordBytes (s.trayWord pos (base / 32)) ++ bytesOf 4 0))))) ∧
  (∀ (acc : Access) (data : Word) (s : State), Admitted acc (dieA Reg.TRACE_CTRL) s →
    ∀ i ∈ [Instr.traceArm acc data, .traceTrig acc data, .traceMode acc data],
    (bit data 31 = true → bit data 30 = false → fld data 1 0 = s.traceMode → ∃ t, exec i s = .next t ∧
      t = { s with regs := t.regs, trace := t.trace, fresh := t.fresh, hostReqs := t.hostReqs, lastRsp := t.lastRsp } ∧
      RegsSame [dieA Reg.TRACE_STAT, dieA Reg.TRACE_LOST_CNT] s t ∧
      (t.trace.on = true ↔ s.traceMode = 1 ∨ s.traceMode = 2) ∧ t.trace.fifos = [] ∧
      (∀ k < 4, t.trace.armed.testBit k = s.canArm k) ∧ bit (t.die Reg.TRACE_STAT) 31 = false ∧
      bit (t.die Reg.TRACE_STAT) 30 = false ∧
      (∀ k < 4, s.trigKind k = 4 → s.canArm k = false → t.trace.on = true → bit (t.die Reg.TRACE_STAT) 29 = true)) ∧
    (bit data 31 = false → bit data 30 = true → fld data 1 0 = s.traceMode →
      (∀ k < 4, s.trace.on = true → s.trigKind k = 5 → s.trace.armed.testBit k = true →
        (∀ j < k, s.trigKind j ≠ 5 ∨ s.trace.armed.testBit j = false) → ∃ t, exec i s = .next t ∧
          bit (t.die Reg.TRACE_STAT) 31 = true ∧ fld (t.die Reg.TRACE_STAT) 28 26 = k ∧ t.trace.armed = 0 ∧
          RegsSame [dieA Reg.TRACE_STAT, dieA Reg.TRACE_LOST_CNT] s t) ∧
      ((∀ k < 4, s.trace.on = false ∨ s.trigKind k ≠ 5 ∨ s.trace.armed.testBit k = false) →
        ∃ t, exec i s = .next t ∧ OnlyRegs [] s t)) ∧
    (bit data 31 = false → bit data 30 = false → fld data 1 0 = s.traceMode → ∃ t, exec i s = .next t ∧ OnlyRegs [] s t) ∧
    (bit data 31 = false → bit data 30 = false → fld data 1 0 ≠ s.traceMode →
      (fld data 1 0 = 2 → s.holds 2 5 5 = false → ∃ t, exec i s = .next t ∧ bit (t.die Reg.TRACE_STAT) 29 = true ∧
        OnlyRegs [dieA Reg.TRACE_STAT] s t) ∧
      ((fld data 1 0 = 2 → s.holds 2 5 5 = true) → ∃ t, exec i s = .next t ∧ t.traceMode = fld data 1 0 ∧
        (t.trace.on = true ↔ s.trace.on = true ∧ (fld data 1 0 = 1 ∨ fld data 1 0 = 2)) ∧
        RegsSame [dieA Reg.TRACE_CTRL, dieA Reg.TRACE_STAT, dieA Reg.TRACE_LOST_CNT] s t ∧
        (fld data 1 0 = 3 → Raised Src.CFG_ADJUSTED s t)))) ∧
  (∀ (acc : Access) (data : Word) (s : State), Admitted acc (dieA Reg.TRACE_MARK) s →
    ∃ t, exec (.traceMark acc data) s = .next t ∧ RegsSame [dieA Reg.TRACE_STAT, dieA Reg.TRACE_LOST_CNT] s t ∧
      t.trays = s.trays ∧
      (s.trace.on = false ∨ bit (s.die Reg.TRACE_EVT_EN) 0x0B = false → OnlyRegs [] s t) ∧
      (s.trace.on = true → bit (s.die Reg.TRACE_EVT_EN) 0x0B = true →
        (s.trace.armed = 0 → s.stopped = false → (s.trace.fifos.get [] 8).length < 4 → ∃ early,
          t.trace.fifos.get [] 8 = s.trace.fifos.get [] 8 ++
            [⟨early, [traceUnit s.capture 4 false 0 (0x0B + data.toNat * 2 ^ 8)]⟩]) ∧
        (∀ k < 4, s.trace.armed.testBit k = true → s.trigKind k = 1 → fld (s.trigArg k) 31 24 = 0x0B →
          (data.toNat &&& fld (s.trigArg k) 23 12) % 4096 = fld (s.trigArg k) 11 0 →
          bit (t.die Reg.TRACE_STAT) 31 = true ∧ t.trace.armed = 0))) ∧
  (∀ (s : State) (k : Nat),
    (4 ≤ k ∨ s.trigKind k ≠ 4 ∨ s.ntNat < s.trigNt k ∨ s.stopped = true ∨ s.trace.on = false ∨
      s.trace.armed.testBit k = false → exec (.traceTrigger k) s = .next s) ∧
    (k < 4 → s.trigKind k = 4 → s.trigNt k ≤ s.ntNat → s.stopped = false → s.trace.on = true →
      s.trace.armed.testBit k = true → ∃ t, exec (.traceTrigger k) s = .next t ∧ TraceOnly s t ∧
        bit (t.die Reg.TRACE_STAT) 31 = true ∧ fld (t.die Reg.TRACE_STAT) 28 26 = k ∧ t.trace.armed = 0)) ∧
  (∀ s : State,
    (s.trace.on = false ∨ s.traceMode ≠ 2 ∨ s.stopped = true ∨ s.time.edges < s.trace.syncAt + s.syncEdges →
      exec .traceSync s = .next s) ∧
    (s.trace.on = true → s.traceMode = 2 → s.stopped = false → s.trace.syncAt + s.syncEdges ≤ s.time.edges →
      s.trace.lost.find? 3 = none → ∃ t, exec .traceSync s = .next t ∧ TraceOnly s t ∧ t.trace.syncAt = s.time.edges ∧
        (s.trace.stream.length + 2 ≤ 512 * s.mainGranules.length →
          t.trace.stream = s.trace.stream ++ beatsOf [s.syncUnit]) ∧
        (512 * s.mainGranules.length < s.trace.stream.length + 2 → t.trace.stream = s.trace.stream ∧
          t.die Reg.TRACE_LOST_CNT = satAdd (s.die Reg.TRACE_LOST_CNT) 1))) ∧
  (∀ (acc : Access) (s : State), AdmittedRead acc (dieA (Reg.TRACE_RD_DATA 3)) s →
    let n := s.dieF Reg.TRACE_RD_SEL 13 0
    ∃ t, exec (.traceRdData acc) s = .next t ∧ OnlyRegs [dieA Reg.TRACE_RD_SEL] s t ∧
      fld (t.die Reg.TRACE_RD_SEL) 13 0 = (n + 1) % 2 ^ 14 ∧
      (acc.path = .tap → t.lastRsp.get (0, 0) 2 = (lo32 ((s.trace.buf.get 0 n).toNat / 2 ^ 96), 0)))

end Slice0Statements
end

