-- ==== Sys2Proof/Laws/Bits.lean ====
section
/-! SUPPORT. Bit fields of registers: what a replaced field reads as, and that the other bits stay. -/
namespace Sys2Proof.Machine

theorem bitsOf_lt (n hi lo : Nat) : bitsOf n hi lo < 2 ^ (hi + 1 - lo) := Nat.mod_lt _ (Nat.two_pow_pos _)

theorem testBit_bitsOf (n hi lo i : Nat) : (bitsOf n hi lo).testBit i = (decide (i < hi + 1 - lo) && n.testBit (lo + i)) := by
  simp [bitsOf, Nat.testBit_mod_two_pow, Nat.testBit_shiftRight]

/-- A number less one of its fields has that field clear, and its other bits as they were. -/
theorem sub_field (n hi lo : Nat) (h : lo ≤ hi) :
    n - bitsOf n hi lo * 2 ^ lo = n / 2 ^ (hi + 1) * 2 ^ (hi + 1) + n % 2 ^ lo := by
  have e1 : n % 2 ^ (hi + 1) = bitsOf n hi lo * 2 ^ lo + n % 2 ^ lo := by
    have hp : 2 ^ (hi + 1) = 2 ^ lo * 2 ^ (hi + 1 - lo) := by rw [← Nat.pow_add]; congr 1; omega
    rw [hp, Nat.mod_mul, bitsOf, Nat.shiftRight_eq_div_pow, Nat.mul_comm, Nat.add_comm]
  have e2 := Nat.div_add_mod n (2 ^ (hi + 1))
  rw [Nat.mul_comm] at e2
  omega

theorem testBit_field (a b c hi lo i : Nat) (h : lo ≤ hi) (hb : b < 2 ^ (hi + 1 - lo)) (hc : c < 2 ^ lo) :
    (a * 2 ^ (hi + 1) + c + b * 2 ^ lo).testBit i =
      if i < lo then c.testBit i else if i ≤ hi then b.testBit (i - lo) else a.testBit (i - (hi + 1)) := by
  have hp : 2 ^ (hi + 1) = 2 ^ (hi + 1 - lo) * 2 ^ lo := by rw [← Nat.pow_add]; congr 1; omega
  have e : a * 2 ^ (hi + 1) + c + b * 2 ^ lo = 2 ^ lo * (2 ^ (hi + 1 - lo) * a + b) + c := by
    have e1 : a * (2 ^ (hi + 1 - lo) * 2 ^ lo) = 2 ^ lo * (2 ^ (hi + 1 - lo) * a) := by ac_rfl
    have e2 : b * 2 ^ lo = 2 ^ lo * b := Nat.mul_comm _ _
    rw [hp, e1, e2, Nat.mul_add]
    omega
  rw [e, Nat.testBit_two_pow_mul_add _ hc]
  by_cases h1 : i < lo
  · simp [h1]
  · rw [if_neg h1, if_neg h1, Nat.testBit_two_pow_mul_add _ hb]
    by_cases h2 : i ≤ hi
    · rw [if_pos (by omega), if_pos h2]
    · rw [if_neg (by omega), if_neg h2]
      congr 1; omega

/-- Every bit of a word with a field replaced. -/
theorem bit_setFld (w : Word) (hi lo v i : Nat) (h : lo ≤ hi) (hi32 : hi < 32) :
    bit (setFld w hi lo v) i = if lo ≤ i ∧ i ≤ hi then v.testBit (i - lo) else bit w i := by
  have hv : v % 2 ^ (hi + 1 - lo) < 2 ^ (hi + 1 - lo) := Nat.mod_lt _ (Nat.two_pow_pos _)
  have hc : w.toNat % 2 ^ lo < 2 ^ lo := Nat.mod_lt _ (Nat.two_pow_pos _)
  have hw := w.isLt
  simp only [bit, setFld]
  rw [BitVec.toNat_ofNat, sub_field _ _ _ h, Nat.testBit_mod_two_pow, testBit_field _ _ _ _ _ _ h hv hc]
  by_cases h32 : i < 32
  · by_cases h1 : i < lo
    · have hn : ¬lo ≤ i := by omega
      simp [h1, h32, Nat.testBit_mod_two_pow, hn]
    · by_cases h2 : i ≤ hi
      · have : i - lo < hi + 1 - lo := by omega
        simp [h1, h2, h32, Nat.testBit_mod_two_pow, this, Nat.le_of_not_lt h1]
      · have e : hi + 1 + (i - (hi + 1)) = i := by omega
        simp only [h32, h1, h2, if_false, and_false, Nat.testBit_div_two_pow, decide_true, Bool.true_and]
        congr 1; omega
  · have hbit : w.toNat.testBit i = false :=
      Nat.testBit_lt_two_pow (Nat.lt_of_lt_of_le hw (Nat.pow_le_pow_right (by omega) (by omega)))
    have hnot : ¬(lo ≤ i ∧ i ≤ hi) := by omega
    rw [if_neg hnot, hbit]
    simp [h32]

/-- A replaced field reads as written. -/
theorem fld_setFld (w : Word) (hi lo v : Nat) (h : lo ≤ hi) (hi32 : hi < 32) :
    fld (setFld w hi lo v) hi lo = v % 2 ^ (hi + 1 - lo) := by
  apply Nat.eq_of_testBit_eq
  intro i
  have e := bit_setFld w hi lo v (lo + i) h hi32
  simp only [bit] at e
  rw [fld, testBit_bitsOf, e, Nat.testBit_mod_two_pow]
  by_cases hi' : i < hi + 1 - lo
  · have : lo ≤ lo + i ∧ lo + i ≤ hi := by omega
    simp [hi', this]
  · simp [hi']

/-- A field apart from the replaced one stays. -/
theorem fld_setFld_other (w : Word) (hi lo v h' l' : Nat) (h : lo ≤ hi) (hi32 : hi < 32) (ha : h' < lo ∨ hi < l') :
    fld (setFld w hi lo v) h' l' = fld w h' l' := by
  apply Nat.eq_of_testBit_eq
  intro i
  have e := bit_setFld w hi lo v (l' + i) h hi32
  simp only [bit] at e
  rw [fld, fld, testBit_bitsOf, testBit_bitsOf, e]
  by_cases hi' : i < h' + 1 - l'
  · have : ¬(lo ≤ l' + i ∧ l' + i ≤ hi) := by omega
    simp [this]
  · simp [hi']

@[simp] theorem bit_setBit (w : Word) (i : Nat) (b : Bool) (h : i < 32) : bit (setBit w i b) i = b := by
  rw [setBit, bit_setFld _ _ _ _ _ (Nat.le_refl i) h]
  cases b <;> simp

theorem bit_setBit_other (w : Word) (i j : Nat) (b : Bool) (h : i < 32) (hj : j ≠ i) : bit (setBit w i b) j = bit w j := by
  rw [setBit, bit_setFld _ _ _ _ _ (Nat.le_refl i) h, if_neg (by omega)]

/-- What a write by access types leaves in each bit (R11). -/
theorem bit_eq_getLsbD (w : Word) (i : Nat) : bit w i = w.getLsbD i := rfl

end Sys2Proof.Machine
end

