-- ==== Sys2Proof/Laws/State.lean ====
section
/-! SUPPORT. What each named update of the state leaves alone: one lemma for each field and update, so that no proof
unfolds a record update. -/
namespace Sys2Proof.Machine
variable (s : State)

/-! ### setReg -/

@[simp] theorem State.setReg_config (a : RegAddr) (v : Word) : (s.setReg a v).config = s.config := rfl
@[simp] theorem State.setReg_arbLive (a : RegAddr) (v : Word) : (s.setReg a v).arbLive = s.arbLive := rfl
@[simp] theorem State.setReg_latch (a : RegAddr) (v : Word) : (s.setReg a v).latch = s.latch := rfl
@[simp] theorem State.setReg_stage (a : RegAddr) (v : Word) : (s.setReg a v).stage = s.stage := rfl
@[simp] theorem State.setReg_mesh (a : RegAddr) (v : Word) : (s.setReg a v).mesh = s.mesh := rfl
@[simp] theorem State.setReg_sketch (a : RegAddr) (v : Word) : (s.setReg a v).sketch = s.sketch := rfl
@[simp] theorem State.setReg_time (a : RegAddr) (v : Word) : (s.setReg a v).time = s.time := rfl
@[simp] theorem State.setReg_flt (a : RegAddr) (v : Word) : (s.setReg a v).flt = s.flt := rfl
@[simp] theorem State.setReg_trays (a : RegAddr) (v : Word) : (s.setReg a v).trays = s.trays := rfl
@[simp] theorem State.setReg_eng (a : RegAddr) (v : Word) : (s.setReg a v).eng = s.eng := rfl
@[simp] theorem State.setReg_msgs (a : RegAddr) (v : Word) : (s.setReg a v).msgs = s.msgs := rfl
@[simp] theorem State.setReg_mem (a : RegAddr) (v : Word) : (s.setReg a v).mem = s.mem := rfl
@[simp] theorem State.setReg_spine (a : RegAddr) (v : Word) : (s.setReg a v).spine = s.spine := rfl
@[simp] theorem State.setReg_power (a : RegAddr) (v : Word) : (s.setReg a v).power = s.power := rfl
@[simp] theorem State.setReg_trace (a : RegAddr) (v : Word) : (s.setReg a v).trace = s.trace := rfl
@[simp] theorem State.setReg_act (a : RegAddr) (v : Word) : (s.setReg a v).act = s.act := rfl
@[simp] theorem State.setReg_cmap (a : RegAddr) (v : Word) : (s.setReg a v).cmap = s.cmap := rfl
@[simp] theorem State.setReg_core (a : RegAddr) (v : Word) : (s.setReg a v).core = s.core := rfl
@[simp] theorem State.setReg_tap (a : RegAddr) (v : Word) : (s.setReg a v).tap = s.tap := rfl
@[simp] theorem State.setReg_load (a : RegAddr) (v : Word) : (s.setReg a v).load = s.load := rfl
@[simp] theorem State.setReg_release (a : RegAddr) (v : Word) : (s.setReg a v).release = s.release := rfl
@[simp] theorem State.setReg_easel (a : RegAddr) (v : Word) : (s.setReg a v).easel = s.easel := rfl
@[simp] theorem State.setReg_redSlots (a : RegAddr) (v : Word) : (s.setReg a v).redSlots = s.redSlots := rfl
@[simp] theorem State.setReg_msgWait (a : RegAddr) (v : Word) : (s.setReg a v).msgWait = s.msgWait := rfl
@[simp] theorem State.setReg_hostReqs (a : RegAddr) (v : Word) : (s.setReg a v).hostReqs = s.hostReqs := rfl
@[simp] theorem State.setReg_lastRsp (a : RegAddr) (v : Word) : (s.setReg a v).lastRsp = s.lastRsp := rfl
@[simp] theorem State.setReg_frozen (a : RegAddr) (v : Word) : (s.setReg a v).frozen = s.frozen := rfl
@[simp] theorem State.setReg_ticks (a : RegAddr) (v : Word) : (s.setReg a v).ticks = s.ticks := rfl
@[simp] theorem State.setReg_fresh (a : RegAddr) (v : Word) : (s.setReg a v).fresh = s.fresh := rfl
@[simp] theorem State.setReg_pending (a : RegAddr) (v : Word) : (s.setReg a v).pending = s.pending := rfl

/-! ### setDie -/

@[simp] theorem State.setDie_config (off : Nat) (v : Word) : (s.setDie off v).config = s.config := rfl
@[simp] theorem State.setDie_arbLive (off : Nat) (v : Word) : (s.setDie off v).arbLive = s.arbLive := rfl
@[simp] theorem State.setDie_latch (off : Nat) (v : Word) : (s.setDie off v).latch = s.latch := rfl
@[simp] theorem State.setDie_stage (off : Nat) (v : Word) : (s.setDie off v).stage = s.stage := rfl
@[simp] theorem State.setDie_mesh (off : Nat) (v : Word) : (s.setDie off v).mesh = s.mesh := rfl
@[simp] theorem State.setDie_sketch (off : Nat) (v : Word) : (s.setDie off v).sketch = s.sketch := rfl
@[simp] theorem State.setDie_time (off : Nat) (v : Word) : (s.setDie off v).time = s.time := rfl
@[simp] theorem State.setDie_flt (off : Nat) (v : Word) : (s.setDie off v).flt = s.flt := rfl
@[simp] theorem State.setDie_trays (off : Nat) (v : Word) : (s.setDie off v).trays = s.trays := rfl
@[simp] theorem State.setDie_eng (off : Nat) (v : Word) : (s.setDie off v).eng = s.eng := rfl
@[simp] theorem State.setDie_msgs (off : Nat) (v : Word) : (s.setDie off v).msgs = s.msgs := rfl
@[simp] theorem State.setDie_mem (off : Nat) (v : Word) : (s.setDie off v).mem = s.mem := rfl
@[simp] theorem State.setDie_spine (off : Nat) (v : Word) : (s.setDie off v).spine = s.spine := rfl
@[simp] theorem State.setDie_power (off : Nat) (v : Word) : (s.setDie off v).power = s.power := rfl
@[simp] theorem State.setDie_trace (off : Nat) (v : Word) : (s.setDie off v).trace = s.trace := rfl
@[simp] theorem State.setDie_act (off : Nat) (v : Word) : (s.setDie off v).act = s.act := rfl
@[simp] theorem State.setDie_cmap (off : Nat) (v : Word) : (s.setDie off v).cmap = s.cmap := rfl
@[simp] theorem State.setDie_core (off : Nat) (v : Word) : (s.setDie off v).core = s.core := rfl
@[simp] theorem State.setDie_tap (off : Nat) (v : Word) : (s.setDie off v).tap = s.tap := rfl
@[simp] theorem State.setDie_load (off : Nat) (v : Word) : (s.setDie off v).load = s.load := rfl
@[simp] theorem State.setDie_release (off : Nat) (v : Word) : (s.setDie off v).release = s.release := rfl
@[simp] theorem State.setDie_easel (off : Nat) (v : Word) : (s.setDie off v).easel = s.easel := rfl
@[simp] theorem State.setDie_redSlots (off : Nat) (v : Word) : (s.setDie off v).redSlots = s.redSlots := rfl
@[simp] theorem State.setDie_msgWait (off : Nat) (v : Word) : (s.setDie off v).msgWait = s.msgWait := rfl
@[simp] theorem State.setDie_hostReqs (off : Nat) (v : Word) : (s.setDie off v).hostReqs = s.hostReqs := rfl
@[simp] theorem State.setDie_lastRsp (off : Nat) (v : Word) : (s.setDie off v).lastRsp = s.lastRsp := rfl
@[simp] theorem State.setDie_frozen (off : Nat) (v : Word) : (s.setDie off v).frozen = s.frozen := rfl
@[simp] theorem State.setDie_ticks (off : Nat) (v : Word) : (s.setDie off v).ticks = s.ticks := rfl
@[simp] theorem State.setDie_fresh (off : Nat) (v : Word) : (s.setDie off v).fresh = s.fresh := rfl
@[simp] theorem State.setDie_pending (off : Nat) (v : Word) : (s.setDie off v).pending = s.pending := rfl

/-! ### setDieF -/

@[simp] theorem State.setDieF_config (off hi lo v : Nat) : (s.setDieF off hi lo v).config = s.config := rfl
@[simp] theorem State.setDieF_arbLive (off hi lo v : Nat) : (s.setDieF off hi lo v).arbLive = s.arbLive := rfl
@[simp] theorem State.setDieF_latch (off hi lo v : Nat) : (s.setDieF off hi lo v).latch = s.latch := rfl
@[simp] theorem State.setDieF_stage (off hi lo v : Nat) : (s.setDieF off hi lo v).stage = s.stage := rfl
@[simp] theorem State.setDieF_mesh (off hi lo v : Nat) : (s.setDieF off hi lo v).mesh = s.mesh := rfl
@[simp] theorem State.setDieF_sketch (off hi lo v : Nat) : (s.setDieF off hi lo v).sketch = s.sketch := rfl
@[simp] theorem State.setDieF_time (off hi lo v : Nat) : (s.setDieF off hi lo v).time = s.time := rfl
@[simp] theorem State.setDieF_flt (off hi lo v : Nat) : (s.setDieF off hi lo v).flt = s.flt := rfl
@[simp] theorem State.setDieF_trays (off hi lo v : Nat) : (s.setDieF off hi lo v).trays = s.trays := rfl
@[simp] theorem State.setDieF_eng (off hi lo v : Nat) : (s.setDieF off hi lo v).eng = s.eng := rfl
@[simp] theorem State.setDieF_msgs (off hi lo v : Nat) : (s.setDieF off hi lo v).msgs = s.msgs := rfl
@[simp] theorem State.setDieF_mem (off hi lo v : Nat) : (s.setDieF off hi lo v).mem = s.mem := rfl
@[simp] theorem State.setDieF_spine (off hi lo v : Nat) : (s.setDieF off hi lo v).spine = s.spine := rfl
@[simp] theorem State.setDieF_power (off hi lo v : Nat) : (s.setDieF off hi lo v).power = s.power := rfl
@[simp] theorem State.setDieF_trace (off hi lo v : Nat) : (s.setDieF off hi lo v).trace = s.trace := rfl
@[simp] theorem State.setDieF_act (off hi lo v : Nat) : (s.setDieF off hi lo v).act = s.act := rfl
@[simp] theorem State.setDieF_cmap (off hi lo v : Nat) : (s.setDieF off hi lo v).cmap = s.cmap := rfl
@[simp] theorem State.setDieF_core (off hi lo v : Nat) : (s.setDieF off hi lo v).core = s.core := rfl
@[simp] theorem State.setDieF_tap (off hi lo v : Nat) : (s.setDieF off hi lo v).tap = s.tap := rfl
@[simp] theorem State.setDieF_load (off hi lo v : Nat) : (s.setDieF off hi lo v).load = s.load := rfl
@[simp] theorem State.setDieF_release (off hi lo v : Nat) : (s.setDieF off hi lo v).release = s.release := rfl
@[simp] theorem State.setDieF_easel (off hi lo v : Nat) : (s.setDieF off hi lo v).easel = s.easel := rfl
@[simp] theorem State.setDieF_redSlots (off hi lo v : Nat) : (s.setDieF off hi lo v).redSlots = s.redSlots := rfl
@[simp] theorem State.setDieF_msgWait (off hi lo v : Nat) : (s.setDieF off hi lo v).msgWait = s.msgWait := rfl
@[simp] theorem State.setDieF_hostReqs (off hi lo v : Nat) : (s.setDieF off hi lo v).hostReqs = s.hostReqs := rfl
@[simp] theorem State.setDieF_lastRsp (off hi lo v : Nat) : (s.setDieF off hi lo v).lastRsp = s.lastRsp := rfl
@[simp] theorem State.setDieF_frozen (off hi lo v : Nat) : (s.setDieF off hi lo v).frozen = s.frozen := rfl
@[simp] theorem State.setDieF_ticks (off hi lo v : Nat) : (s.setDieF off hi lo v).ticks = s.ticks := rfl
@[simp] theorem State.setDieF_fresh (off hi lo v : Nat) : (s.setDieF off hi lo v).fresh = s.fresh := rfl
@[simp] theorem State.setDieF_pending (off hi lo v : Nat) : (s.setDieF off hi lo v).pending = s.pending := rfl

/-! ### setRegF -/

@[simp] theorem State.setRegF_config (a : RegAddr) (hi lo v : Nat) : (s.setRegF a hi lo v).config = s.config := rfl
@[simp] theorem State.setRegF_arbLive (a : RegAddr) (hi lo v : Nat) : (s.setRegF a hi lo v).arbLive = s.arbLive := rfl
@[simp] theorem State.setRegF_latch (a : RegAddr) (hi lo v : Nat) : (s.setRegF a hi lo v).latch = s.latch := rfl
@[simp] theorem State.setRegF_stage (a : RegAddr) (hi lo v : Nat) : (s.setRegF a hi lo v).stage = s.stage := rfl
@[simp] theorem State.setRegF_mesh (a : RegAddr) (hi lo v : Nat) : (s.setRegF a hi lo v).mesh = s.mesh := rfl
@[simp] theorem State.setRegF_sketch (a : RegAddr) (hi lo v : Nat) : (s.setRegF a hi lo v).sketch = s.sketch := rfl
@[simp] theorem State.setRegF_time (a : RegAddr) (hi lo v : Nat) : (s.setRegF a hi lo v).time = s.time := rfl
@[simp] theorem State.setRegF_flt (a : RegAddr) (hi lo v : Nat) : (s.setRegF a hi lo v).flt = s.flt := rfl
@[simp] theorem State.setRegF_trays (a : RegAddr) (hi lo v : Nat) : (s.setRegF a hi lo v).trays = s.trays := rfl
@[simp] theorem State.setRegF_eng (a : RegAddr) (hi lo v : Nat) : (s.setRegF a hi lo v).eng = s.eng := rfl
@[simp] theorem State.setRegF_msgs (a : RegAddr) (hi lo v : Nat) : (s.setRegF a hi lo v).msgs = s.msgs := rfl
@[simp] theorem State.setRegF_mem (a : RegAddr) (hi lo v : Nat) : (s.setRegF a hi lo v).mem = s.mem := rfl
@[simp] theorem State.setRegF_spine (a : RegAddr) (hi lo v : Nat) : (s.setRegF a hi lo v).spine = s.spine := rfl
@[simp] theorem State.setRegF_power (a : RegAddr) (hi lo v : Nat) : (s.setRegF a hi lo v).power = s.power := rfl
@[simp] theorem State.setRegF_trace (a : RegAddr) (hi lo v : Nat) : (s.setRegF a hi lo v).trace = s.trace := rfl
@[simp] theorem State.setRegF_act (a : RegAddr) (hi lo v : Nat) : (s.setRegF a hi lo v).act = s.act := rfl
@[simp] theorem State.setRegF_cmap (a : RegAddr) (hi lo v : Nat) : (s.setRegF a hi lo v).cmap = s.cmap := rfl
@[simp] theorem State.setRegF_core (a : RegAddr) (hi lo v : Nat) : (s.setRegF a hi lo v).core = s.core := rfl
@[simp] theorem State.setRegF_tap (a : RegAddr) (hi lo v : Nat) : (s.setRegF a hi lo v).tap = s.tap := rfl
@[simp] theorem State.setRegF_load (a : RegAddr) (hi lo v : Nat) : (s.setRegF a hi lo v).load = s.load := rfl
@[simp] theorem State.setRegF_release (a : RegAddr) (hi lo v : Nat) : (s.setRegF a hi lo v).release = s.release := rfl
@[simp] theorem State.setRegF_easel (a : RegAddr) (hi lo v : Nat) : (s.setRegF a hi lo v).easel = s.easel := rfl
@[simp] theorem State.setRegF_redSlots (a : RegAddr) (hi lo v : Nat) : (s.setRegF a hi lo v).redSlots = s.redSlots := rfl
@[simp] theorem State.setRegF_msgWait (a : RegAddr) (hi lo v : Nat) : (s.setRegF a hi lo v).msgWait = s.msgWait := rfl
@[simp] theorem State.setRegF_hostReqs (a : RegAddr) (hi lo v : Nat) : (s.setRegF a hi lo v).hostReqs = s.hostReqs := rfl
@[simp] theorem State.setRegF_lastRsp (a : RegAddr) (hi lo v : Nat) : (s.setRegF a hi lo v).lastRsp = s.lastRsp := rfl
@[simp] theorem State.setRegF_frozen (a : RegAddr) (hi lo v : Nat) : (s.setRegF a hi lo v).frozen = s.frozen := rfl
@[simp] theorem State.setRegF_ticks (a : RegAddr) (hi lo v : Nat) : (s.setRegF a hi lo v).ticks = s.ticks := rfl
@[simp] theorem State.setRegF_fresh (a : RegAddr) (hi lo v : Nat) : (s.setRegF a hi lo v).fresh = s.fresh := rfl
@[simp] theorem State.setRegF_pending (a : RegAddr) (hi lo v : Nat) : (s.setRegF a hi lo v).pending = s.pending := rfl

/-! ### count -/

@[simp] theorem State.count_config (a : RegAddr) (n : Nat) : (s.count a n).config = s.config := rfl
@[simp] theorem State.count_arbLive (a : RegAddr) (n : Nat) : (s.count a n).arbLive = s.arbLive := rfl
@[simp] theorem State.count_latch (a : RegAddr) (n : Nat) : (s.count a n).latch = s.latch := rfl
@[simp] theorem State.count_stage (a : RegAddr) (n : Nat) : (s.count a n).stage = s.stage := rfl
@[simp] theorem State.count_mesh (a : RegAddr) (n : Nat) : (s.count a n).mesh = s.mesh := rfl
@[simp] theorem State.count_sketch (a : RegAddr) (n : Nat) : (s.count a n).sketch = s.sketch := rfl
@[simp] theorem State.count_time (a : RegAddr) (n : Nat) : (s.count a n).time = s.time := rfl
@[simp] theorem State.count_flt (a : RegAddr) (n : Nat) : (s.count a n).flt = s.flt := rfl
@[simp] theorem State.count_trays (a : RegAddr) (n : Nat) : (s.count a n).trays = s.trays := rfl
@[simp] theorem State.count_eng (a : RegAddr) (n : Nat) : (s.count a n).eng = s.eng := rfl
@[simp] theorem State.count_msgs (a : RegAddr) (n : Nat) : (s.count a n).msgs = s.msgs := rfl
@[simp] theorem State.count_mem (a : RegAddr) (n : Nat) : (s.count a n).mem = s.mem := rfl
@[simp] theorem State.count_spine (a : RegAddr) (n : Nat) : (s.count a n).spine = s.spine := rfl
@[simp] theorem State.count_power (a : RegAddr) (n : Nat) : (s.count a n).power = s.power := rfl
@[simp] theorem State.count_trace (a : RegAddr) (n : Nat) : (s.count a n).trace = s.trace := rfl
@[simp] theorem State.count_act (a : RegAddr) (n : Nat) : (s.count a n).act = s.act := rfl
@[simp] theorem State.count_cmap (a : RegAddr) (n : Nat) : (s.count a n).cmap = s.cmap := rfl
@[simp] theorem State.count_core (a : RegAddr) (n : Nat) : (s.count a n).core = s.core := rfl
@[simp] theorem State.count_tap (a : RegAddr) (n : Nat) : (s.count a n).tap = s.tap := rfl
@[simp] theorem State.count_load (a : RegAddr) (n : Nat) : (s.count a n).load = s.load := rfl
@[simp] theorem State.count_release (a : RegAddr) (n : Nat) : (s.count a n).release = s.release := rfl
@[simp] theorem State.count_easel (a : RegAddr) (n : Nat) : (s.count a n).easel = s.easel := rfl
@[simp] theorem State.count_redSlots (a : RegAddr) (n : Nat) : (s.count a n).redSlots = s.redSlots := rfl
@[simp] theorem State.count_msgWait (a : RegAddr) (n : Nat) : (s.count a n).msgWait = s.msgWait := rfl
@[simp] theorem State.count_hostReqs (a : RegAddr) (n : Nat) : (s.count a n).hostReqs = s.hostReqs := rfl
@[simp] theorem State.count_lastRsp (a : RegAddr) (n : Nat) : (s.count a n).lastRsp = s.lastRsp := rfl
@[simp] theorem State.count_frozen (a : RegAddr) (n : Nat) : (s.count a n).frozen = s.frozen := rfl
@[simp] theorem State.count_ticks (a : RegAddr) (n : Nat) : (s.count a n).ticks = s.ticks := rfl
@[simp] theorem State.count_fresh (a : RegAddr) (n : Nat) : (s.count a n).fresh = s.fresh := rfl
@[simp] theorem State.count_pending (a : RegAddr) (n : Nat) : (s.count a n).pending = s.pending := rfl

/-! ### setReg64 -/

@[simp] theorem State.setReg64_config (a : RegAddr) (n : Nat) : (s.setReg64 a n).config = s.config := rfl
@[simp] theorem State.setReg64_arbLive (a : RegAddr) (n : Nat) : (s.setReg64 a n).arbLive = s.arbLive := rfl
@[simp] theorem State.setReg64_latch (a : RegAddr) (n : Nat) : (s.setReg64 a n).latch = s.latch := rfl
@[simp] theorem State.setReg64_stage (a : RegAddr) (n : Nat) : (s.setReg64 a n).stage = s.stage := rfl
@[simp] theorem State.setReg64_mesh (a : RegAddr) (n : Nat) : (s.setReg64 a n).mesh = s.mesh := rfl
@[simp] theorem State.setReg64_sketch (a : RegAddr) (n : Nat) : (s.setReg64 a n).sketch = s.sketch := rfl
@[simp] theorem State.setReg64_time (a : RegAddr) (n : Nat) : (s.setReg64 a n).time = s.time := rfl
@[simp] theorem State.setReg64_flt (a : RegAddr) (n : Nat) : (s.setReg64 a n).flt = s.flt := rfl
@[simp] theorem State.setReg64_trays (a : RegAddr) (n : Nat) : (s.setReg64 a n).trays = s.trays := rfl
@[simp] theorem State.setReg64_eng (a : RegAddr) (n : Nat) : (s.setReg64 a n).eng = s.eng := rfl
@[simp] theorem State.setReg64_msgs (a : RegAddr) (n : Nat) : (s.setReg64 a n).msgs = s.msgs := rfl
@[simp] theorem State.setReg64_mem (a : RegAddr) (n : Nat) : (s.setReg64 a n).mem = s.mem := rfl
@[simp] theorem State.setReg64_spine (a : RegAddr) (n : Nat) : (s.setReg64 a n).spine = s.spine := rfl
@[simp] theorem State.setReg64_power (a : RegAddr) (n : Nat) : (s.setReg64 a n).power = s.power := rfl
@[simp] theorem State.setReg64_trace (a : RegAddr) (n : Nat) : (s.setReg64 a n).trace = s.trace := rfl
@[simp] theorem State.setReg64_act (a : RegAddr) (n : Nat) : (s.setReg64 a n).act = s.act := rfl
@[simp] theorem State.setReg64_cmap (a : RegAddr) (n : Nat) : (s.setReg64 a n).cmap = s.cmap := rfl
@[simp] theorem State.setReg64_core (a : RegAddr) (n : Nat) : (s.setReg64 a n).core = s.core := rfl
@[simp] theorem State.setReg64_tap (a : RegAddr) (n : Nat) : (s.setReg64 a n).tap = s.tap := rfl
@[simp] theorem State.setReg64_load (a : RegAddr) (n : Nat) : (s.setReg64 a n).load = s.load := rfl
@[simp] theorem State.setReg64_release (a : RegAddr) (n : Nat) : (s.setReg64 a n).release = s.release := rfl
@[simp] theorem State.setReg64_easel (a : RegAddr) (n : Nat) : (s.setReg64 a n).easel = s.easel := rfl
@[simp] theorem State.setReg64_redSlots (a : RegAddr) (n : Nat) : (s.setReg64 a n).redSlots = s.redSlots := rfl
@[simp] theorem State.setReg64_msgWait (a : RegAddr) (n : Nat) : (s.setReg64 a n).msgWait = s.msgWait := rfl
@[simp] theorem State.setReg64_hostReqs (a : RegAddr) (n : Nat) : (s.setReg64 a n).hostReqs = s.hostReqs := rfl
@[simp] theorem State.setReg64_lastRsp (a : RegAddr) (n : Nat) : (s.setReg64 a n).lastRsp = s.lastRsp := rfl
@[simp] theorem State.setReg64_frozen (a : RegAddr) (n : Nat) : (s.setReg64 a n).frozen = s.frozen := rfl
@[simp] theorem State.setReg64_ticks (a : RegAddr) (n : Nat) : (s.setReg64 a n).ticks = s.ticks := rfl
@[simp] theorem State.setReg64_fresh (a : RegAddr) (n : Nat) : (s.setReg64 a n).fresh = s.fresh := rfl
@[simp] theorem State.setReg64_pending (a : RegAddr) (n : Nat) : (s.setReg64 a n).pending = s.pending := rfl

/-! ### draw -/

@[simp] theorem State.draw_config : (s.draw).config = s.config := rfl
@[simp] theorem State.draw_regs : (s.draw).regs = s.regs := rfl
@[simp] theorem State.draw_arbLive : (s.draw).arbLive = s.arbLive := rfl
@[simp] theorem State.draw_latch : (s.draw).latch = s.latch := rfl
@[simp] theorem State.draw_stage : (s.draw).stage = s.stage := rfl
@[simp] theorem State.draw_mesh : (s.draw).mesh = s.mesh := rfl
@[simp] theorem State.draw_sketch : (s.draw).sketch = s.sketch := rfl
@[simp] theorem State.draw_time : (s.draw).time = s.time := rfl
@[simp] theorem State.draw_flt : (s.draw).flt = s.flt := rfl
@[simp] theorem State.draw_trays : (s.draw).trays = s.trays := rfl
@[simp] theorem State.draw_eng : (s.draw).eng = s.eng := rfl
@[simp] theorem State.draw_msgs : (s.draw).msgs = s.msgs := rfl
@[simp] theorem State.draw_mem : (s.draw).mem = s.mem := rfl
@[simp] theorem State.draw_spine : (s.draw).spine = s.spine := rfl
@[simp] theorem State.draw_power : (s.draw).power = s.power := rfl
@[simp] theorem State.draw_trace : (s.draw).trace = s.trace := rfl
@[simp] theorem State.draw_act : (s.draw).act = s.act := rfl
@[simp] theorem State.draw_cmap : (s.draw).cmap = s.cmap := rfl
@[simp] theorem State.draw_core : (s.draw).core = s.core := rfl
@[simp] theorem State.draw_tap : (s.draw).tap = s.tap := rfl
@[simp] theorem State.draw_load : (s.draw).load = s.load := rfl
@[simp] theorem State.draw_release : (s.draw).release = s.release := rfl
@[simp] theorem State.draw_easel : (s.draw).easel = s.easel := rfl
@[simp] theorem State.draw_redSlots : (s.draw).redSlots = s.redSlots := rfl
@[simp] theorem State.draw_msgWait : (s.draw).msgWait = s.msgWait := rfl
@[simp] theorem State.draw_hostReqs : (s.draw).hostReqs = s.hostReqs := rfl
@[simp] theorem State.draw_lastRsp : (s.draw).lastRsp = s.lastRsp := rfl
@[simp] theorem State.draw_frozen : (s.draw).frozen = s.frozen := rfl
@[simp] theorem State.draw_ticks : (s.draw).ticks = s.ticks := rfl
@[simp] theorem State.draw_pending : (s.draw).pending = s.pending := rfl

/-! ### raiseFull -/

@[simp] theorem State.raiseFull_config (src pos : Nat) (b : BlockKind) (unit ctx x y l : Nat) : (s.raiseFull src pos b unit ctx x y l).config = s.config := rfl
@[simp] theorem State.raiseFull_regs (src pos : Nat) (b : BlockKind) (unit ctx x y l : Nat) : (s.raiseFull src pos b unit ctx x y l).regs = s.regs := rfl
@[simp] theorem State.raiseFull_arbLive (src pos : Nat) (b : BlockKind) (unit ctx x y l : Nat) : (s.raiseFull src pos b unit ctx x y l).arbLive = s.arbLive := rfl
@[simp] theorem State.raiseFull_latch (src pos : Nat) (b : BlockKind) (unit ctx x y l : Nat) : (s.raiseFull src pos b unit ctx x y l).latch = s.latch := rfl
@[simp] theorem State.raiseFull_stage (src pos : Nat) (b : BlockKind) (unit ctx x y l : Nat) : (s.raiseFull src pos b unit ctx x y l).stage = s.stage := rfl
@[simp] theorem State.raiseFull_mesh (src pos : Nat) (b : BlockKind) (unit ctx x y l : Nat) : (s.raiseFull src pos b unit ctx x y l).mesh = s.mesh := rfl
@[simp] theorem State.raiseFull_sketch (src pos : Nat) (b : BlockKind) (unit ctx x y l : Nat) : (s.raiseFull src pos b unit ctx x y l).sketch = s.sketch := rfl
@[simp] theorem State.raiseFull_time (src pos : Nat) (b : BlockKind) (unit ctx x y l : Nat) : (s.raiseFull src pos b unit ctx x y l).time = s.time := rfl
@[simp] theorem State.raiseFull_trays (src pos : Nat) (b : BlockKind) (unit ctx x y l : Nat) : (s.raiseFull src pos b unit ctx x y l).trays = s.trays := rfl
@[simp] theorem State.raiseFull_eng (src pos : Nat) (b : BlockKind) (unit ctx x y l : Nat) : (s.raiseFull src pos b unit ctx x y l).eng = s.eng := rfl
@[simp] theorem State.raiseFull_msgs (src pos : Nat) (b : BlockKind) (unit ctx x y l : Nat) : (s.raiseFull src pos b unit ctx x y l).msgs = s.msgs := rfl
@[simp] theorem State.raiseFull_mem (src pos : Nat) (b : BlockKind) (unit ctx x y l : Nat) : (s.raiseFull src pos b unit ctx x y l).mem = s.mem := rfl
@[simp] theorem State.raiseFull_spine (src pos : Nat) (b : BlockKind) (unit ctx x y l : Nat) : (s.raiseFull src pos b unit ctx x y l).spine = s.spine := rfl
@[simp] theorem State.raiseFull_power (src pos : Nat) (b : BlockKind) (unit ctx x y l : Nat) : (s.raiseFull src pos b unit ctx x y l).power = s.power := rfl
@[simp] theorem State.raiseFull_trace (src pos : Nat) (b : BlockKind) (unit ctx x y l : Nat) : (s.raiseFull src pos b unit ctx x y l).trace = s.trace := rfl
@[simp] theorem State.raiseFull_act (src pos : Nat) (b : BlockKind) (unit ctx x y l : Nat) : (s.raiseFull src pos b unit ctx x y l).act = s.act := rfl
@[simp] theorem State.raiseFull_cmap (src pos : Nat) (b : BlockKind) (unit ctx x y l : Nat) : (s.raiseFull src pos b unit ctx x y l).cmap = s.cmap := rfl
@[simp] theorem State.raiseFull_core (src pos : Nat) (b : BlockKind) (unit ctx x y l : Nat) : (s.raiseFull src pos b unit ctx x y l).core = s.core := rfl
@[simp] theorem State.raiseFull_tap (src pos : Nat) (b : BlockKind) (unit ctx x y l : Nat) : (s.raiseFull src pos b unit ctx x y l).tap = s.tap := rfl
@[simp] theorem State.raiseFull_load (src pos : Nat) (b : BlockKind) (unit ctx x y l : Nat) : (s.raiseFull src pos b unit ctx x y l).load = s.load := rfl
@[simp] theorem State.raiseFull_release (src pos : Nat) (b : BlockKind) (unit ctx x y l : Nat) : (s.raiseFull src pos b unit ctx x y l).release = s.release := rfl
@[simp] theorem State.raiseFull_easel (src pos : Nat) (b : BlockKind) (unit ctx x y l : Nat) : (s.raiseFull src pos b unit ctx x y l).easel = s.easel := rfl
@[simp] theorem State.raiseFull_redSlots (src pos : Nat) (b : BlockKind) (unit ctx x y l : Nat) : (s.raiseFull src pos b unit ctx x y l).redSlots = s.redSlots := rfl
@[simp] theorem State.raiseFull_msgWait (src pos : Nat) (b : BlockKind) (unit ctx x y l : Nat) : (s.raiseFull src pos b unit ctx x y l).msgWait = s.msgWait := rfl
@[simp] theorem State.raiseFull_hostReqs (src pos : Nat) (b : BlockKind) (unit ctx x y l : Nat) : (s.raiseFull src pos b unit ctx x y l).hostReqs = s.hostReqs := rfl
@[simp] theorem State.raiseFull_lastRsp (src pos : Nat) (b : BlockKind) (unit ctx x y l : Nat) : (s.raiseFull src pos b unit ctx x y l).lastRsp = s.lastRsp := rfl
@[simp] theorem State.raiseFull_frozen (src pos : Nat) (b : BlockKind) (unit ctx x y l : Nat) : (s.raiseFull src pos b unit ctx x y l).frozen = s.frozen := rfl
@[simp] theorem State.raiseFull_ticks (src pos : Nat) (b : BlockKind) (unit ctx x y l : Nat) : (s.raiseFull src pos b unit ctx x y l).ticks = s.ticks := rfl
@[simp] theorem State.raiseFull_pending (src pos : Nat) (b : BlockKind) (unit ctx x y l : Nat) : (s.raiseFull src pos b unit ctx x y l).pending = s.pending := rfl

/-! ### raise -/

@[simp] theorem State.raise_config (src pos : Nat) (b : BlockKind) (unit ctx x y : Nat) : (s.raise src pos b unit ctx x y).config = s.config := rfl
@[simp] theorem State.raise_regs (src pos : Nat) (b : BlockKind) (unit ctx x y : Nat) : (s.raise src pos b unit ctx x y).regs = s.regs := rfl
@[simp] theorem State.raise_arbLive (src pos : Nat) (b : BlockKind) (unit ctx x y : Nat) : (s.raise src pos b unit ctx x y).arbLive = s.arbLive := rfl
@[simp] theorem State.raise_latch (src pos : Nat) (b : BlockKind) (unit ctx x y : Nat) : (s.raise src pos b unit ctx x y).latch = s.latch := rfl
@[simp] theorem State.raise_stage (src pos : Nat) (b : BlockKind) (unit ctx x y : Nat) : (s.raise src pos b unit ctx x y).stage = s.stage := rfl
@[simp] theorem State.raise_mesh (src pos : Nat) (b : BlockKind) (unit ctx x y : Nat) : (s.raise src pos b unit ctx x y).mesh = s.mesh := rfl
@[simp] theorem State.raise_sketch (src pos : Nat) (b : BlockKind) (unit ctx x y : Nat) : (s.raise src pos b unit ctx x y).sketch = s.sketch := rfl
@[simp] theorem State.raise_time (src pos : Nat) (b : BlockKind) (unit ctx x y : Nat) : (s.raise src pos b unit ctx x y).time = s.time := rfl
@[simp] theorem State.raise_trays (src pos : Nat) (b : BlockKind) (unit ctx x y : Nat) : (s.raise src pos b unit ctx x y).trays = s.trays := rfl
@[simp] theorem State.raise_eng (src pos : Nat) (b : BlockKind) (unit ctx x y : Nat) : (s.raise src pos b unit ctx x y).eng = s.eng := rfl
@[simp] theorem State.raise_msgs (src pos : Nat) (b : BlockKind) (unit ctx x y : Nat) : (s.raise src pos b unit ctx x y).msgs = s.msgs := rfl
@[simp] theorem State.raise_mem (src pos : Nat) (b : BlockKind) (unit ctx x y : Nat) : (s.raise src pos b unit ctx x y).mem = s.mem := rfl
@[simp] theorem State.raise_spine (src pos : Nat) (b : BlockKind) (unit ctx x y : Nat) : (s.raise src pos b unit ctx x y).spine = s.spine := rfl
@[simp] theorem State.raise_power (src pos : Nat) (b : BlockKind) (unit ctx x y : Nat) : (s.raise src pos b unit ctx x y).power = s.power := rfl
@[simp] theorem State.raise_trace (src pos : Nat) (b : BlockKind) (unit ctx x y : Nat) : (s.raise src pos b unit ctx x y).trace = s.trace := rfl
@[simp] theorem State.raise_act (src pos : Nat) (b : BlockKind) (unit ctx x y : Nat) : (s.raise src pos b unit ctx x y).act = s.act := rfl
@[simp] theorem State.raise_cmap (src pos : Nat) (b : BlockKind) (unit ctx x y : Nat) : (s.raise src pos b unit ctx x y).cmap = s.cmap := rfl
@[simp] theorem State.raise_core (src pos : Nat) (b : BlockKind) (unit ctx x y : Nat) : (s.raise src pos b unit ctx x y).core = s.core := rfl
@[simp] theorem State.raise_tap (src pos : Nat) (b : BlockKind) (unit ctx x y : Nat) : (s.raise src pos b unit ctx x y).tap = s.tap := rfl
@[simp] theorem State.raise_load (src pos : Nat) (b : BlockKind) (unit ctx x y : Nat) : (s.raise src pos b unit ctx x y).load = s.load := rfl
@[simp] theorem State.raise_release (src pos : Nat) (b : BlockKind) (unit ctx x y : Nat) : (s.raise src pos b unit ctx x y).release = s.release := rfl
@[simp] theorem State.raise_easel (src pos : Nat) (b : BlockKind) (unit ctx x y : Nat) : (s.raise src pos b unit ctx x y).easel = s.easel := rfl
@[simp] theorem State.raise_redSlots (src pos : Nat) (b : BlockKind) (unit ctx x y : Nat) : (s.raise src pos b unit ctx x y).redSlots = s.redSlots := rfl
@[simp] theorem State.raise_msgWait (src pos : Nat) (b : BlockKind) (unit ctx x y : Nat) : (s.raise src pos b unit ctx x y).msgWait = s.msgWait := rfl
@[simp] theorem State.raise_hostReqs (src pos : Nat) (b : BlockKind) (unit ctx x y : Nat) : (s.raise src pos b unit ctx x y).hostReqs = s.hostReqs := rfl
@[simp] theorem State.raise_lastRsp (src pos : Nat) (b : BlockKind) (unit ctx x y : Nat) : (s.raise src pos b unit ctx x y).lastRsp = s.lastRsp := rfl
@[simp] theorem State.raise_frozen (src pos : Nat) (b : BlockKind) (unit ctx x y : Nat) : (s.raise src pos b unit ctx x y).frozen = s.frozen := rfl
@[simp] theorem State.raise_ticks (src pos : Nat) (b : BlockKind) (unit ctx x y : Nat) : (s.raise src pos b unit ctx x y).ticks = s.ticks := rfl
@[simp] theorem State.raise_pending (src pos : Nat) (b : BlockKind) (unit ctx x y : Nat) : (s.raise src pos b unit ctx x y).pending = s.pending := rfl

/-! ### raiseDie -/

@[simp] theorem State.raiseDie_config (src x y : Nat) : (s.raiseDie src x y).config = s.config := rfl
@[simp] theorem State.raiseDie_regs (src x y : Nat) : (s.raiseDie src x y).regs = s.regs := rfl
@[simp] theorem State.raiseDie_arbLive (src x y : Nat) : (s.raiseDie src x y).arbLive = s.arbLive := rfl
@[simp] theorem State.raiseDie_latch (src x y : Nat) : (s.raiseDie src x y).latch = s.latch := rfl
@[simp] theorem State.raiseDie_stage (src x y : Nat) : (s.raiseDie src x y).stage = s.stage := rfl
@[simp] theorem State.raiseDie_mesh (src x y : Nat) : (s.raiseDie src x y).mesh = s.mesh := rfl
@[simp] theorem State.raiseDie_sketch (src x y : Nat) : (s.raiseDie src x y).sketch = s.sketch := rfl
@[simp] theorem State.raiseDie_time (src x y : Nat) : (s.raiseDie src x y).time = s.time := rfl
@[simp] theorem State.raiseDie_trays (src x y : Nat) : (s.raiseDie src x y).trays = s.trays := rfl
@[simp] theorem State.raiseDie_eng (src x y : Nat) : (s.raiseDie src x y).eng = s.eng := rfl
@[simp] theorem State.raiseDie_msgs (src x y : Nat) : (s.raiseDie src x y).msgs = s.msgs := rfl
@[simp] theorem State.raiseDie_mem (src x y : Nat) : (s.raiseDie src x y).mem = s.mem := rfl
@[simp] theorem State.raiseDie_spine (src x y : Nat) : (s.raiseDie src x y).spine = s.spine := rfl
@[simp] theorem State.raiseDie_power (src x y : Nat) : (s.raiseDie src x y).power = s.power := rfl
@[simp] theorem State.raiseDie_trace (src x y : Nat) : (s.raiseDie src x y).trace = s.trace := rfl
@[simp] theorem State.raiseDie_act (src x y : Nat) : (s.raiseDie src x y).act = s.act := rfl
@[simp] theorem State.raiseDie_cmap (src x y : Nat) : (s.raiseDie src x y).cmap = s.cmap := rfl
@[simp] theorem State.raiseDie_core (src x y : Nat) : (s.raiseDie src x y).core = s.core := rfl
@[simp] theorem State.raiseDie_tap (src x y : Nat) : (s.raiseDie src x y).tap = s.tap := rfl
@[simp] theorem State.raiseDie_load (src x y : Nat) : (s.raiseDie src x y).load = s.load := rfl
@[simp] theorem State.raiseDie_release (src x y : Nat) : (s.raiseDie src x y).release = s.release := rfl
@[simp] theorem State.raiseDie_easel (src x y : Nat) : (s.raiseDie src x y).easel = s.easel := rfl
@[simp] theorem State.raiseDie_redSlots (src x y : Nat) : (s.raiseDie src x y).redSlots = s.redSlots := rfl
@[simp] theorem State.raiseDie_msgWait (src x y : Nat) : (s.raiseDie src x y).msgWait = s.msgWait := rfl
@[simp] theorem State.raiseDie_hostReqs (src x y : Nat) : (s.raiseDie src x y).hostReqs = s.hostReqs := rfl
@[simp] theorem State.raiseDie_lastRsp (src x y : Nat) : (s.raiseDie src x y).lastRsp = s.lastRsp := rfl
@[simp] theorem State.raiseDie_frozen (src x y : Nat) : (s.raiseDie src x y).frozen = s.frozen := rfl
@[simp] theorem State.raiseDie_ticks (src x y : Nat) : (s.raiseDie src x y).ticks = s.ticks := rfl
@[simp] theorem State.raiseDie_pending (src x y : Nat) : (s.raiseDie src x y).pending = s.pending := rfl

/-! ### cfgNote -/

@[simp] theorem State.cfgNote_config (a : RegAddr) : (s.cfgNote a).config = s.config := rfl
@[simp] theorem State.cfgNote_regs (a : RegAddr) : (s.cfgNote a).regs = s.regs := rfl
@[simp] theorem State.cfgNote_arbLive (a : RegAddr) : (s.cfgNote a).arbLive = s.arbLive := rfl
@[simp] theorem State.cfgNote_latch (a : RegAddr) : (s.cfgNote a).latch = s.latch := rfl
@[simp] theorem State.cfgNote_stage (a : RegAddr) : (s.cfgNote a).stage = s.stage := rfl
@[simp] theorem State.cfgNote_mesh (a : RegAddr) : (s.cfgNote a).mesh = s.mesh := rfl
@[simp] theorem State.cfgNote_sketch (a : RegAddr) : (s.cfgNote a).sketch = s.sketch := rfl
@[simp] theorem State.cfgNote_time (a : RegAddr) : (s.cfgNote a).time = s.time := rfl
@[simp] theorem State.cfgNote_trays (a : RegAddr) : (s.cfgNote a).trays = s.trays := rfl
@[simp] theorem State.cfgNote_eng (a : RegAddr) : (s.cfgNote a).eng = s.eng := rfl
@[simp] theorem State.cfgNote_msgs (a : RegAddr) : (s.cfgNote a).msgs = s.msgs := rfl
@[simp] theorem State.cfgNote_mem (a : RegAddr) : (s.cfgNote a).mem = s.mem := rfl
@[simp] theorem State.cfgNote_spine (a : RegAddr) : (s.cfgNote a).spine = s.spine := rfl
@[simp] theorem State.cfgNote_power (a : RegAddr) : (s.cfgNote a).power = s.power := rfl
@[simp] theorem State.cfgNote_trace (a : RegAddr) : (s.cfgNote a).trace = s.trace := rfl
@[simp] theorem State.cfgNote_act (a : RegAddr) : (s.cfgNote a).act = s.act := rfl
@[simp] theorem State.cfgNote_cmap (a : RegAddr) : (s.cfgNote a).cmap = s.cmap := rfl
@[simp] theorem State.cfgNote_core (a : RegAddr) : (s.cfgNote a).core = s.core := rfl
@[simp] theorem State.cfgNote_tap (a : RegAddr) : (s.cfgNote a).tap = s.tap := rfl
@[simp] theorem State.cfgNote_load (a : RegAddr) : (s.cfgNote a).load = s.load := rfl
@[simp] theorem State.cfgNote_release (a : RegAddr) : (s.cfgNote a).release = s.release := rfl
@[simp] theorem State.cfgNote_easel (a : RegAddr) : (s.cfgNote a).easel = s.easel := rfl
@[simp] theorem State.cfgNote_redSlots (a : RegAddr) : (s.cfgNote a).redSlots = s.redSlots := rfl
@[simp] theorem State.cfgNote_msgWait (a : RegAddr) : (s.cfgNote a).msgWait = s.msgWait := rfl
@[simp] theorem State.cfgNote_hostReqs (a : RegAddr) : (s.cfgNote a).hostReqs = s.hostReqs := rfl
@[simp] theorem State.cfgNote_lastRsp (a : RegAddr) : (s.cfgNote a).lastRsp = s.lastRsp := rfl
@[simp] theorem State.cfgNote_frozen (a : RegAddr) : (s.cfgNote a).frozen = s.frozen := rfl
@[simp] theorem State.cfgNote_ticks (a : RegAddr) : (s.cfgNote a).ticks = s.ticks := rfl
@[simp] theorem State.cfgNote_pending (a : RegAddr) : (s.cfgNote a).pending = s.pending := rfl

/-! ### stageHigh -/

@[simp] theorem State.stageHigh_config (p : Path) (a : RegAddr) (v : Word) : (s.stageHigh p a v).config = s.config := rfl
@[simp] theorem State.stageHigh_regs (p : Path) (a : RegAddr) (v : Word) : (s.stageHigh p a v).regs = s.regs := rfl
@[simp] theorem State.stageHigh_arbLive (p : Path) (a : RegAddr) (v : Word) : (s.stageHigh p a v).arbLive = s.arbLive := rfl
@[simp] theorem State.stageHigh_latch (p : Path) (a : RegAddr) (v : Word) : (s.stageHigh p a v).latch = s.latch := rfl
@[simp] theorem State.stageHigh_mesh (p : Path) (a : RegAddr) (v : Word) : (s.stageHigh p a v).mesh = s.mesh := rfl
@[simp] theorem State.stageHigh_sketch (p : Path) (a : RegAddr) (v : Word) : (s.stageHigh p a v).sketch = s.sketch := rfl
@[simp] theorem State.stageHigh_time (p : Path) (a : RegAddr) (v : Word) : (s.stageHigh p a v).time = s.time := rfl
@[simp] theorem State.stageHigh_flt (p : Path) (a : RegAddr) (v : Word) : (s.stageHigh p a v).flt = s.flt := rfl
@[simp] theorem State.stageHigh_trays (p : Path) (a : RegAddr) (v : Word) : (s.stageHigh p a v).trays = s.trays := rfl
@[simp] theorem State.stageHigh_eng (p : Path) (a : RegAddr) (v : Word) : (s.stageHigh p a v).eng = s.eng := rfl
@[simp] theorem State.stageHigh_msgs (p : Path) (a : RegAddr) (v : Word) : (s.stageHigh p a v).msgs = s.msgs := rfl
@[simp] theorem State.stageHigh_mem (p : Path) (a : RegAddr) (v : Word) : (s.stageHigh p a v).mem = s.mem := rfl
@[simp] theorem State.stageHigh_spine (p : Path) (a : RegAddr) (v : Word) : (s.stageHigh p a v).spine = s.spine := rfl
@[simp] theorem State.stageHigh_power (p : Path) (a : RegAddr) (v : Word) : (s.stageHigh p a v).power = s.power := rfl
@[simp] theorem State.stageHigh_trace (p : Path) (a : RegAddr) (v : Word) : (s.stageHigh p a v).trace = s.trace := rfl
@[simp] theorem State.stageHigh_act (p : Path) (a : RegAddr) (v : Word) : (s.stageHigh p a v).act = s.act := rfl
@[simp] theorem State.stageHigh_cmap (p : Path) (a : RegAddr) (v : Word) : (s.stageHigh p a v).cmap = s.cmap := rfl
@[simp] theorem State.stageHigh_core (p : Path) (a : RegAddr) (v : Word) : (s.stageHigh p a v).core = s.core := rfl
@[simp] theorem State.stageHigh_tap (p : Path) (a : RegAddr) (v : Word) : (s.stageHigh p a v).tap = s.tap := rfl
@[simp] theorem State.stageHigh_load (p : Path) (a : RegAddr) (v : Word) : (s.stageHigh p a v).load = s.load := rfl
@[simp] theorem State.stageHigh_release (p : Path) (a : RegAddr) (v : Word) : (s.stageHigh p a v).release = s.release := rfl
@[simp] theorem State.stageHigh_easel (p : Path) (a : RegAddr) (v : Word) : (s.stageHigh p a v).easel = s.easel := rfl
@[simp] theorem State.stageHigh_redSlots (p : Path) (a : RegAddr) (v : Word) : (s.stageHigh p a v).redSlots = s.redSlots := rfl
@[simp] theorem State.stageHigh_msgWait (p : Path) (a : RegAddr) (v : Word) : (s.stageHigh p a v).msgWait = s.msgWait := rfl
@[simp] theorem State.stageHigh_hostReqs (p : Path) (a : RegAddr) (v : Word) : (s.stageHigh p a v).hostReqs = s.hostReqs := rfl
@[simp] theorem State.stageHigh_lastRsp (p : Path) (a : RegAddr) (v : Word) : (s.stageHigh p a v).lastRsp = s.lastRsp := rfl
@[simp] theorem State.stageHigh_frozen (p : Path) (a : RegAddr) (v : Word) : (s.stageHigh p a v).frozen = s.frozen := rfl
@[simp] theorem State.stageHigh_ticks (p : Path) (a : RegAddr) (v : Word) : (s.stageHigh p a v).ticks = s.ticks := rfl
@[simp] theorem State.stageHigh_fresh (p : Path) (a : RegAddr) (v : Word) : (s.stageHigh p a v).fresh = s.fresh := rfl
@[simp] theorem State.stageHigh_pending (p : Path) (a : RegAddr) (v : Word) : (s.stageHigh p a v).pending = s.pending := rfl

/-! ### latchHigh -/

@[simp] theorem State.latchHigh_config (p : Path) (a : RegAddr) (v : Word) : (s.latchHigh p a v).config = s.config := rfl
@[simp] theorem State.latchHigh_regs (p : Path) (a : RegAddr) (v : Word) : (s.latchHigh p a v).regs = s.regs := rfl
@[simp] theorem State.latchHigh_arbLive (p : Path) (a : RegAddr) (v : Word) : (s.latchHigh p a v).arbLive = s.arbLive := rfl
@[simp] theorem State.latchHigh_stage (p : Path) (a : RegAddr) (v : Word) : (s.latchHigh p a v).stage = s.stage := rfl
@[simp] theorem State.latchHigh_mesh (p : Path) (a : RegAddr) (v : Word) : (s.latchHigh p a v).mesh = s.mesh := rfl
@[simp] theorem State.latchHigh_sketch (p : Path) (a : RegAddr) (v : Word) : (s.latchHigh p a v).sketch = s.sketch := rfl
@[simp] theorem State.latchHigh_time (p : Path) (a : RegAddr) (v : Word) : (s.latchHigh p a v).time = s.time := rfl
@[simp] theorem State.latchHigh_flt (p : Path) (a : RegAddr) (v : Word) : (s.latchHigh p a v).flt = s.flt := rfl
@[simp] theorem State.latchHigh_trays (p : Path) (a : RegAddr) (v : Word) : (s.latchHigh p a v).trays = s.trays := rfl
@[simp] theorem State.latchHigh_eng (p : Path) (a : RegAddr) (v : Word) : (s.latchHigh p a v).eng = s.eng := rfl
@[simp] theorem State.latchHigh_msgs (p : Path) (a : RegAddr) (v : Word) : (s.latchHigh p a v).msgs = s.msgs := rfl
@[simp] theorem State.latchHigh_mem (p : Path) (a : RegAddr) (v : Word) : (s.latchHigh p a v).mem = s.mem := rfl
@[simp] theorem State.latchHigh_spine (p : Path) (a : RegAddr) (v : Word) : (s.latchHigh p a v).spine = s.spine := rfl
@[simp] theorem State.latchHigh_power (p : Path) (a : RegAddr) (v : Word) : (s.latchHigh p a v).power = s.power := rfl
@[simp] theorem State.latchHigh_trace (p : Path) (a : RegAddr) (v : Word) : (s.latchHigh p a v).trace = s.trace := rfl
@[simp] theorem State.latchHigh_act (p : Path) (a : RegAddr) (v : Word) : (s.latchHigh p a v).act = s.act := rfl
@[simp] theorem State.latchHigh_cmap (p : Path) (a : RegAddr) (v : Word) : (s.latchHigh p a v).cmap = s.cmap := rfl
@[simp] theorem State.latchHigh_core (p : Path) (a : RegAddr) (v : Word) : (s.latchHigh p a v).core = s.core := rfl
@[simp] theorem State.latchHigh_tap (p : Path) (a : RegAddr) (v : Word) : (s.latchHigh p a v).tap = s.tap := rfl
@[simp] theorem State.latchHigh_load (p : Path) (a : RegAddr) (v : Word) : (s.latchHigh p a v).load = s.load := rfl
@[simp] theorem State.latchHigh_release (p : Path) (a : RegAddr) (v : Word) : (s.latchHigh p a v).release = s.release := rfl
@[simp] theorem State.latchHigh_easel (p : Path) (a : RegAddr) (v : Word) : (s.latchHigh p a v).easel = s.easel := rfl
@[simp] theorem State.latchHigh_redSlots (p : Path) (a : RegAddr) (v : Word) : (s.latchHigh p a v).redSlots = s.redSlots := rfl
@[simp] theorem State.latchHigh_msgWait (p : Path) (a : RegAddr) (v : Word) : (s.latchHigh p a v).msgWait = s.msgWait := rfl
@[simp] theorem State.latchHigh_hostReqs (p : Path) (a : RegAddr) (v : Word) : (s.latchHigh p a v).hostReqs = s.hostReqs := rfl
@[simp] theorem State.latchHigh_lastRsp (p : Path) (a : RegAddr) (v : Word) : (s.latchHigh p a v).lastRsp = s.lastRsp := rfl
@[simp] theorem State.latchHigh_frozen (p : Path) (a : RegAddr) (v : Word) : (s.latchHigh p a v).frozen = s.frozen := rfl
@[simp] theorem State.latchHigh_ticks (p : Path) (a : RegAddr) (v : Word) : (s.latchHigh p a v).ticks = s.ticks := rfl
@[simp] theorem State.latchHigh_fresh (p : Path) (a : RegAddr) (v : Word) : (s.latchHigh p a v).fresh = s.fresh := rfl
@[simp] theorem State.latchHigh_pending (p : Path) (a : RegAddr) (v : Word) : (s.latchHigh p a v).pending = s.pending := rfl

end Sys2Proof.Machine
end

