-- ==== Sys2Proof/Laws/Store.lean ====
section
/-! SUPPORT. The laws of sparse stores: a read after a write, a read elsewhere, and that every operation keeps the
canonical form. -/
namespace Sys2Proof.Machine.Store
variable {α : Type}

@[simp] theorem find?_nil (k : Nat) : find? ([] : Store α) k = none := rfl
@[simp] theorem get_nil (d : α) (k : Nat) : get ([] : Store α) d k = d := rfl

theorem find?_put_same (m : Store α) (k : Nat) (v : α) : find? (put m k v) k = some v := by
  induction m with
  | nil => simp [put, find?]
  | cons x m ih =>
    obtain ⟨k', v'⟩ := x
    simp only [put]
    split
    · simp [find?]
    · split
      · simp [find?]
      · simp only [find?]
        split
        · omega
        · exact ih

theorem find?_put_other (m : Store α) (k j : Nat) (v : α) (h : j ≠ k) : find? (put m k v) j = find? m j := by
  induction m with
  | nil => simp [put, find?, Ne.symm h]
  | cons x m ih =>
    obtain ⟨k', v'⟩ := x
    simp only [put]
    split
    · simp [find?, Ne.symm h]
    · split
      · next hk => subst hk; simp [find?, Ne.symm h]
      · simp only [find?]; split <;> simp_all

theorem find?_del_same (m : Store α) (k : Nat) : find? (del m k) k = none := by
  induction m with
  | nil => rfl
  | cons x m ih =>
    obtain ⟨k', v'⟩ := x
    simp only [del]
    split
    · exact ih
    · simp only [find?]; split <;> simp_all

theorem find?_del_other (m : Store α) (k j : Nat) (h : j ≠ k) : find? (del m k) j = find? m j := by
  induction m with
  | nil => rfl
  | cons x m ih =>
    obtain ⟨k', v'⟩ := x
    simp only [del]
    split
    · next hk => subst hk; simp [find?, Ne.symm h, ih]
    · simp only [find?]; split <;> simp_all

/-- A read after a write to the same key gives the value written. -/
@[simp] theorem get_set_same [DecidableEq α] (m : Store α) (d v : α) (k : Nat) : get (set m d k v) d k = v := by
  unfold set
  split
  · next h => simp [get, find?_del_same, h]
  · simp [get, find?_put_same]

/-- A write leaves every other key alone. -/
theorem get_set_other [DecidableEq α] (m : Store α) (d e v : α) (k j : Nat) (h : j ≠ k) :
    get (set m d k v) e j = get m e j := by
  unfold set
  split
  · simp [get, find?_del_other m k j h]
  · simp [get, find?_put_other m k j v h]

/-- Every key of a put is the new key or an old one. -/
theorem all_put (m : Store α) (k : Nat) (v : α) (p : Nat × α → Bool) (hk : p (k, v) = true) (hm : m.all p = true) :
    (put m k v).all p = true := by
  induction m with
  | nil => simp [put, hk]
  | cons x m ih =>
    obtain ⟨k', v'⟩ := x
    simp only [List.all_cons, Bool.and_eq_true] at hm
    simp only [put]
    split
    · simp [hk, hm.1, hm.2]
    · split
      · simp [hk, hm.2]
      · simp [hm.1, ih hm.2]

theorem all_del (m : Store α) (k : Nat) (p : Nat × α → Bool) (hm : m.all p = true) : (del m k).all p = true := by
  induction m with
  | nil => rfl
  | cons x m ih =>
    obtain ⟨k', v'⟩ := x
    simp only [List.all_cons, Bool.and_eq_true] at hm
    simp only [del]
    split
    · exact ih hm.2
    · simp [hm.1, ih hm.2]

/-- `put` of a value other than its key's default keeps the canonical form. -/
theorem wf_put [DecidableEq α] (d : Nat → α) (m : Store α) (k : Nat) (v : α) (hv : v ≠ d k) (h : wf d m = true) :
    wf d (put m k v) = true := by
  induction m with
  | nil => simp [put, wf, hv]
  | cons x m ih =>
    obtain ⟨k', v'⟩ := x
    simp only [wf, Bool.and_eq_true, decide_eq_true_eq] at h
    obtain ⟨⟨hd, hall⟩, hw⟩ := h
    simp only [put]
    split
    · next hlt =>
      simp only [wf, Bool.and_eq_true, decide_eq_true_eq, List.all_cons]
      refine ⟨⟨hv, hlt, ?_⟩, ⟨hd, hall⟩, hw⟩
      rw [List.all_eq_true] at hall ⊢
      intro y hy
      have := hall y hy
      simp only [decide_eq_true_eq] at this ⊢
      omega
    · split
      · next hk =>
        subst hk
        simp only [wf, Bool.and_eq_true, decide_eq_true_eq]
        exact ⟨⟨hv, hall⟩, hw⟩
      · simp only [wf, Bool.and_eq_true, decide_eq_true_eq]
        exact ⟨⟨hd, all_put m k v _ (by simp; omega) hall⟩, ih hw⟩

/-- `del` keeps the canonical form. -/
theorem wf_del [DecidableEq α] (d : Nat → α) (m : Store α) (k : Nat) (h : wf d m = true) : wf d (del m k) = true := by
  induction m with
  | nil => rfl
  | cons x m ih =>
    obtain ⟨k', v'⟩ := x
    simp only [wf, Bool.and_eq_true, decide_eq_true_eq] at h
    obtain ⟨⟨hd, hall⟩, hw⟩ := h
    simp only [del]
    split
    · exact ih hw
    · simp only [wf, Bool.and_eq_true, decide_eq_true_eq]
      exact ⟨⟨hd, all_del m k _ hall⟩, ih hw⟩

/-- A write keeps the canonical form. -/
theorem wf_set [DecidableEq α] (d : Nat → α) (m : Store α) (k : Nat) (v : α) (h : wf d m = true) :
    wf d (set m (d k) k v) = true := by
  unfold set
  split
  · exact wf_del d m k h
  · next hv => exact wf_put d m k v hv h

end Sys2Proof.Machine.Store
end

