-- ==== Sys2Proof/Laws/Regs.lean ====
section
/-! SUPPORT. The register file and the access rules: what a write leaves in its register and in every other, and the
cases of a guarded access. -/
namespace Sys2Proof.Machine
variable (s : State)

/-! ### The register file -/

@[simp] theorem State.setReg_reg_same (a : RegAddr) (v : Word) : (s.setReg a v).reg a = v := by
  simp [State.setReg, State.reg]

theorem State.setReg_reg_other (a b : RegAddr) (v : Word) (h : b.key ≠ a.key) : (s.setReg a v).reg b = s.reg b := by
  simp only [State.setReg, State.reg]
  exact Store.get_set_other _ _ _ _ _ _ h

theorem State.setReg_reg (a b : RegAddr) (v : Word) (h : b.key = a.key → b = a) :
    (s.setReg a v).reg b = if b = a then v else s.reg b := by
  by_cases e : b = a
  · subst e; simp
  · simp only [e, if_false]
    exact s.setReg_reg_other a b v fun k => e (h k)

@[simp] theorem State.setDie_die_same (off : Nat) (v : Word) : (s.setDie off v).die off = v := by
  simp [State.setDie, State.die]

theorem State.setDie_die_other (off o : Nat) (v : Word) (h : o ≠ off) : (s.setDie off v).die o = s.die o :=
  s.setReg_reg_other _ _ _ fun e => h (Nat.add_left_cancel (n := 3 * 2 ^ 26 + 0 * 2 ^ 16) e)

@[simp] theorem State.setDieF_die_same (off hi lo v : Nat) :
    (s.setDieF off hi lo v).die off = setFld (s.die off) hi lo v := by simp [State.setDieF]

theorem State.setDieF_die_other (off hi lo v o : Nat) (h : o ≠ off) : (s.setDieF off hi lo v).die o = s.die o :=
  s.setDie_die_other _ _ _ h

@[simp] theorem State.setRegF_reg_same (a : RegAddr) (hi lo v : Nat) :
    (s.setRegF a hi lo v).reg a = setFld (s.reg a) hi lo v := by simp [State.setRegF]

theorem State.setRegF_reg_other (a b : RegAddr) (hi lo v : Nat) (h : b.key ≠ a.key) :
    (s.setRegF a hi lo v).reg b = s.reg b := s.setReg_reg_other _ _ _ h

@[simp] theorem State.count_reg_same (a : RegAddr) (n : Nat) : (s.count a n).reg a = satAdd (s.reg a) n := by
  simp [State.count]

theorem State.count_reg_other (a b : RegAddr) (n : Nat) (h : b.key ≠ a.key) : (s.count a n).reg b = s.reg b :=
  s.setReg_reg_other _ _ _ h

/-- Registers are read out of the register file alone. -/
theorem State.reg_congr {s t : State} (h : t.regs = s.regs) (a : RegAddr) : t.reg a = s.reg a := by
  simp [State.reg, h]

theorem State.die_congr {s t : State} (h : t.regs = s.regs) (off : Nat) : t.die off = s.die off :=
  State.reg_congr h _

@[simp] theorem State.raise_reg (src pos : Nat) (b : BlockKind) (unit ctx x y : Nat) (a : RegAddr) :
    (s.raise src pos b unit ctx x y).reg a = s.reg a := rfl

@[simp] theorem State.draw_reg (a : RegAddr) : s.draw.reg a = s.reg a := rfl

/-- After reset every register holds its reset value. -/
@[simp] theorem State.reset_reg (a : RegAddr) : State.reset.reg a = resetOf a := rfl

/-! ### Conditions -/

@[simp] theorem State.when_true (f : State → State) : s.when true f = f s := rfl
@[simp] theorem State.when_false (f : State → State) : s.when false f = s := rfl
theorem State.when_of (c : Bool) (f : State → State) (h : c = true) : s.when c f = f s := by simp [h]
theorem State.when_not (c : Bool) (f : State → State) (h : c = false) : s.when c f = s := by simp [h]

/-! ### Responses -/

/-- A response changes the requests of the host ports and the last responses alone. -/
theorem State.respond_frame (acc : Access) (a : RegAddr) (w : Bool) (data : Word) (st : Nat) :
    ∃ hs l, s.respond acc a w data st = { s with hostReqs := hs, lastRsp := l } := by
  unfold State.respond
  split
  · exact ⟨_, s.lastRsp, rfl⟩
  · exact ⟨s.hostReqs, _, rfl⟩

@[simp] theorem State.respond_regs (acc : Access) (a : RegAddr) (w : Bool) (data : Word) (st : Nat) :
    (s.respond acc a w data st).regs = s.regs := by
  unfold State.respond; split <;> rfl

@[simp] theorem State.respond_reg (acc : Access) (a : RegAddr) (w : Bool) (data : Word) (st : Nat) (b : RegAddr) :
    (s.respond acc a w data st).reg b = s.reg b := State.reg_congr (s.respond_regs acc a w data st) b

@[simp] theorem State.respond_die (acc : Access) (a : RegAddr) (w : Bool) (data : Word) (st : Nat) (off : Nat) :
    (s.respond acc a w data st).die off = s.die off := s.respond_reg acc a w data st _

/-! ### Guarded accesses -/

/-- A write that its port takes and every check passes has its effect, then its response. -/
theorem guardedWrite_ok (acc : Access) (a : RegAddr) (f : State → State) (hi : s.canIssue acc = true)
    (hv : s.verdict acc a true = .ok) : guardedWrite acc a f s = (f s).respond acc a true 0 0 := by
  simp [guardedWrite, hi, hv, Verdict.status]

/-- A write that a check stops leaves its record and its status alone. -/
theorem guardedWrite_refused (acc : Access) (a : RegAddr) (f : State → State) (hi : s.canIssue acc = true)
    (hv : s.verdict acc a true ≠ .ok) :
    guardedWrite acc a f s =
      (s.refuse acc a (s.verdict acc a true)).respond acc a true 0 (s.verdict acc a true).status := by
  simp [guardedWrite, hi, hv]

/-- A write that finds no free slot at its port changes nothing yet. -/
theorem guardedWrite_waits (acc : Access) (a : RegAddr) (f : State → State) (hi : s.canIssue acc = false) :
    guardedWrite acc a f s = s := by
  simp [guardedWrite, hi]

/-- A read that its port takes and every check passes. -/
theorem guardedRead_ok (acc : Access) (a : RegAddr) (f : State → Word × State) (hi : s.canIssue acc = true)
    (hv : s.verdict acc a false = .ok) : guardedRead acc a f s = (f s).2.respond acc a false (f s).1 0 := by
  simp [guardedRead, hi, hv]

/-- The record of a refused access leaves every register and tray as it was. -/
theorem State.refuse_regs (acc : Access) (a : RegAddr) (v : Verdict) : (s.refuse acc a v).regs = s.regs := by
  unfold State.refuse; split <;> rfl

theorem State.refuse_trays (acc : Access) (a : RegAddr) (v : Verdict) : (s.refuse acc a v).trays = s.trays := by
  unfold State.refuse; split <;> rfl

/-- A plain write changes the register file alone. -/
theorem State.plainWrite_frame (a : RegAddr) (data : Word) :
    s.plainWrite a data = { s with regs := (s.plainWrite a data).regs } := by
  unfold State.plainWrite; split <;> rfl

theorem State.plainWrite_reg_other (a b : RegAddr) (data : Word) (h : b.key ≠ a.key) :
    (s.plainWrite a data).reg b = s.reg b := by
  unfold State.plainWrite; split
  · exact s.setReg_reg_other _ _ _ h
  · rfl

theorem State.plainWrite_reg_same (a : RegAddr) (data : Word) (r : RegSpec) (h : specOf a = some r) :
    (s.plainWrite a data).reg a = maskedValue r (s.reg a) data := by
  simp [State.plainWrite, h]

end Sys2Proof.Machine
end

