-- ==== Sys2Proof/Laws/Trace.lean ====
section
/-! SUPPORT. The trace unit: an event, a capture and a trigger touch the trace unit alone. -/
namespace Sys2Proof.Machine
variable {s t u : State}

theorem TraceOnly.refl (s : State) : TraceOnly s s := ⟨rfl, fun _ _ => rfl⟩

theorem TraceOnly.trans (h : TraceOnly s t) (k : TraceOnly t u) : TraceOnly s u := by
  refine ⟨?_, fun a ha => (k.2 a ha).trans (h.2 a ha)⟩
  have hk := k.1
  rw [h.1] at hk
  exact hk

theorem TraceOnly.reg (h : TraceOnly s t) (a : RegAddr) (h1 : a.key ≠ (dieA Reg.TRACE_STAT).key)
    (h2 : a.key ≠ (dieA Reg.TRACE_LOST_CNT).key) : t.reg a = s.reg a :=
  h.2 a (by intro b hb; simp only [List.mem_cons, List.not_mem_nil, or_false] at hb; rcases hb with rfl | rfl <;> assumption)

theorem TraceOnly.die (h : TraceOnly s t) (off : Nat) (h1 : off ≠ Reg.TRACE_STAT) (h2 : off ≠ Reg.TRACE_LOST_CNT) :
    t.die off = s.die off :=
  h.reg _ (fun e => h1 (Nat.add_left_cancel (n := 3 * 2 ^ 26 + 0 * 2 ^ 16) e))
    (fun e => h2 (Nat.add_left_cancel (n := 3 * 2 ^ 26 + 0 * 2 ^ 16) e))

/-- A change of the trace unit's own state. -/
theorem TraceOnly.unit (s : State) (x : Trace) : TraceOnly s { s with trace := x } := ⟨rfl, fun _ _ => rfl⟩

theorem TraceOnly.drawn (s : State) : TraceOnly s s.draw := ⟨rfl, fun _ _ => rfl⟩

theorem TraceOnly.stat (s : State) (hi lo v : Nat) : TraceOnly s (s.setDieF Reg.TRACE_STAT hi lo v) :=
  ⟨rfl, fun a ha => s.setReg_reg_other _ _ _ (ha _ (by simp))⟩

theorem TraceOnly.lost (s : State) (n : Nat) : TraceOnly s (s.count (dieA Reg.TRACE_LOST_CNT) n) :=
  ⟨rfl, fun a ha => s.setReg_reg_other _ _ _ (ha _ (by simp))⟩

theorem TraceOnly.ite (c : Prop) [Decidable c] (h : TraceOnly s t) (k : TraceOnly s u) :
    TraceOnly s (if c then t else u) := by split <;> assumption

theorem TraceOnly.foldl {α : Type} (f : State → α → State) (hf : ∀ t x, TraceOnly t (f t x)) (l : List α) (s : State) :
    TraceOnly s (l.foldl f s) := by
  induction l generalizing s with
  | nil => exact .refl s
  | cons x l ih => exact (hf s x).trans (ih _)

theorem State.traceLose_only (s : State) (c : Nat) (x : BitVec 128) : TraceOnly s (s.traceLose c x) :=
  (TraceOnly.lost s 1).trans (.unit _ _)

theorem State.takeCrumb_only (s : State) (c : Nat) : TraceOnly s (s.takeCrumb c).2 := by
  unfold State.takeCrumb
  split
  · exact .unit _ _
  · exact .refl s

theorem State.toWindow_only (s : State) (us : List (BitVec 128)) : TraceOnly s (s.toWindow us) := by
  unfold State.toWindow
  dsimp only
  split
  · exact s.traceLose_only _ _
  · exact (s.takeCrumb_only 2).trans ((TraceOnly.unit _ _).trans (.stat _ _ _ _))

theorem TraceOnly.whenStat (s : State) (c : Bool) (hi lo v : Nat) :
    TraceOnly s (s.when c fun t => t.setDieF Reg.TRACE_STAT hi lo v) := by
  cases c
  · exact .refl s
  · exact .stat s _ _ _

theorem State.mainPut_only (s : State) (us : List (BitVec 128)) : TraceOnly s (s.mainPut us) := by
  unfold State.mainPut
  dsimp only
  exact (TraceOnly.unit s _).trans (.whenStat _ _ _ _ _)

theorem State.traceDone_only (s : State) : TraceOnly s s.traceDone := (TraceOnly.stat s 30 30 1).trans (.unit _ _)

theorem State.toMain_only (s : State) (us : List (BitVec 128)) : TraceOnly s (s.toMain us) := by
  unfold State.toMain
  dsimp only
  split
  · refine TraceOnly.trans ?_ (State.traceDone_only _)
    exact .ite _ (s.traceLose_only _ _) (.refl s)
  · exact .ite _ ((s.mainPut_only us).trans (State.traceDone_only _)) (s.mainPut_only us)

/-- Records put into the stream, one after another. -/
theorem TraceOnly.puts (s : State) (f : State → List (BitVec 128) → Trace) (l : List (List (BitVec 128))) :
    TraceOnly s (l.foldl (fun t us => { t.mainPut us with trace := f t us }) s) :=
  TraceOnly.foldl _ (fun t us => (t.mainPut_only us).trans (.unit _ (f t us))) l s

theorem State.toStream_only (s : State) (us : List (BitVec 128)) : TraceOnly s (s.toStream us) := by
  unfold State.toStream
  dsimp only
  refine .ite _ (s.traceLose_only _ _) ((s.takeCrumb_only 3).trans ?_)
  exact .ite _ (.puts _ _ _) ((TraceOnly.puts _ _ _).trans (.drawn _))

theorem State.traceCapture_only (s : State) (src : Nat) (us : List (BitVec 128)) : TraceOnly s (s.traceCapture src us) := by
  unfold State.traceCapture
  dsimp only
  split
  · exact .refl s
  · split
    · exact .unit _ _
    · exact (TraceOnly.lost s 1).trans (.unit _ _)

/-- The trigger's own record. -/
theorem State.trigUnit_only (h : TraceOnly s t) (x : BitVec 128) :
    TraceOnly s ((if t.traceMode = 2 then t.toStream [x] else t.toMain [x]).draw) :=
  h.trans (TraceOnly.trans (.ite _ (t.toStream_only _) (t.toMain_only _)) (.drawn _))

theorem State.traceFire_only (s : State) (k : Nat) : TraceOnly s (s.traceFire k) := by
  unfold State.traceFire
  refine .ite _ ?_ (.refl s)
  refine State.trigUnit_only ?_ _
  refine TraceOnly.trans ?_ (.stat _ 25 14 _)
  refine TraceOnly.trans ?_ (.unit _ _)
  exact (TraceOnly.stat s 31 31 1).trans (.stat _ 28 26 k)

theorem State.traceFireIf_only (s : State) (p : Nat → Bool) : TraceOnly s (s.traceFireIf p) :=
  TraceOnly.foldl _ (fun t k => .ite _ (t.traceFire_only k) (.refl t)) _ s

/-- An event touches the trace unit alone. -/
theorem State.traceEvent_only (s : State) (code arg : Nat) : TraceOnly s (s.traceEvent code arg) := by
  unfold State.traceEvent
  dsimp only
  exact .ite _ ((s.traceCapture_only _ _).trans ((TraceOnly.drawn _).trans (State.traceFireIf_only _ _))) (.refl s)

end Sys2Proof.Machine
end

