-- ==== Sys2Proof/Laws/Trays.lean ====
section
/-! SUPPORT. The trays: what a write of a byte or a word leaves, and that every operation on the trays keeps their
canonical form. -/
namespace Sys2Proof.Machine
variable (s : State)

theorem Memory.wf_iff (t : Trays) :
    Memory.wf t = true ↔ Store.wf (fun _ => 0) t.mem = true ∧ Store.wf (fun _ => 0) t.bad = true := by
  simp [Memory.wf]

/-- Unlisting by a test keeps a property of every entry. -/
theorem Store.all_keep {α : Type} (m : Store α) (f : Nat → Bool) (p : Nat × α → Bool) (h : m.all p = true) :
    (m.keep f).all p = true := by
  simp only [Store.keep, List.all_eq_true, List.mem_filter] at *
  exact fun x hx => h x hx.1

theorem Store.wf_keep {α : Type} [DecidableEq α] (d : Nat → α) (m : Store α) (f : Nat → Bool)
    (h : Store.wf d m = true) : Store.wf d (m.keep f) = true := by
  induction m with
  | nil => rfl
  | cons kv m ih =>
    obtain ⟨k, v⟩ := kv
    simp only [Store.wf, Bool.and_eq_true] at h
    have hm := ih h.2
    have ha := Store.all_keep m f _ h.1.2
    by_cases hk : f k = true
    · simp only [Store.keep, List.filter_cons, hk, if_true, Store.wf, Bool.and_eq_true]
      exact ⟨⟨h.1.1, ha⟩, hm⟩
    · simp only [Store.keep, List.filter_cons, hk]
      exact hm

/-! ### Bytes -/

theorem State.trayByte_congr {s t : State} (h : t.trays.mem = s.trays.mem) (pos off : Nat) :
    t.trayByte pos off = s.trayByte pos off := by simp [State.trayByte, h]

@[simp] theorem State.setByte_same (pos off : Nat) (b : Byte) : (s.setByte pos off b).trayByte pos off = b := by
  simp [State.setByte, State.trayByte]

theorem State.setByte_other (pos off p o : Nat) (b : Byte) (h : byteKey p o ≠ byteKey pos off) :
    (s.setByte pos off b).trayByte p o = s.trayByte p o := by
  simp only [State.setByte, State.trayByte]
  exact Store.get_set_other _ _ _ _ _ _ h

@[simp] theorem State.setByte_bad (pos off : Nat) (b : Byte) : (s.setByte pos off b).trays.bad = s.trays.bad := rfl

theorem State.setByte_wf (pos off : Nat) (b : Byte) (h : Memory.wf s.trays = true) :
    Memory.wf (s.setByte pos off b).trays = true := by
  rw [Memory.wf_iff] at *
  exact ⟨Store.wf_set _ _ _ _ h.1, h.2⟩

theorem State.setBytes_wf (pos off : Nat) (bs : List Byte) (s : State) (h : Memory.wf s.trays = true) :
    Memory.wf (s.setBytes pos off bs).trays = true := by
  induction bs generalizing s off with
  | nil => exact h
  | cons b bs ih => exact ih (off + 1) _ (s.setByte_wf pos off b h)

/-- Marking a codeword clean keeps the canonical form. -/
theorem Memory.wf_clean (t : Trays) (k : Nat) (h : Memory.wf t = true) :
    Memory.wf { t with bad := t.bad.set 0 k 0 } = true := by
  rw [Memory.wf_iff] at *
  exact ⟨h.1, Store.wf_set (fun _ => 0) t.bad k 0 h.2⟩

theorem State.putWord_wf (pos k : Nat) (w : DataWord) (h : Memory.wf s.trays = true) :
    Memory.wf (s.putWord pos k w).trays = true :=
  Memory.wf_clean _ _ (State.setBytes_wf pos (32 * k) (wordBytes w) s h)

/-- Writing bytes changes the trays' bytes alone. -/
theorem State.setBytes_frame (pos off : Nat) (bs : List Byte) (s : State) :
    s.setBytes pos off bs = { s with trays := { s.trays with mem := (s.setBytes pos off bs).trays.mem } } := by
  induction bs generalizing s off with
  | nil => rfl
  | cons b bs ih =>
    have h := ih (off + 1) (s.setByte pos off b)
    simp only [State.setBytes]
    rw [h]; rfl

/-- Writing a word changes the trays' bytes and error patterns alone. -/
theorem State.putWord_frame (pos k : Nat) (w : DataWord) :
    s.putWord pos k w = { s with trays := { s.trays with
      mem := (s.putWord pos k w).trays.mem, bad := (s.putWord pos k w).trays.bad } } := by
  unfold State.putWord
  rw [State.setBytes_frame]

theorem State.putWord_regs (pos k : Nat) (w : DataWord) : (s.putWord pos k w).regs = s.regs := by
  rw [State.putWord_frame]

/-- Bytes below a run that is written stay. -/
theorem State.setBytes_below (pos off p o : Nat) (bs : List Byte) (s : State)
    (h : byteKey p o < byteKey pos off) : (s.setBytes pos off bs).trayByte p o = s.trayByte p o := by
  induction bs generalizing s off with
  | nil => rfl
  | cons b bs ih =>
    have hk : byteKey pos (off + 1) = byteKey pos off + 1 := rfl
    rw [State.setBytes, ih (off + 1) _ (by omega), State.setByte_other _ _ _ _ _ _ (by omega)]

/-- Bytes above a run that is written stay. -/
theorem State.setBytes_above (pos off p o : Nat) (bs : List Byte) (s : State)
    (h : byteKey pos off + bs.length ≤ byteKey p o) : (s.setBytes pos off bs).trayByte p o = s.trayByte p o := by
  induction bs generalizing s off with
  | nil => rfl
  | cons b bs ih =>
    have hk : byteKey pos (off + 1) = byteKey pos off + 1 := rfl
    simp only [List.length_cons] at h
    rw [State.setBytes, ih (off + 1) _ (by omega), State.setByte_other _ _ _ _ _ _ (by omega)]

/-- Each byte of a run reads as written. -/
theorem State.setBytes_inside (pos off i : Nat) (bs : List Byte) (s : State) (h : i < bs.length) :
    (s.setBytes pos off bs).trayByte pos (off + i) = bs[i] := by
  induction bs generalizing s off i with
  | nil => simp at h
  | cons b bs ih =>
    cases i with
    | zero =>
      rw [State.setBytes, State.setBytes_below _ _ _ _ _ _ (by simp [byteKey])]
      simp
    | succ j =>
      have hj : j < bs.length := by simpa using h
      have := ih (off + 1) j (s.setByte pos off b) hj
      rw [State.setBytes]
      simpa [Nat.add_assoc, Nat.add_comm 1 j] using this

/-! ### Banks -/

theorem State.clearBank_wf (pos b : Nat) (h : Memory.wf s.trays = true) :
    Memory.wf (s.clearBank pos b).trays = true := by
  rw [Memory.wf_iff] at *
  have hm := Store.wf_keep _ s.trays.mem (fun key => !(key / 2 ^ 20 == pos && key / 32 % 16 == b)) h.1
  have hb := Store.wf_keep _ s.trays.bad (fun key => !(key / 2 ^ 15 == pos && key % 16 == b)) h.2
  exact ⟨hm, hb⟩

theorem State.zeroTrays_wf : Memory.wf s.zeroTrays.trays = true := rfl

theorem State.soakFinish_wf : Memory.wf s.soakFinish.trays = true := rfl

theorem State.when_trays (c : Bool) (f : State → State) (h : ∀ t, (f t).trays = t.trays) :
    (s.when c f).trays = s.trays := by
  cases c
  · rfl
  · exact h s

theorem State.foldl_trays {α : Type} (f : State → α → State) (h : ∀ t x, (f t x).trays = t.trays) (l : List α)
    (s : State) : (l.foldl f s).trays = s.trays := by
  induction l generalizing s with
  | nil => rfl
  | cons x l ih => rw [List.foldl_cons, ih, h]

theorem State.foldl_wf {α : Type} (f : State → α → State)
    (h : ∀ t x, Memory.wf t.trays = true → Memory.wf (f t x).trays = true) (l : List α) (s : State)
    (hs : Memory.wf s.trays = true) : Memory.wf (l.foldl f s).trays = true := by
  induction l generalizing s with
  | nil => exact hs
  | cons x l ih => exact ih _ (h s x hs)

theorem State.wakeBank_trays (pos b : Nat) : (s.wakeBank pos b).trays = s.trays :=
  s.when_trays _ _ fun _ => rfl

theorem State.setBank_wf (pos b new : Nat) (h : Memory.wf s.trays = true) :
    Memory.wf (s.setBank pos b new).trays = true := by
  unfold State.setBank
  dsimp only
  split
  · exact h
  · split
    · exact h
    · split
      · exact State.clearBank_wf _ _ _ h
      · split <;> exact h

theorem State.bankCtrlWrite_wf (pos : Nat) (data : Word) (h : Memory.wf s.trays = true) :
    Memory.wf (s.bankCtrlWrite pos data).trays = true :=
  State.foldl_wf _ (fun t b ht => t.setBank_wf pos b _ ht) _ s h

/-! ### Swatches and errors touch registers and counts, not the trays -/

theorem State.entryEvent_trays (pos : Nat) : (s.entryEvent pos).trays = s.trays := by
  unfold State.entryEvent
  dsimp only
  split
  · split <;> rfl
  · rfl

theorem State.partEvent_trays (kind part info : Nat) : (s.partEvent kind part info).trays = s.trays := by
  unfold State.partEvent; split <;> rfl

theorem State.trayCe_trays (pos k : Nat) : (s.trayCe pos k).trays = s.trays := by
  unfold State.trayCe
  exact State.entryEvent_trays _ pos

theorem State.trayUe_trays (pos k : Nat) : (s.trayUe pos k).trays = s.trays := by
  unfold State.trayUe
  dsimp only
  rw [State.partEvent_trays]
  simp only [State.raise_trays]
  split <;> rfl

theorem State.swElem_trays (pos u fmt bits : Nat) : (s.swElem pos u fmt bits).trays = s.trays := by
  have h (t : State) (c : Bool) (f : State → State) (hf : ∀ t, (f t).trays = t.trays) (ht : t.trays = s.trays) :
      (t.when c f).trays = s.trays := (t.when_trays c f hf).trans ht
  unfold State.swElem
  extract_lets v first s1 s2 s3 s4 old lower s5 s6 m acc sum abs'
  have e2 : s2.trays = s.trays := h _ _ _ (fun _ => rfl) rfl
  have e3 : s3.trays = s.trays := h _ _ _ (fun _ => rfl) e2
  have e4 : s4.trays = s.trays := h _ _ _ (fun _ => rfl) e3
  have e5 : s5.trays = s.trays := h _ _ _ (fun _ => rfl) e4
  have e6 : s6.trays = s.trays := h _ _ _ (fun _ => rfl) e5
  exact e6

theorem State.swWord_trays (pos u k : Nat) (w : DataWord) : (s.swWord pos u k w).trays = s.trays := by
  unfold State.swWord
  dsimp only
  rw [State.foldl_trays _ fun t x => t.swElem_trays pos u _ x]
  rfl

theorem State.swatchLand_trays (pos k src ctx : Nat) (w : DataWord) : (s.swatchLand pos k src ctx w).trays = s.trays := by
  unfold State.swatchLand
  refine State.foldl_trays _ (fun t u => ?_) _ s
  split
  · exact t.swWord_trays pos u k w
  · rfl

theorem State.swatchLost_trays (pos k src ctx : Nat) : (s.swatchLost pos k src ctx).trays = s.trays := by
  unfold State.swatchLost
  refine State.foldl_trays _ (fun t u => ?_) _ s
  split
  · exact t.setRegF_trays _ _ _ _
  · rfl

/-! ### Words -/

theorem State.readWord_wf (pos k : Nat) (h : Memory.wf s.trays = true) :
    Memory.wf (s.readWord pos k).2.2.trays = true := by
  have hw : Memory.wf (s.wakeBank pos (bankOf k)).trays = true := by rw [State.wakeBank_trays]; exact h
  unfold State.readWord
  dsimp only
  split
  · rw [State.trayUe_trays]; exact hw
  · split
    · exact hw
    · exact State.putWord_wf _ _ _ _ (by rw [State.trayCe_trays]; exact hw)
    · rw [State.trayUe_trays]; exact hw

theorem State.writeWord_wf (pos k src ctx : Nat) (w : DataWord) (h : Memory.wf s.trays = true) :
    Memory.wf (s.writeWord pos k src ctx w).2.trays = true := by
  have hw : Memory.wf (s.wakeBank pos (bankOf k)).trays = true := by rw [State.wakeBank_trays]; exact h
  unfold State.writeWord
  dsimp only
  split
  · rw [State.swatchLost_trays, State.trayUe_trays]; exact hw
  · rw [State.swatchLand_trays]; exact State.putWord_wf _ _ _ _ hw

theorem State.modifyWord_wf (pos k src ctx : Nat) (f : DataWord → DataWord) (h : Memory.wf s.trays = true) :
    Memory.wf (s.modifyWord pos k src ctx f).2.trays = true := by
  have hr := s.readWord_wf pos k h
  unfold State.modifyWord
  dsimp only
  split
  · rw [State.swatchLost_trays]; exact hr
  · rw [State.swatchLand_trays]; exact State.putWord_wf _ _ _ _ hr

theorem State.writeWords_wf (pos k src ctx : Nat) (ws : List DataWord) (s : State) (h : Memory.wf s.trays = true) :
    Memory.wf (s.writeWords pos k src ctx ws).2.trays = true := by
  induction ws generalizing s k with
  | nil => exact h
  | cons w ws ih => exact ih (k + 1) _ (s.writeWord_wf pos k src ctx w h)

theorem State.reset_wf : Memory.wf State.reset.trays = true := rfl

end Sys2Proof.Machine
end

