-- ==== Sys2Proof/WellFormed.lean ====
section
/-! DEFINITION. Well-formed commands: every operand lies in the range that the spec gives it. A meaning is total all the
same: a command whose operand names nothing changes nothing. -/
namespace Sys2Proof

/-- A number below a bound. -/
def under (n x : Nat) : Bool := decide (x < n)
/-- A position: a row and a column of five bits each (R8). -/
def posOk (p : Pos) : Bool := under 1024 p
/-- A property of every member of a list. -/
def allOk {α : Type} (p : α → Bool) (l : List α) : Bool := l.all p
/-- A path: two host ports, at most 16 panel cores and the master core, the ports of 64 groups (R10, R21, R304, R457). -/
def pathOk : Path → Bool
  | .host k => under 2 k
  | .tap => true
  | .easel c => under 17 c
  | .tile p => posOk p
  | .peer p => under 512 p
  | .canvas => true
/-- An access: its path; the easel cores and a partner are Supervisor, the TAP is Debug (R15, R457). -/
def accOk (a : Access) : Bool :=
  pathOk a.path && (match a.path with
    | .tap => a.priv == .debug
    | .easel _ => a.priv == .supervisor
    | .peer _ => a.priv == .supervisor
    | .canvas => a.priv == .supervisor
    | _ => a.priv != .debug)
/-- A packet: at most 256 payload words (R51). -/
def pktOk (p : Pkt) : Bool := under 257 p.payload.length
/-- A sketch flit of a type (R61). -/
def flitIs (n : Nat) (f : SFlit) : Bool := decide (f.stype.toNat = n)
/-- A wash beat: its control word and four payload words (R257). -/
def beatOk (l : List DataWord) : Bool := decide (l.length = 5)
/-- A packet source of a port (R92). -/
def sourceOk : InjectFrom → Bool
  | .queue slot q => under 64 slot && under 4 q
  | .answers => true
/-- A write of the tray processor port carries as many bytes as it names (R190). -/
def lenOk (n : Nat) (l : List Byte) : Bool := decide (l.length = n)
/-- A fault report: its position (R396). -/
def faultOk (m : FaultMsg) : Bool := posOk m.pos

/-- A budget-port report: its position (R379). -/
def reportOk (r : TileReport) : Bool := posOk r.pos

/-- Whether every operand of a command is in its range. -/
def Instr.wf (i : Instr) : Bool :=
  match i with
  | .regWr acc _ _ => accOk acc
  | .regRsp port _ => under 2 port
  | .hostRspTimeout port _ => under 2 port
  | .arbCommit acc pos _ => accOk acc && posOk pos
  | .dieIdWrite acc _ => accOk acc
  | .dieIdApply => true
  | .sketchFlitArrive pos _ _ => posOk pos
  | .aonEdge reports => allOk reportOk reports
  | .easelWdt core => under 17 core
  | .routeLookup pos input vc => posOk pos && under 14 input && under 6 vc
  | .arbitrate pos output => posOk pos && under 14 output
  | .flitCross pos output => posOk pos && under 14 output
  | .routeEntryWrite acc pos bank index _ => accOk acc && posOk pos && under 2 bank && under 1216 index
  | .spraySetWrite acc pos bank n _ => accOk acc && posOk pos && under 2 bank && under 64 n
  | .drainHold acc _ => accOk acc
  | .drainTimeout vc => under 6 vc
  | .routeSwap acc _ => accOk acc
  | .routeBankSwitch => true
  | .routerStarve pos input vc output => posOk pos && under 14 input && under 6 vc && under 14 output
  | .cmapSnapshot => true
  | .cmapRecordCopy panel => under 16 panel
  | .timeBeacon upset => allOk posOk upset
  | .timerefEdge => true
  | .refLost => true
  | .beacon group port _ => under 64 group && under 8 port
  | .beaconSend group => under 64 group
  | .parentLost => true
  | .timeExpired => true
  | .timeCfgWrite acc _ => accOk acc
  | .timeSet acc _ => accOk acc
  | .stencilEntryAdvance pos point => posOk pos && under 32 point
  | .stencilRun acc _ => accOk acc
  | .stencilEpochWrite acc _ _ => accOk acc
  | .stencilSwitchArm acc _ => accOk acc
  | .stencilBankSwitch => true
  | .stencilDataAccess acc _ _ => accOk acc
  | .washOwnerWrite acc _ => accOk acc
  | .panelWakePlanned panel => under 16 panel
  | .ctxBind acc pos _ => accOk acc && posOk pos
  | .ctxUnbind acc pos _ => accOk acc && posOk pos
  | .queueEnable acc pos slot q _ => accOk acc && posOk pos && under 64 slot && under 4 q
  | .queueSubmit acc pos slot q _ => accOk acc && posOk pos && under 64 slot && under 4 q
  | .queueRestart acc pos slot q _ => accOk acc && posOk pos && under 64 slot && under 4 q
  | .xlateResume acc pos slot q _ => accOk acc && posOk pos && under 64 slot && under 4 q
  | .abort acc pos slot q _ => accOk acc && posOk pos && under 64 slot && under 4 q
  | .copy pos slot q => posOk pos && under 64 slot && under 4 q
  | .strided pos slot q => posOk pos && under 64 slot && under 4 q
  | .gather pos slot q => posOk pos && under 64 slot && under 4 q
  | .scatter pos slot q => posOk pos && under 64 slot && under 4 q
  | .mcast pos slot q => posOk pos && under 64 slot && under 4 q
  | .washWrite pos slot q => posOk pos && under 64 slot && under 4 q
  | .trigger pos slot q => posOk pos && under 64 slot && under 4 q
  | .allreduce pos slot q => posOk pos && under 64 slot && under 4 q
  | .reduceScatter pos slot q => posOk pos && under 64 slot && under 4 q
  | .allgather pos slot q => posOk pos && under 64 slot && under 4 q
  | .broadcast pos slot q => posOk pos && under 64 slot && under 4 q
  | .alltoall pos slot q => posOk pos && under 64 slot && under 4 q
  | .barrier pos slot q => posOk pos && under 64 slot && under 4 q
  | .ringPass pos slot q => posOk pos && under 64 slot && under 4 q
  | .msgSend pos slot q => posOk pos && under 64 slot && under 4 q
  | .wellAdd pos slot q => posOk pos && under 64 slot && under 4 q
  | .timedStart pos slot q => posOk pos && under 64 slot && under 4 q
  | .armTrig pos flit => posOk pos && flitIs 3 flit
  | .armAck pos flit => posOk pos && flitIs 4 flit
  | .packetInject pos port source => posOk pos && under 32 port && sourceOk source
  | .commandEnd pos slot q => posOk pos && under 64 slot && under 4 q
  | .xlateWalkDone pos slot q => posOk pos && under 64 slot && under 4 q
  | .xlateInv acc pos _ => accOk acc && posOk pos
  | .xlateInvDone pos => posOk pos
  | .preempt acc pos _ => accOk acc && posOk pos
  | .preemptSaveDone pos => posOk pos
  | .preemptResume acc pos _ => accOk acc && posOk pos
  | .scrub acc pos _ => accOk acc && posOk pos
  | .scrubDone pos => posOk pos
  | .laneFlit pos side _ payload => posOk pos && under 4 side && under 5 payload.length
  | .write pos pkt => posOk pos && pktOk pkt
  | .readReq pos pkt => posOk pos && pktOk pkt
  | .readRsp pos pkt => posOk pos && pktOk pkt
  | .cmpl pos pkt => posOk pos && pktOk pkt
  | .mcWrite pos pkt => posOk pos && pktOk pkt
  | .ringBlock pos pkt => posOk pos && pktOk pkt
  | .ringCredit pos side _ => posOk pos && under 4 side
  | .ringChunkFree pos slot q => posOk pos && under 64 slot && under 4 q
  | .msg pos pkt => posOk pos && pktOk pkt
  | .msgPlace pos => posOk pos
  | .msgCommit pos ring => posOk pos && under 64 ring
  | .wellAddPacket pos pkt => posOk pos && pktOk pkt
  | .partialPkt pos pkt => posOk pos && pktOk pkt
  | .reducerFlush pos slot => posOk pos && under 64 slot
  | .redTreeEnable acc _ => accOk acc
  | .redTreeDisable acc _ => accOk acc
  | .subrootPartial pos pkt => posOk pos && pktOk pkt
  | .stepTimeout pos slot => posOk pos && under 64 slot
  | .collArm acc _ => accOk acc
  | .collDisarm acc _ => accOk acc
  | .collArmDone => true
  | .collAbort acc _ => accOk acc
  | .washBeat pos beat => posOk pos && beatOk beat
  | .barArrive pos flit => posOk pos && flitIs 5 flit
  | .barCombined pos flit => posOk pos && flitIs 6 flit
  | .barRelease pos flit => posOk pos && flitIs 7 flit
  | .barrierWave pos slot => posOk pos && under 64 slot
  | .tppRead pos _ slot addr _ id => posOk pos && under 64 slot && under (2 ^ 24) addr && under 64 id
  | .tppWrite pos _ slot addr len id _ data => posOk pos && under 64 slot && under (2 ^ 24) addr && under 64 id && lenOk len data
  | .tppBitSet pos _ slot addr id _ => posOk pos && under 64 slot && under (2 ^ 24) addr && under 64 id
  | .tppBitClear pos _ slot addr id _ => posOk pos && under 64 slot && under (2 ^ 24) addr && under 64 id
  | .tppTake pos _ slot addr id => posOk pos && under 64 slot && under (2 ^ 24) addr && under 64 id
  | .tppRotate pos _ slot addr _ id _ _ => posOk pos && under 64 slot && under (2 ^ 24) addr && under 64 id
  | .trayBankCtrlWrite acc pos _ => accOk acc && posOk pos
  | .bankInitDone pos bank => posOk pos && under 16 bank
  | .trayStarve pos bank => posOk pos && under 16 bank
  | .ringEnable acc pos ring _ => accOk acc && posOk pos && under 64 ring
  | .ringFlush acc pos ring _ => accOk acc && posOk pos && under 64 ring
  | .ringHeadWrite acc pos ring _ => accOk acc && posOk pos && under 64 ring
  | .ringStall pos => posOk pos
  | .wellEnable acc pos well _ => accOk acc && posOk pos && under 16 well
  | .frameReceive group port _ => under 64 group && under 8 port
  | .frameSend group port => under 64 group && under 8 port
  | .spEnable acc pos side _ => accOk acc && posOk pos && under 4 side
  | .spRetrain acc pos side _ => accOk acc && posOk pos && under 4 side
  | .safetyRelease acc pos side _ _ => accOk acc && posOk pos && under 4 side
  | .pmaLock group lane => under 64 group && under 9 lane
  | .lockTimeout group port => under 64 group && under 8 port
  | .trainLimit group port => under 64 group && under 8 port
  | .ident group port lane _ => under 64 group && under 8 port && under 9 lane
  | .cap group port _ => under 64 group && under 8 port
  | .agree group port _ => under 64 group && under 8 port
  | .deskew group port _ => under 64 group && under 8 port
  | .ready group port _ _ => under 64 group && under 8 port
  | .spareReq group port lane => under 64 group && under 8 port && under 9 lane
  | .spareAck group port lane => under 64 group && under 8 port && under 9 lane
  | .wlAssign group port lane wl => under 64 group && under 8 port && under 9 lane && under 256 wl
  | .rxpReport group port _ => under 64 group && under 8 port
  | .serCheck group lane => under 64 group && under 9 lane
  | .sparingTimeout group port => under 64 group && under 8 port
  | .relockTimeout group lane => under 64 group && under 9 lane
  | .oemiResponse group _ => under 64 group
  | .oemiTimeout group => under 64 group
  | .wlLockChange group lane _ wl => under 64 group && under 9 lane && under 256 wl
  | .eyeShut group => under 64 group
  | .laneFault group lane => under 64 group && under 9 lane
  | .readMon group _ => under 64 group
  | .peerAccess acc pos side _ => accOk acc && posOk pos && under 4 side
  | .peerAccessReceive group port _ _ _ _ => under 64 group && under 8 port
  | .peerResponse group port _ _ => under 64 group && under 8 port
  | .peerAccessTimeout group => under 64 group
  | .spineIngress group pkt => under 64 group && pktOk pkt
  | .spineEgress group vc => under 64 group && under 6 vc
  | .circuitWindowStart group => under 64 group
  | .circuitTrainAbandon group => under 64 group
  | .circuitCutoff group => under 64 group
  | .circuitWindowEnd group => under 64 group
  | .powerOnReset _ => true
  | .systemReset => true
  | .bringupReload acc _ => accOk acc
  | .fuseRead _ _ => true
  | .clockStart _ => true
  | .calibrate _ => true
  | .trayTest _ => true
  | .canvasRead image _ => under (2 ^ 28 + 1) image.length
  | .glazeDesc _ => true
  | .claims _ => true
  | .colmap _ => true
  | .firmware _ => true
  | .regWriteRec _ => true
  | .routeRec _ => true
  | .sprayRec _ => true
  | .stencilRec _ => true
  | .collectiveRec _ => true
  | .endRec _ => true
  | .bringupContinue acc _ => accOk acc
  | .firmwareStart _ => true
  | .spinePhase _ => true
  | .timePhase _ => true
  | .enterReady => true
  | .glazeSwitch acc _ _ => accOk acc
  | .glazeSwitchDrain => true
  | .glazeSwitchCommit => true
  | .panelSleep panel => under 16 panel
  | .panelEntryDone panel => under 16 panel
  | .panelWake panel => under 16 panel
  | .panelWakeDone panel => under 16 panel
  | .droop panel => under 16 panel
  | .droopHoldEnd panel _ => under 16 panel
  | .tempSample panel _ => under 16 panel
  | .powerBudget pos flit => posOk pos && flitIs 9 flit
  | .budgetViol pos => posOk pos
  | .railLimit rail => under 8 rail
  | .capDivide => true
  | .powerSlack flit => flitIs 10 flit
  | .dieShift flit => flitIs 9 flit
  | .slackRoundTimeout => true
  | .jobEnergyVisit pos slot => posOk pos && under 64 slot
  | .jobEClr acc _ => accOk acc
  | .coolantStop => true
  | .fault m => faultOk m
  | .pinSummary pos level => posOk pos && under 4 level
  | .tileClientErr pos level => posOk pos && under 4 level
  | .chipReset => true
  | .errPinRelease acc _ => accOk acc
  | .errPinMinEnd => true
  | .faultQuiet => true
  | .faultLogDrain => true
  | .odlReplay kind pos output _ _ => under 3 kind && posOk pos && under 14 output
  | .odlRetrainDone kind pos output _ => under 3 kind && posOk pos && under 14 output
  | .fence acc pos _ => accOk acc && posOk pos
  | .wearUpdate => true
  | .wearHistory => true
  | .operHour => true
  | .soakGo acc _ => accOk acc
  | .soakStop acc _ => accOk acc
  | .soakEnd => true
  | .errEntrySelWrite acc _ => accOk acc
  | .tpSnap acc pos _ => accOk acc && posOk pos
  | .swatchArm acc pos u _ => accOk acc && posOk pos && under 4 u
  | .swatchStop acc pos u _ => accOk acc && posOk pos && under 4 u
  | .swatchScan acc pos u _ => accOk acc && posOk pos && under 4 u
  | .swatchScanDone pos u => posOk pos && under 4 u
  | .traceArm acc _ => accOk acc
  | .traceTrig acc _ => accOk acc
  | .traceMode acc _ => accOk acc
  | .traceMark acc _ => accOk acc
  | .traceTrigger k => under 4 k
  | .traceSync => true
  | .traceRdData acc => accOk acc
  | .idcode => true
  | .ijtag => true
  | .bypass => true
  | .testLogicReset => true
  | .regAccess _ _ _ _ => true
  | .freeze => true
  | .unfreeze => true
  | .tapTraceRead _ => true
  | .easelHalt core => under 17 core
  | .easelResume core => under 17 core
  | .easelStep core => under 17 core
  | .easelRegWrite core reg _ => under 17 core && under 37 reg
  | .easelMemWrite core _ _ => under 17 core
  | .easelBreakpoint core => under 17 core
  | .hostInject port _ _ pkt => under 2 port && pktOk pkt
  | .vc5Held port => under 2 port
  | .memResponse pos side id data _ => posOk pos && under 4 side && under 1024 id && under 129 data.length
  | .memTimeout pos side id => posOk pos && under 4 side && under 1024 id
  | .laneLost group lane => under 64 group && under 9 lane
  | .laneCodewordLock group lane => under 64 group && under 9 lane

end Sys2Proof
end

