-- ==== Sys2Proof/Tests/Slice0.lean ====
section
/-! SUPPORT. The model's own tests: ill-formed commands, which WellFormed refuses, and for every statement with hypotheses a
state and operands that meet them, with something of what the command then does. -/
namespace Sys2Proof.Tests
open Sys2Proof Sys2Proof.Machine

set_option Elab.async false

/-- The state that a meaning answers. -/
def after (o : Out) : State := match o with | .next t => t | _ => State.reset

/-- A command run on a state. -/
def run (i : Instr) (s : State) : State := after (exec i s)

/-- The TAP's access. -/
def tap : Access := ⟨.tap, .debug, 0, 0, 0⟩

/-- A state with some registers written. -/
def tuned (l : List (RegAddr × Word)) (s : State) : State := l.foldl (fun t x => t.setReg x.1 x.2) s

/-- A state after reset with some registers written. -/
def base (l : List (RegAddr × Word)) : State := tuned l State.reset

/-- A sketch flit of a type. -/
def flitOf (n : Nat) : SFlit := ⟨0, 0, 0, BitVec.ofNat 6 n, 0, 0, 1, 0⟩

/-- A packet with every field 0. -/
def pkt0 : Pkt := ⟨0, 0, 0, 0, 0, 0, 0, 0, 0, 0, 0, 0, 0, false, false, false, false, 0, []⟩

/-- A packet with too many payload words. -/
def fat : Pkt := { pkt0 with payload := List.replicate 257 0 }

/-- An access of a host port that the die does not have. -/
def odd : Access := ⟨.host 2, .supervisor, 0, 0, 0⟩

/-! ### Well-formed commands -/

/-- In a tray without errors whose banks are all On and in service, every word is good. -/
theorem wordGood_of (s : State) (pos k : Nat) (h : s.trays.bad = []) (hc : s.reg (tileA pos Reg.TRAY_BANK_CTRL) = 0)
    (hs : s.reg (tileA pos Reg.TRAY_BANK_STAT) = 0) : s.wordGood pos k := by
  refine ⟨?_, ?_, ?_⟩
  · simp [State.bankState, hc, fld, bitsOf]
  · simp [State.bankRetired, hs, bit]
  · simp [State.wordDecode, h, Store.get, Store.find?]

/-- The master easel core's access. -/
def easelAcc : Access := ⟨.easel 2, .supervisor, 0, 0, 0⟩

/-- A sketch flit of a type and virtual channel for a position of this die. -/
def flitTo (ty kvc row col : Nat) : SFlit :=
  { flitOf ty with dest := BitVec.ofNat 32 (0x1FFFF * 2 ^ 15 + row * 2 ^ 10 + col * 2 ^ 5), kvc := BitVec.ofNat 2 kvc }

/-- A state after reset with the clocks running. -/
def live : State := base [(dieA Reg.CLK_STAT, 0x80000000)]

/-- The IJTAG network is selected. -/
def jtag : State := { State.reset with tap := { Tap.reset with ir := 2 } }

/-- A state after reset in which every easel core runs. -/
def cores : State := { live with easel := [] }

/-- A one-flit CMPL for a position of this die. -/
def pktTo (row col port : Nat) : Pkt :=
  { pkt0 with dest := BitVec.ofNat 32 (0x1FFFF * 2 ^ 15 + row * 2 ^ 10 + col * 2 ^ 5 + port), ty := BitVec.ofNat 4 tyCMPL, vc := 5 }

/-- A state in which a packet's flits stand at an input of a router. -/
def stands (pos input vc : Nat) (fs : List Flit) (s : State) : State :=
  { s with mesh := { s.mesh with vcs := s.mesh.vcs.put (84 * pos + 6 * input + vc) { VcBuf.empty with buf := fs } } }

/-- Router 1 sends packets for router 3 east, and one stands at its LOCAL input. -/
def heads : State := stands 1 0 5 [⟨pktTo 0 3 0, 0, false⟩] (tuned [(entryA 1 0 3, 0x10022)] live)

/-- Its head has been looked up, -/
def routed : State := run (.routeLookup 1 0 5) heads

/-- and the output granted. -/
def granted : State := run (.arbitrate 1 2) routed

/-- READY in RUN mode, every core running, with claims. -/
def ready (cl : List Claim) : State :=
  { base [(dieA Reg.CLK_STAT, 0x80000000), (dieA Reg.BRINGUP_STAT, 0x92000000)] with
    easel := [], load := { Loader.empty with claims := cl } }

/-- A port of a spine group with its training state, and its record. -/
def withPort (g p st : Nat) (v : SpPort) (s : State) : State :=
  let s := s.setSpF g (Reg.SP_PORT_STAT p) 31 28 st
  { s with spine := { s.spine with ports := s.spine.ports.put (8 * g + p) v } }

/-- TIME_STAT.STATE, with the clocks and every core running. -/
def timed (st : Nat) (l : List (RegAddr × Word)) : State := (tuned l cores).setDieF Reg.TIME_STAT 31 28 st


/-! ### A bound slot with a queue -/

/-- The fields of an entry, each at its byte offset. -/
def fields (l : List (Nat × Nat)) : Nat := l.foldl (fun n x => n + x.2 * 2 ^ (8 * x.1)) 0

/-- The little-endian bytes of a number. -/
def leBytes (n v : Nat) : List Byte := (List.range n).map fun i => BitVec.ofNat 8 (v / 2 ^ (8 * i))

/-- A tile endpoint of this die. -/
def endp (row col port : Nat) : Nat := 0x1FFFF * 2 ^ 15 + row * 2 ^ 10 + col * 2 ^ 5 + port

/-- Slot 0 of position 33 is bound to context 5 of job 7, with 128 KiB at the start of its tray and its save area at 4 KiB. -/
def boundRegs : List (RegAddr × Word) :=
  [(⟨64, 33, Reg.W_CTX 0 0⟩, 0xFF800005), (⟨64, 33, Reg.W_CTX 1 0⟩, 7), (⟨64, 33, Reg.W_CTX 2 0⟩, 0x00200000),
    (⟨64, 33, Reg.W_CTX 3 0⟩, 16), (⟨64, 33, Reg.W_CTX 4 0⟩, 1), (⟨64, 33, Reg.W_CTX 6 0⟩, 0x00040004),
    (dieA (Reg.CTX_JOB 5), 0x80210007)]

/-- That slot, with a queue of four entries and one entry in it. -/
def queued (q e : Nat) : State :=
  (tuned (boundRegs ++ [(tileA 33 (Reg.SQ_CFG 0 q), 0x80200000), (tileA 33 (Reg.SQ_TAIL 0 q), 1)]) cores).setBytes 33 0
    (leBytes 64 e)

/-- A COPY of 64 bytes from offset 256 to context 5 of position 33 itself at offset 512, with its status at 1024. -/
def copyEntry : Nat := fields [(0, 1), (2, 0), (6, 64), (16, endp 1 1 0), (20, 5), (24, 256), (32, 512), (40, 64)]

/-- That COPY as the command that its engine takes. -/
def copyCmd : Cmd := Cmd.take (BitVec.ofNat 512 copyEntry) 0

/-- A command in service at a queue of slot 0 of position 33. -/
def serving (q : Nat) (c : Cmd) : State := (queued q c.desc.toNat).setCmd 33 0 q c

/-! ### A collective of two members -/

/-- A record: members at positions 33 and 34, one sub-tree with root 0 and a reducer at 33, one distribution entry, a
barrier entry at 33, and a ring. -/
def recordNat : Nat :=
  fields [(0, 2), (4, 1), (8, 40), (12, 56), (16, 72), (20, 80), (24, 1), (28, 1), (32, endp 1 1 0), (36, endp 1 2 0), (44, 1),
    (48, 33 + 2 * 2 ^ 32), (56, endp 1 0 0), (60, 2 ^ 2), (72, 33 + 2 ^ 23 + 2 * 2 ^ 24), (80, 2), (84, 2 ^ 20 + 2 ^ 40),
    (92, 1)]

/-- Index 4 is armed with COLL_ID 9 and that record at positions 33 and 34. -/
def group (s : State) : State :=
  let s := s.setBytes 0 0 (leBytes 128 recordNat)
  { s with eng := { s.eng with records := s.eng.records.set [] 3 [(0, 0, 128)]
                               copies := (s.eng.copies.put (64 * 33 + 4) ⟨9, 3, 0, 5, 5, 0, 0⟩).put (64 * 34 + 4) ⟨9, 3, 0, 5, 5, 1, 0⟩ } }

/-- A collective command of 64 elements of FP32, by opcode. -/
def collEntry (op : Nat) : Nat :=
  fields ([(0, op), (6, 64), (16, 9), (24, 8192), (32, 16384), (44, 2)] ++
    (if op = opBARRIER then [(23, 13)]
     else [(23, 13), (40, 64)] ++ if op = opRING_PASS then [(56, 32768)] else if op ≤ 0x22 then [(53, 1), (56, 32768)] else []))

/-- Bound, with an empty queue. -/
def quiet : State := tuned boundRegs cores

/-- A packet for PORT `port` of position 33, of a type, for context 5, with words. -/
def pktOf (ty port : Nat) (ws : List DataWord) : Pkt :=
  Pkt.withPayload { pktTo 1 1 port with ty := BitVec.ofNat 4 ty, vc := 0, ctx := 5, seq := 9, cmplReq := true, cnt := true,
                                        ccnt := 3, src := BitVec.ofNat 32 (endp 1 2 0) } ws

/-- A WRITE of two words at offset 512. -/
def writePkt : Pkt := { pktOf tyWRITE 0 [1, 2] with tw := 512 }

/-! ### Spine ports -/

/-- Port 0 of group 0 in a training state, with its record and its group's. -/
def spineAt (st : Nat) (v : SpPort) (gr : SpGroup) : State :=
  let s := withPort 0 0 st v live
  { s with spine := { s.spine with groups := s.spine.groups.put 0 gr } }

/-- A register of group 0. -/
def sp0 (off : Nat) : RegAddr := edgeA 0 0 off

/-- Edges gone by. -/
def atEdge (n : Nat) (s : State) : State := { s with time := { s.time with edges := n } }

/-- Lanes 0 to 7, lane 8 being the spare. -/
def agr8 : BitVec 256 := agrOf 3 false [0, 1, 2, 3, 4, 5, 6, 7] 8 0x32

/-- An ACTIVE port, every lane with signal and locked. -/
def port8 : SpPort := { SpPort.empty with agr := agr8 }

/-- Its group. -/
def group8 : SpGroup := { SpGroup.empty with sig := 0x1FF, locked := 0x1FF, ident := 0x1FF, seen := 0x1FF, wlLock := 0x1FF }

/-- SP_CTRL with EN and the rest as after reset. -/
def spOn : Word := 0x8B000000 ||| resetOf (sp0 Reg.SP_CTRL)

/-- A group with EN 1; of the safety class too. -/
def enabled (st : Nat) (w : Word) (gr : SpGroup) : State := tuned [(sp0 Reg.SP_CTRL, w)] (spineAt st port8 gr)

/-- These commands are well formed. -/
theorem test_wf_takes_1 : ([.regWr tap 0 0, .regRsp 0 0, .hostRspTimeout 0 0, .arbCommit tap 0 0, .dieIdWrite tap 0,
      .sketchFlitArrive 0 true (flitOf 0), .aonEdge [], .easelWdt 0, .routeLookup 0 0 0, .arbitrate 0 0,
      .flitCross 0 0, .routeEntryWrite tap 0 0 0 0, .spraySetWrite tap 0 0 0 0, .drainHold tap 0, .drainTimeout 0,
      .routeSwap tap 0, .routerStarve 0 0 0 0, .cmapRecordCopy 0, .timeBeacon [], .beacon 0 0 0, .beaconSend 0,
      .timeCfgWrite tap 0, .timeSet tap 0, .stencilEntryAdvance 0 0, .stencilRun tap 0,
      .stencilEpochWrite tap true 0, .stencilSwitchArm tap 0, .stencilDataAccess tap true 0, .washOwnerWrite tap 0,
      .panelWakePlanned 0, .ctxBind tap 0 0, .ctxUnbind tap 0 0, .queueEnable tap 0 0 0 0, .queueSubmit tap 0 0 0 0,
      .queueRestart tap 0 0 0 0, .xlateResume tap 0 0 0 0, .abort tap 0 0 0 0, .copy 0 0 0, .strided 0 0 0,
      .gather 0 0 0, .scatter 0 0 0, .mcast 0 0 0, .washWrite 0 0 0, .trigger 0 0 0, .allreduce 0 0 0,
      .reduceScatter 0 0 0, .allgather 0 0 0, .broadcast 0 0 0, .alltoall 0 0 0, .barrier 0 0 0, .ringPass 0 0 0,
      .msgSend 0 0 0, .wellAdd 0 0 0, .timedStart 0 0 0, .armTrig 0 (flitOf 3), .armAck 0 (flitOf 4),
      .packetInject 0 0 .answers, .commandEnd 0 0 0, .xlateWalkDone 0 0 0, .xlateInv tap 0 0] : List Instr).all Instr.wf = true := by decide +kernel

/-- These commands are well formed. -/
theorem test_wf_takes_2 : ([.xlateInvDone 0, .preempt tap 0 0, .preemptSaveDone 0, .preemptResume tap 0 0, .scrub tap 0 0, .scrubDone 0,
      .laneFlit 0 0 0 [], .write 0 pkt0, .readReq 0 pkt0, .readRsp 0 pkt0, .cmpl 0 pkt0, .mcWrite 0 pkt0,
      .ringBlock 0 pkt0, .ringCredit 0 0 0, .ringChunkFree 0 0 0, .msg 0 pkt0, .msgPlace 0, .msgCommit 0 0,
      .wellAddPacket 0 pkt0, .partialPkt 0 pkt0, .reducerFlush 0 0, .redTreeEnable tap 0, .redTreeDisable tap 0,
      .subrootPartial 0 pkt0, .stepTimeout 0 0, .collArm tap 0, .collDisarm tap 0, .collAbort tap 0,
      .washBeat 0 [0, 0, 0, 0, 0], .barArrive 0 (flitOf 5), .barCombined 0 (flitOf 6), .barRelease 0 (flitOf 7),
      .barrierWave 0 0, .tppRead 0 .tenant 0 0 0 0, .tppWrite 0 .tenant 0 0 0 0 0 [], .tppBitSet 0 .tenant 0 0 0 0,
      .tppBitClear 0 .tenant 0 0 0 0, .tppTake 0 .tenant 0 0 0, .tppRotate 0 .tenant 0 0 0 0 true [],
      .trayBankCtrlWrite tap 0 0, .bankInitDone 0 0, .trayStarve 0 0, .ringEnable tap 0 0 0, .ringFlush tap 0 0 0,
      .ringHeadWrite tap 0 0 0, .ringStall 0, .wellEnable tap 0 0 0, .frameReceive 0 0 ⟨0, [], []⟩, .frameSend 0 0,
      .spEnable tap 0 0 0, .spRetrain tap 0 0 0, .safetyRelease tap 0 0 0 true, .pmaLock 0 0, .lockTimeout 0 0,
      .trainLimit 0 0, .ident 0 0 0 0, .cap 0 0 0, .agree 0 0 0, .deskew 0 0 0, .ready 0 0 0 0] : List Instr).all Instr.wf = true := by decide +kernel

/-- These commands are well formed. -/
theorem test_wf_takes_3 : ([.spareReq 0 0 0, .spareAck 0 0 0, .wlAssign 0 0 0 0, .rxpReport 0 0 [], .serCheck 0 0, .sparingTimeout 0 0,
      .relockTimeout 0 0, .oemiResponse 0 0, .oemiTimeout 0, .wlLockChange 0 0 true 0, .eyeShut 0, .laneFault 0 0,
      .readMon 0 [], .peerAccess tap 0 0 0, .peerAccessReceive 0 0 true 0 0 0, .peerResponse 0 0 0 0,
      .peerAccessTimeout 0, .spineIngress 0 pkt0, .spineEgress 0 0, .circuitWindowStart 0, .circuitTrainAbandon 0,
      .circuitCutoff 0, .circuitWindowEnd 0, .bringupReload tap 0, .canvasRead [] true, .bringupContinue tap 0,
      .glazeSwitch tap 0 true, .panelSleep 0, .panelEntryDone 0, .panelWake 0, .panelWakeDone 0, .droop 0,
      .droopHoldEnd 0 true, .tempSample 0 0, .powerBudget 0 (flitOf 9), .budgetViol 0, .railLimit 0,
      .powerSlack (flitOf 10), .dieShift (flitOf 9), .jobEnergyVisit 0 0, .jobEClr tap 0,
      .fault ⟨0, 0, 0, 0, 0, 0, 0⟩, .pinSummary 0 0, .tileClientErr 0 0, .errPinRelease tap 0, .odlReplay 0 0 0 0 0,
      .odlRetrainDone 0 0 0 true, .fence tap 0 0, .soakGo tap 0, .soakStop tap 0, .errEntrySelWrite tap 0,
      .tpSnap tap 0 0, .swatchArm tap 0 0 0, .swatchStop tap 0 0 0, .swatchScan tap 0 0 0, .swatchScanDone 0 0,
      .traceArm tap 0, .traceTrig tap 0, .traceMode tap 0, .traceMark tap 0] : List Instr).all Instr.wf = true := by decide +kernel

/-- These commands are well formed. -/
theorem test_wf_takes_4 : ([.traceTrigger 0, .traceRdData tap, .easelHalt 0, .easelResume 0, .easelStep 0, .easelRegWrite 0 0 0,
      .easelMemWrite 0 0 0, .easelBreakpoint 0, .hostInject 0 .tenant 0 pkt0, .vc5Held 0, .memResponse 0 0 0 [] 0,
      .memTimeout 0 0 0, .laneLost 0 0, .laneCodewordLock 0 0] : List Instr).all Instr.wf = true := by decide +kernel

/-- One operand of each is out of its range. -/
theorem test_wf_refuses_1 : ([.regWr odd 0 0, .regRsp 2 0, .hostRspTimeout 2 0, .arbCommit odd 0 0, .arbCommit tap 1024 0, .dieIdWrite odd 0,
      .sketchFlitArrive 1024 true (flitOf 0), .aonEdge [⟨1024, 0, 0, false⟩], .easelWdt 17, .routeLookup 1024 0 0,
      .routeLookup 0 14 0, .routeLookup 0 0 6, .arbitrate 1024 0, .arbitrate 0 14, .flitCross 1024 0,
      .flitCross 0 14, .routeEntryWrite odd 0 0 0 0, .routeEntryWrite tap 1024 0 0 0, .routeEntryWrite tap 0 2 0 0,
      .routeEntryWrite tap 0 0 1216 0, .spraySetWrite odd 0 0 0 0, .spraySetWrite tap 1024 0 0 0,
      .spraySetWrite tap 0 2 0 0, .spraySetWrite tap 0 0 64 0, .drainHold odd 0, .drainTimeout 6, .routeSwap odd 0,
      .routerStarve 1024 0 0 0, .routerStarve 0 14 0 0, .routerStarve 0 0 6 0, .routerStarve 0 0 0 14,
      .cmapRecordCopy 16, .timeBeacon [1024], .beacon 64 0 0, .beacon 0 8 0, .beaconSend 64, .timeCfgWrite odd 0,
      .timeSet odd 0, .stencilEntryAdvance 1024 0, .stencilEntryAdvance 0 32, .stencilRun odd 0,
      .stencilEpochWrite odd true 0, .stencilSwitchArm odd 0, .stencilDataAccess odd true 0, .washOwnerWrite odd 0] : List Instr).any Instr.wf = false := by decide +kernel

/-- One operand of each is out of its range. -/
theorem test_wf_refuses_2 : ([.panelWakePlanned 16, .ctxBind odd 0 0, .ctxBind tap 1024 0, .ctxUnbind odd 0 0, .ctxUnbind tap 1024 0,
      .queueEnable odd 0 0 0 0, .queueEnable tap 1024 0 0 0, .queueEnable tap 0 64 0 0, .queueEnable tap 0 0 4 0,
      .queueSubmit odd 0 0 0 0, .queueSubmit tap 1024 0 0 0, .queueSubmit tap 0 64 0 0, .queueSubmit tap 0 0 4 0,
      .queueRestart odd 0 0 0 0, .queueRestart tap 1024 0 0 0, .queueRestart tap 0 64 0 0, .queueRestart tap 0 0 4 0,
      .xlateResume odd 0 0 0 0, .xlateResume tap 1024 0 0 0, .xlateResume tap 0 64 0 0, .xlateResume tap 0 0 4 0,
      .abort odd 0 0 0 0, .abort tap 1024 0 0 0, .abort tap 0 64 0 0, .abort tap 0 0 4 0, .copy 1024 0 0,
      .copy 0 64 0, .copy 0 0 4, .strided 1024 0 0, .strided 0 64 0, .strided 0 0 4, .gather 1024 0 0,
      .gather 0 64 0, .gather 0 0 4, .scatter 1024 0 0, .scatter 0 64 0, .scatter 0 0 4, .mcast 1024 0 0,
      .mcast 0 64 0, .mcast 0 0 4, .washWrite 1024 0 0, .washWrite 0 64 0, .washWrite 0 0 4, .trigger 1024 0 0,
      .trigger 0 64 0] : List Instr).any Instr.wf = false := by decide +kernel

/-- One operand of each is out of its range. -/
theorem test_wf_refuses_3 : ([.trigger 0 0 4, .allreduce 1024 0 0, .allreduce 0 64 0, .allreduce 0 0 4, .reduceScatter 1024 0 0,
      .reduceScatter 0 64 0, .reduceScatter 0 0 4, .allgather 1024 0 0, .allgather 0 64 0, .allgather 0 0 4,
      .broadcast 1024 0 0, .broadcast 0 64 0, .broadcast 0 0 4, .alltoall 1024 0 0, .alltoall 0 64 0,
      .alltoall 0 0 4, .barrier 1024 0 0, .barrier 0 64 0, .barrier 0 0 4, .ringPass 1024 0 0, .ringPass 0 64 0,
      .ringPass 0 0 4, .msgSend 1024 0 0, .msgSend 0 64 0, .msgSend 0 0 4, .wellAdd 1024 0 0, .wellAdd 0 64 0,
      .wellAdd 0 0 4, .timedStart 1024 0 0, .timedStart 0 64 0, .timedStart 0 0 4, .armTrig 1024 (flitOf 3),
      .armTrig 0 (flitOf 63), .armAck 1024 (flitOf 4), .armAck 0 (flitOf 63), .packetInject 1024 0 .answers,
      .packetInject 0 32 .answers, .packetInject 0 0 (.queue 64 0), .packetInject 0 0 (.queue 0 4),
      .commandEnd 1024 0 0, .commandEnd 0 64 0, .commandEnd 0 0 4, .xlateWalkDone 1024 0 0, .xlateWalkDone 0 64 0,
      .xlateWalkDone 0 0 4] : List Instr).any Instr.wf = false := by decide +kernel

/-- One operand of each is out of its range. -/
theorem test_wf_refuses_4 : ([.xlateInv odd 0 0, .xlateInv tap 1024 0, .xlateInvDone 1024, .preempt odd 0 0, .preempt tap 1024 0,
      .preemptSaveDone 1024, .preemptResume odd 0 0, .preemptResume tap 1024 0, .scrub odd 0 0, .scrub tap 1024 0,
      .scrubDone 1024, .laneFlit 1024 0 0 [], .laneFlit 0 4 0 [], .laneFlit 0 0 0 (List.replicate 5 0),
      .write 1024 pkt0, .write 0 fat, .readReq 1024 pkt0, .readReq 0 fat, .readRsp 1024 pkt0, .readRsp 0 fat,
      .cmpl 1024 pkt0, .cmpl 0 fat, .mcWrite 1024 pkt0, .mcWrite 0 fat, .ringBlock 1024 pkt0, .ringBlock 0 fat,
      .ringCredit 1024 0 0, .ringCredit 0 4 0, .ringChunkFree 1024 0 0, .ringChunkFree 0 64 0, .ringChunkFree 0 0 4,
      .msg 1024 pkt0, .msg 0 fat, .msgPlace 1024, .msgCommit 1024 0, .msgCommit 0 64, .wellAddPacket 1024 pkt0,
      .wellAddPacket 0 fat, .partialPkt 1024 pkt0, .partialPkt 0 fat, .reducerFlush 1024 0, .reducerFlush 0 64,
      .redTreeEnable odd 0, .redTreeDisable odd 0, .subrootPartial 1024 pkt0] : List Instr).any Instr.wf = false := by decide +kernel

/-- One operand of each is out of its range. -/
theorem test_wf_refuses_5 : ([.subrootPartial 0 fat, .stepTimeout 1024 0, .stepTimeout 0 64, .collArm odd 0, .collDisarm odd 0,
      .collAbort odd 0, .washBeat 1024 [0, 0, 0, 0, 0], .washBeat 0 [], .barArrive 1024 (flitOf 5),
      .barArrive 0 (flitOf 63), .barCombined 1024 (flitOf 6), .barCombined 0 (flitOf 63),
      .barRelease 1024 (flitOf 7), .barRelease 0 (flitOf 63), .barrierWave 1024 0, .barrierWave 0 64,
      .tppRead 1024 .tenant 0 0 0 0, .tppRead 0 .tenant 64 0 0 0, .tppRead 0 .tenant 0 16777216 0 0,
      .tppRead 0 .tenant 0 0 0 64, .tppWrite 1024 .tenant 0 0 0 0 0 [], .tppWrite 0 .tenant 64 0 0 0 0 [],
      .tppWrite 0 .tenant 0 16777216 0 0 0 [], .tppWrite 0 .tenant 0 0 0 64 0 [], .tppWrite 0 .tenant 0 0 0 0 0 [0],
      .tppBitSet 1024 .tenant 0 0 0 0, .tppBitSet 0 .tenant 64 0 0 0, .tppBitSet 0 .tenant 0 16777216 0 0,
      .tppBitSet 0 .tenant 0 0 64 0, .tppBitClear 1024 .tenant 0 0 0 0, .tppBitClear 0 .tenant 64 0 0 0,
      .tppBitClear 0 .tenant 0 16777216 0 0, .tppBitClear 0 .tenant 0 0 64 0, .tppTake 1024 .tenant 0 0 0,
      .tppTake 0 .tenant 64 0 0, .tppTake 0 .tenant 0 16777216 0, .tppTake 0 .tenant 0 0 64,
      .tppRotate 1024 .tenant 0 0 0 0 true [], .tppRotate 0 .tenant 64 0 0 0 true [],
      .tppRotate 0 .tenant 0 16777216 0 0 true [], .tppRotate 0 .tenant 0 0 0 64 true [], .trayBankCtrlWrite odd 0 0,
      .trayBankCtrlWrite tap 1024 0, .bankInitDone 1024 0, .bankInitDone 0 16] : List Instr).any Instr.wf = false := by decide +kernel

/-- One operand of each is out of its range. -/
theorem test_wf_refuses_6 : ([.trayStarve 1024 0, .trayStarve 0 16, .ringEnable odd 0 0 0, .ringEnable tap 1024 0 0, .ringEnable tap 0 64 0,
      .ringFlush odd 0 0 0, .ringFlush tap 1024 0 0, .ringFlush tap 0 64 0, .ringHeadWrite odd 0 0 0,
      .ringHeadWrite tap 1024 0 0, .ringHeadWrite tap 0 64 0, .ringStall 1024, .wellEnable odd 0 0 0,
      .wellEnable tap 1024 0 0, .wellEnable tap 0 16 0, .frameReceive 64 0 ⟨0, [], []⟩,
      .frameReceive 0 8 ⟨0, [], []⟩, .frameSend 64 0, .frameSend 0 8, .spEnable odd 0 0 0, .spEnable tap 1024 0 0,
      .spEnable tap 0 4 0, .spRetrain odd 0 0 0, .spRetrain tap 1024 0 0, .spRetrain tap 0 4 0,
      .safetyRelease odd 0 0 0 true, .safetyRelease tap 1024 0 0 true, .safetyRelease tap 0 4 0 true, .pmaLock 64 0,
      .pmaLock 0 9, .lockTimeout 64 0, .lockTimeout 0 8, .trainLimit 64 0, .trainLimit 0 8, .ident 64 0 0 0,
      .ident 0 8 0 0, .ident 0 0 9 0, .cap 64 0 0, .cap 0 8 0, .agree 64 0 0, .agree 0 8 0, .deskew 64 0 0,
      .deskew 0 8 0, .ready 64 0 0 0, .ready 0 8 0 0] : List Instr).any Instr.wf = false := by decide +kernel

/-- One operand of each is out of its range. -/
theorem test_wf_refuses_7 : ([.spareReq 64 0 0, .spareReq 0 8 0, .spareReq 0 0 9, .spareAck 64 0 0, .spareAck 0 8 0, .spareAck 0 0 9,
      .wlAssign 64 0 0 0, .wlAssign 0 8 0 0, .wlAssign 0 0 9 0, .wlAssign 0 0 0 256, .rxpReport 64 0 [],
      .rxpReport 0 8 [], .serCheck 64 0, .serCheck 0 9, .sparingTimeout 64 0, .sparingTimeout 0 8,
      .relockTimeout 64 0, .relockTimeout 0 9, .oemiResponse 64 0, .oemiTimeout 64, .wlLockChange 64 0 true 0,
      .wlLockChange 0 9 true 0, .wlLockChange 0 0 true 256, .eyeShut 64, .laneFault 64 0, .laneFault 0 9,
      .readMon 64 [], .peerAccess odd 0 0 0, .peerAccess tap 1024 0 0, .peerAccess tap 0 4 0,
      .peerAccessReceive 64 0 true 0 0 0, .peerAccessReceive 0 8 true 0 0 0, .peerResponse 64 0 0 0,
      .peerResponse 0 8 0 0, .peerAccessTimeout 64, .spineIngress 64 pkt0, .spineIngress 0 fat, .spineEgress 64 0,
      .spineEgress 0 6, .circuitWindowStart 64, .circuitTrainAbandon 64, .circuitCutoff 64, .circuitWindowEnd 64,
      .bringupReload odd 0, .bringupContinue odd 0] : List Instr).any Instr.wf = false := by decide +kernel

/-- One operand of each is out of its range. -/
theorem test_wf_refuses_8 : ([.glazeSwitch odd 0 true, .panelSleep 16, .panelEntryDone 16, .panelWake 16, .panelWakeDone 16, .droop 16,
      .droopHoldEnd 16 true, .tempSample 16 0, .powerBudget 1024 (flitOf 9), .powerBudget 0 (flitOf 63),
      .budgetViol 1024, .railLimit 8, .powerSlack (flitOf 63), .dieShift (flitOf 63), .jobEnergyVisit 1024 0,
      .jobEnergyVisit 0 64, .jobEClr odd 0, .fault ⟨0, 0, 0, 0, 0, 0, 1024⟩, .pinSummary 1024 0, .pinSummary 0 4,
      .tileClientErr 1024 0, .tileClientErr 0 4, .errPinRelease odd 0, .odlReplay 3 0 0 0 0, .odlReplay 0 1024 0 0 0,
      .odlReplay 0 0 14 0 0, .odlRetrainDone 3 0 0 true, .odlRetrainDone 0 1024 0 true, .odlRetrainDone 0 0 14 true,
      .fence odd 0 0, .fence tap 1024 0, .soakGo odd 0, .soakStop odd 0, .errEntrySelWrite odd 0, .tpSnap odd 0 0,
      .tpSnap tap 1024 0, .swatchArm odd 0 0 0, .swatchArm tap 1024 0 0, .swatchArm tap 0 4 0, .swatchStop odd 0 0 0,
      .swatchStop tap 1024 0 0, .swatchStop tap 0 4 0, .swatchScan odd 0 0 0, .swatchScan tap 1024 0 0,
      .swatchScan tap 0 4 0] : List Instr).any Instr.wf = false := by decide +kernel

/-- One operand of each is out of its range. -/
theorem test_wf_refuses_9 : ([.swatchScanDone 1024 0, .swatchScanDone 0 4, .traceArm odd 0, .traceTrig odd 0, .traceMode odd 0,
      .traceMark odd 0, .traceTrigger 4, .traceRdData odd, .easelHalt 17, .easelResume 17, .easelStep 17,
      .easelRegWrite 17 0 0, .easelRegWrite 0 37 0, .easelMemWrite 17 0 0, .easelBreakpoint 17,
      .hostInject 2 .tenant 0 pkt0, .hostInject 0 .tenant 0 fat, .vc5Held 2, .memResponse 1024 0 0 [] 0,
      .memResponse 0 4 0 [] 0, .memResponse 0 0 1024 [] 0, .memResponse 0 0 0 (List.replicate 129 0) 0,
      .memTimeout 1024 0 0, .memTimeout 0 4 0, .memTimeout 0 0 1024, .laneLost 64 0, .laneLost 0 9,
      .laneCodewordLock 64 0, .laneCodewordLock 0 9] : List Instr).any Instr.wf = false := by decide +kernel

/-- A flash image longer than the densest device is refused. -/
theorem test_wf_refuses_image : Instr.wf (.canvasRead (List.replicate (2 ^ 28 + 1) 0) true) = false := by
  simp only [Instr.wf, under, List.length_replicate]; decide
/-! ### The queue, the invariant and refused writes -/

theorem test_step_runs_front : (step { State.reset with pending := [.bypass, .idcode] }) =
    exec .bypass { State.reset with pending := [.idcode] } := rfl

/-- Meets EveryStepKeepsInvariant: a state with a tray word, a command in front, and a next state. -/
theorem test_inv_premise :
    Inv { State.reset.putWord 5 7 1 with pending := [.bypass] } ∧
    StepSafe { State.reset.putWord 5 7 1 with pending := [.bypass] } := by
  refine ⟨⟨?_, ?_, ?_⟩, _, rfl⟩ <;> decide +kernel

theorem test_queue_kept : ∃ t, exec .ijtag { State.reset with pending := [.bypass] } = .next t ∧ t.pending = [.bypass] :=
  ⟨_, rfl, rfl⟩

theorem test_halted_premises :
    onClock (.copy 0 0 0) = true ∧ { State.reset with frozen := true }.stopped = true ∧ State.reset.pending = [] ∧
    bit (State.reset.die Reg.CLK_STAT) 31 = false ∧
    (base [(dieA Reg.COOLANT_STAT, 0x80000000)]).stopped = true := by decide +kernel

/-- An idle block whose clocks run counts a cycle. -/
theorem test_idle_ticks : ∃ t, step (base [(dieA Reg.CLK_STAT, 0x80000000)]) = .next t := ⟨_, rfl⟩

/-- RefusedWritesHaveNoEffect: a path that cannot issue, and each verdict that stops a write. -/
theorem test_refused_premises :
    writeOf (.regWr ⟨.host 0, .supervisor, 0, 0, 0⟩ 0 0) = some (⟨.host 0, .supervisor, 0, 0, 0⟩, RegAddr.ofWord 0) ∧
    State.reset.canIssue ⟨.host 0, .supervisor, 0, 0, 0⟩ = false ∧
    State.reset.canIssue tap = true ∧
    State.reset.verdict tap ⟨3, 0, 0xFFFC⟩ true = .unmapped ∧
    State.reset.verdict ⟨.tile 0, .tenant, 0, 0, 0⟩ (dieA Reg.DIE_ID) true = .priv ∧
    State.reset.verdict ⟨.tile 0, .supervisor, 0, 0, 0⟩ (tileA 0 Reg.TP_FENCE) true = .startup ∧
    { State.reset with frozen := true }.verdict easelAcc (rtrA 0 Reg.ARB_COMMIT) true = .stopped ∧
    (base [(dieA Reg.CLK_STAT, 0x80000000)]).canIssue ⟨.host 0, .supervisor, 0, 0, 0⟩ = true ∧
    (base [(dieA Reg.CLK_STAT, 0x80000000)]).verdict ⟨.host 0, .supervisor, 0, 0, 0⟩ (dieA Reg.TIME_CFG) true = .startup := by
  decide +kernel

theorem test_refused_is_reported :
    ((run (.fence ⟨.tile 0, .supervisor, 0, 0, 0⟩ 0 0) State.reset).flt.inFlight.map (·.source)) = [BitVec.ofNat 8 Src.BRINGUP_WRITE] := by
  decide +kernel

/-- The last word of a tray's address space reads back. -/
theorem test_word_reads_back : (State.reset.putWord 1023 32767 0xABCD).trayWord 1023 32767 = 0xABCD ∧
    Memory.wf (State.reset.putWord 1023 32767 0xABCD).trays = true := by decide +kernel

/-! ### Register paths, the sketch network, the TAP and the easel cores -/

/-- A state in which HP0 waits for two answers. -/
def asked : State := { live with hostReqs := [⟨0, 1, 8, false, 5, 0⟩, ⟨0, 2, 8, false, 7, 0⟩] }

theorem test_host_response :
    asked.hostReqs = [⟨0, 1, 8, false, 5, 0⟩] ++ (⟨0, 2, 8, false, 7, 0⟩ : HostReq) :: [] ∧
    (∀ x ∈ [(⟨0, 1, 8, false, 5, 0⟩ : HostReq)], ¬(x.port = 0 ∧ x.tag = 2)) ∧
    asked.hostSite 0 = some (8, 0) ∧
    (run (.regRsp 0 2) asked).lastRsp.get (0, 0) 0 = (7, 0) ∧
    (run (.hostRspTimeout 0 2) asked).lastRsp.get (0, 0) 0 = (0, 3) ∧
    (∀ x ∈ asked.hostReqs, ¬(x.port = 1 ∧ x.tag = 2)) ∧ asked.hostSite 1 = some (488, 2) ∧
    (run (.regRsp 1 2) asked).reg (edgeA 488 2 Reg.HP_LATE_CNT) = 1 := by decide +kernel

/-- PlainRegisterWriteByAccessType: a router register, and a tile-port register at each end of its range. -/
theorem test_plain_write :
    (specOf (tileA 0 0x2000)).isSome = true ∧ (specOf (tileA 0 0x61FC)).isSome = true ∧
    State.reset.canIssue tap = true ∧
    State.reset.verdict tap (tileA 0 0x2000) true = .ok ∧
    State.reset.verdict tap (tileA 0 0x61FC) true = .ok ∧
    (RegAddr.ofWord 0x130) = rtrA 0 0x130 ∧ routeReg 0x130 = none ∧ (specOf (rtrA 0 0x130)).isSome = true ∧
    State.reset.verdict tap (rtrA 0 0x130) true = .ok := by decide +kernel

theorem test_die_id :
    Admitted tap (dieA Reg.DIE_ID) State.reset ∧ Admitted tap (rtrA 33 Reg.ARB_COMMIT) State.reset ∧
    (run (.dieIdWrite tap 0xFFFE0007) State.reset).time.idLoad = some 7 ∧
    (run .dieIdApply (run (.dieIdWrite tap 7) State.reset)).time.dieId = 7 := by unfold Admitted; decide +kernel

/-- A flit at its first router joins the queue east; a bad one, one without a goal and one on a retired link do not. -/
theorem test_sketch_flit :
    live.inMesh 0 = true ∧ live.sketchRuns = true ∧ flitGood (flitTo 9 2 0 3) = true ∧
    live.flitGoal (flitTo 9 2 0 3) = some (3, none) ∧ sketchOut 0 3 = 2 ∧ live.sketchCut 0 2 = false ∧
    (run (.sketchFlitArrive 0 true (flitTo 9 2 0 3)) live).sketch.waiting.get [] (sketchKey 0 2 2) = [flitTo 9 2 0 3] ∧
    flitGood (flitTo 9 0 0 3) = false ∧ live.flitGoal (flitTo 9 1 31 0) = none ∧
    { live with flt := { live.flt with retired := [(2, 0)] } }.sketchCut 0 2 = true ∧
    ((run (.sketchFlitArrive 0 true (flitTo 9 0 0 3)) live).flt.inFlight.map (·.source)) =
      [BitVec.ofNat 8 Src.SKETCH_DISCARD] := by decide +kernel

/-- NetworkTimeAdvances: no slew and no load, and an accepted TIME_SET. -/
theorem test_network_time :
    State.reset.ntEdge.showHold.clocked = false ∧ State.reset.time.slew = 0 ∧ State.reset.time.setLoad = none ∧
    { State.reset with time := { Time.reset with setLoad := some 9 } }.ntEdge.showHold.clocked = false ∧
    (run (.aonEdge []) { State.reset with time := { Time.reset with setLoad := some 9 } }).time.nt = 9 := by decide +kernel

/-- Core 2's watchdog has expired at edge 0. -/
def again : State := { cores with flt := { cores.flt with wdtLast := [(2, 0)] } }

/-- Its quiet time has passed. -/
def late : State := { again with time := { again.time with edges := again.quietEdges + 1 } }

/-- A core that runs; its first expiry restarts it, a second one within QUIET_US leaves it halted. -/
theorem test_watchdog :
    2 ≤ cores.masterCore ∧ cores.coreRuns 2 = true ∧ cores.stopped = false ∧ cores.flt.wdtLast.find? 2 = none ∧
    (run (.easelWdt 2) cores).coreRuns 2 = true ∧
    again.flt.wdtLast.find? 2 = some 0 ∧ again.time.edges ≤ 0 + again.quietEdges ∧
    (run (.easelWdt 2) again).coreRuns 2 = false ∧
    late.flt.wdtLast.find? 2 = some 0 ∧ 0 + late.quietEdges < late.time.edges ∧
    (run (.easelWdt 2) late).coreRuns 2 = true := by decide +kernel

theorem test_tap : jtag.ijtag = true ∧ jtag.frozen = false ∧
    (run (.tapTraceRead 0x3FFF) jtag).tap.unit = 0 ∧ (run .freeze jtag).stopped = true := by decide +kernel

theorem test_reg_access :
    jtag.ijtag = true ∧ RegAddr.ofWord 0x130 = rtrA 0 0x130 ∧ (rtrA 0 0x130).region = 0 ∧ routeReg (0x130 : Nat) = none ∧ (0x130 : Nat) ≠ Reg.ARB_COMMIT ∧ (0x130 : Nat) ≠ Reg.ONOFF_CFG ∧
    jtag.stopped = false ∧ jtag.mapped (rtrA 0 0x130) = true ∧ (0x130 : Nat) ≠ Reg.CMAP_WINDOW_ID ∧ (0x130 : Nat) < 0x2000 ∧
    (run (.regAccess true true 0x130 0xFFFFFFFF) jtag).reg (rtrA 0 0x130) = 0xFFFFFFFF ∧
    jtag.mapped (RegAddr.ofWord 0x3FFFC) = false ∧ { jtag with frozen := true }.stopped = true ∧
    (run (.regAccess false false 0x3FFFC 0) jtag).tap.err = true := by decide +kernel

/-- Every core runs, and debug reaches them. -/
def runs : State := { jtag with easel := [] }

/-- Debug has halted the master core. -/
def halted : State := { jtag with easel := [(12, 2)] }

/-- The master core has a breakpoint. -/
def broken : State := { runs with core := { runs.core with breaks := [(48, 0x201)] } }

/-- EaselDebugReachesItsCore: core 12 runs or stands halted by debug, the last register and breakpoint, an address in its
instruction memory, and one breakpoint set. -/
theorem test_easel_debug :
    12 ≤ runs.masterCore ∧ runs.coreRuns 12 = true ∧ halted.easel.get 0 12 = 2 ∧ halted.stopped = false ∧
    (0 : Word).toNat < runs.coreMem 12 ∧
    ((((List.range 4).map fun k => broken.core.breaks.get 0 (4 * 12 + k)).filter fun x => bit x 0) = [0x201]) ∧
    (run (.easelHalt 12) runs).easel.get 0 12 = 2 ∧ (run (.easelResume 12) halted).coreRuns 12 = true ∧
    (run (.easelRegWrite 12 31 7) runs).core.regs.get 0 (64 * 12 + 31) = 7 ∧
    bit ((run (.easelRegWrite 12 36 8) runs).core.breaks.get 0 51) 0 = true ∧
    (run (.easelMemWrite 12 4 0x01020304) runs).core.mem.get 0 (2 ^ 20 * 12 + 7) = 1 ∧
    broken.stopped = false := by decide +kernel

/-! ### The data mesh -/

/-- Two packets want the output east; one of them has waited long. -/
def starved : State :=
  let s := run (.routeLookup 1 0 0) (stands 1 0 0 [⟨{ pktTo 0 3 0 with ty := 0, vc := 0 }, 0, false⟩] granted)
  s.setVcb 1 0 0 { s.vcb 1 0 0 with wait := 16385 }

theorem test_starved :
    starved.stopped = false ∧ starved.starveLimit 1 = 16384 ∧ starved.starveLimit 1 < (starved.vcb 1 0 0).wait ∧
    starved.candidate 1 2 0 0 = true ∧ starved.choose 1 2 ≠ some (0, 0) ∧ (starved.vcb 1 0 0).told = false ∧
    starved.reg (rtrA 1 Reg.STARVE_STAT) = 0 ∧
    bit ((run (.routerStarve 1 0 0 2) starved).reg (rtrA 1 Reg.STARVE_STAT)) 16 = true ∧
    ((run (.routerStarve 1 0 0 2) starved).vcb 1 0 0).told = true ∧
    (tuned [(rtrA 1 Reg.STARVE_LIMIT, 0)] starved).starveLimit 1 = 0 := by decide +kernel

/-- No VC is a victim. -/
def firm : State := { granted with arbLive := granted.arbLive.put (rtrA 1 Reg.ARB_MARGIN).key 0 }

/-- ArbiterGrantsTheMostUrgent: no owner and a winner with one branch; an owner that is no victim. -/
theorem test_arbiter :
    (routed.outp 1 2).owner = none ∧ routed.choose 1 2 = some (0, 5) ∧ (routed.branches 1 (0, 5)).length ≤ 1 ∧
    (∀ p ∈ allPairs, ∀ l ∈ routed.branches 1 p, l.free = false) ∧ routed.stopped = false ∧
    (firm.outp 1 2).owner = some (0, 5) ∧ (0, 5) ∈ firm.candidates 1 2 ∧
    (fld (firm.arbReg 1 Reg.ARB_MARGIN) 21 16).testBit 5 = false ∧ firm.choose 1 2 = some (0, 5) := by decide +kernel

theorem test_head_is_routed :
    (heads.vcb 1 0 5).buf = [⟨pktTo 0 3 0, 0, false⟩] ∧ (heads.vcb 1 0 5).route = none ∧
    (isInjection 0 && (0 : Nat) != 13 && (pktTo 0 3 0).malformed) = false ∧ (pktTo 0 3 0).ty.toNat ≠ tyMC_WRITE ∧
    heads.decide' 1 0 5 (pktTo 0 3 0) = (.legs [⟨2, false, 3, pktTo 0 3 0⟩], none) := by decide +kernel

theorem test_malformed_head :
    pkt0.malformed = false ∧ { pkt0 with vc := 6 }.malformed = true ∧ isInjection 12 = true ∧
    (run (.routeLookup 1 12 5) (stands 1 12 5 [⟨{ pkt0 with vc := 6 }, 0, false⟩] live)).reg (rtrA 1 Reg.DISC_BAD_CNT) = 1 := by
  decide +kernel

theorem test_flit_crosses :
    granted.crossing 1 2 = some (0, 5) ∧ (granted.vcb 1 0 5).buf = [⟨pktTo 0 3 0, 0, false⟩] ∧
    (granted.vcb 1 0 5).route = some ⟨[⟨2, false, 3, pktTo 0 3 0⟩], 0, false, false, []⟩ ∧ granted.downOn 1 2 5 = true ∧
    ((run (.flitCross 1 2) granted).vcb 2 8 5).buf.length = 0 ∧ routed.crossing 1 2 = none := by decide +kernel

theorem test_route_tables :
    Admitted tap (entryA 1 1 1215) State.reset ∧ Admitted tap (sprayA 1 1 63) State.reset ∧
    bit ((run (.routeEntryWrite tap 1 1 1215 0x1000F) State.reset).reg (rtrA 1 Reg.ROUTE_FLAG_STAT)) 0 = true ∧
    bit ((run (.routeEntryWrite tap 1 0 3 0x10022) State.reset).reg (rtrA 1 Reg.ROUTE_FLAG_STAT)) 0 = false ∧
    (run (.spraySetWrite tap 1 1 63 0x24) State.reset).spray 1 1 63 = 0x24 := by unfold Admitted; decide +kernel

/-- VC 5 is held with a flit in it since edge 0, and its time is up. -/
def drained : State :=
  let s := tuned [(dieA Reg.DRAIN_CTRL, 0x20)] heads
  { s with mesh := { s.mesh with holdSince := [(5, 1)] }, time := { s.time with edges := 100 * s.drainLimit } }

theorem test_drain :
    Admitted tap (dieA Reg.DRAIN_CTRL) State.reset ∧ (run (.drainHold tap 0x20) State.reset).hold = 0x20 ∧
    drained.stopped = false ∧ drained.hold.testBit 5 = true ∧ drained.vcEmpty 5 = false ∧
    drained.mesh.holdSince.get 0 5 ≠ 0 ∧ drained.mesh.holdSince.get 0 5 - 1 + 100 * drained.drainLimit ≤ drained.time.edges ∧
    drained.mesh.timedOut.testBit 5 = false ∧ bit ((run (.drainTimeout 5) drained).die Reg.DRAIN_STAT) 8 = true := by
  unfold Admitted; decide +kernel

theorem test_route_swap :
    Admitted tap (dieA Reg.ROUTE_SWAP) State.reset ∧ Admitted tap (dieA Reg.ROUTE_SWAP) drained ∧
    State.reset.heldEmpty = true ∧ drained.heldEmpty = false ∧
    bit ((run (.routeSwap tap 1) drained).die Reg.DRAIN_STAT) 16 = true ∧
    (run (.routeSwap tap 1) State.reset).mesh.swapPending = true ∧
    (run .routeBankSwitch (run (.routeSwap tap 1) State.reset)).routeBank = 1 := by unfold Admitted; decide +kernel

/-- Congestion windows are counted, and NT stands in a new one. -/
def counting : State :=
  let s := tuned [(dieA Reg.CMAP_CTRL, 0x100)] live
  { s with mesh := { s.mesh with cmapLast := 3, util := [(14 * 287 + 13, 9)] } }

/-- Two panels have still to copy their records, the last also last of all. -/
def copying (l : List Nat) : State := { ready [⟨4, 3, false, 2, 0, 64, 0⟩] with cmap := { Cmap.empty with left := l, win := 7 } }

theorem test_cmap :
    counting.stopped = false ∧ bit (live.die Reg.CMAP_CTRL) 8 = false ∧ bit (counting.die Reg.CMAP_CTRL) 8 = true ∧
    counting.mesh.cmapLast ≠ counting.ntNat / 2 ^ counting.cmapWin ∧ Store.wf (fun _ => 0) counting.mesh.util = true ∧
    (run .cmapSnapshot counting).reg (rtrA 287 (Reg.UTIL_CNT 13)) = 9 ∧
    (copying [0, 11]).stopped = false ∧ 11 ∈ (copying [0, 11]).cmap.left ∧ (copying [0, 11]).coreRuns 11 = true ∧
    (copying [0, 11]).trayClaim 4 none = some ⟨4, 3, false, 2, 0, 64, 0⟩ ∧ (copying [11]).masterRuns = true := by
  decide +kernel

/-! ### Network time and stencils -/

theorem test_root : (timed 5 []).timeState = 5 ∧ State.reset.timeState ≠ 5 ∧
    Admitted tap (dieA Reg.TIME_CFG) (timed 5 []) ∧ Admitted tap (dieA Reg.TIME_CFG) State.reset ∧
    bit ((run .refLost (timed 5 [])).die Reg.TIME_STAT) 20 = true ∧
    (run .timerefEdge { timed 5 [] with time := { Time.reset with nt := 15999990 } }).time.slew = 10 ∧
    (run .timerefEdge { timed 5 [] with time := { Time.reset with nt := 8000000 } }).time.slew = 8000000 ∧
    (run (.timeCfgWrite tap 0x80000000) State.reset).timeState = 5 ∧
    (run (.timeCfgWrite tap 0) (timed 5 [])).timeState = 0 ∧
    (run (.timeCfgWrite tap 0x45) State.reset).timeState = 1 := by unfold Admitted; decide +kernel

/-- LOCKED to a parent that has missed five beacons, with and without a valid backup. -/
def lostParent (backup : Bool) : State :=
  let s := timed 2 [(dieA Reg.TIME_CFG, 0x4140)]
  { s with time := { s.time with parent := { Parent.unknown with missed := 5, state := 2 }
                                 backup := { Parent.unknown with valid := backup, lastE := 3, state := 2 } } }

/-- In HOLDOVER since edge 0 for 5 ms, with RUN 1. -/
def heldOver (us : Nat) : State :=
  let s := timed 3 [(dieA Reg.STENCIL_CTRL, 1)]
  { s with time := { s.time with edges := 100 * us } }

theorem test_parent_lost :
    (lostParent true).timeState = 2 ∧ (lostParent true).parentIsLost = true ∧ (lostParent false).parentIsLost = true ∧
    (run .parentLost (lostParent true)).time.slew = 3 ∧ (run .parentLost (lostParent true)).timeState = 2 ∧
    (run .parentLost (lostParent false)).timeState = 3 ∧
    State.reset.timeState ≠ 3 ∧ (heldOver 4999).timeState = 3 ∧ (heldOver 4999).holdUs < 5000 ∧
    (heldOver 5000).timeState = 3 ∧ 5000 ≤ (heldOver 5000).holdUs ∧
    (run .timeExpired (heldOver 5000)).timeState = 4 ∧ (run .timeExpired (heldOver 5000)).stencilRun = false := by
  decide +kernel

/-- Group 0 leads to the parent; its port 0 is ACTIVE or in TIME, with one reverse beacon outstanding. -/
def beaconPort (st : Nat) : State :=
  withPort 0 0 st { SpPort.empty with t1 := [(0, 100)] } (tuned [(dieA Reg.TIME_CFG, 0x40)] cores)

theorem test_beacon :
    (beaconPort 8).spHas 0 0 = true ∧ (beaconPort 8).stopped = false ∧ (beaconPort 8).spState 0 0 = spACTIVE ∧
    (beaconPort 6).spState 0 0 = spTIME ∧ (0x10000 : BitVec 256).toNat.testBit 16 = true ∧
    ((beaconPort 8).spPort 0 0).t1.find? (bitsOf (0x500 : BitVec 256).toNat 15 8) = none ∧
    ((beaconPort 8).spPort 0 0).t1.find? (bitsOf (0x40000 : BitVec 256).toNat 15 8) = some 100 ∧
    (0x40000 : BitVec 256).toNat.testBit 16 = false ∧
    (beaconPort 8).timeRole 0 = some true ∧ (beaconPort 8).masterRuns = true ∧
    ((run (.beacon 0 0 0x10500) (beaconPort 8)).spPort 0 0).ctl.length = 1 ∧
    ((run (.beaconSend 0) (beaconPort 6)).spPort 0 0).ctl.length = 1 ∧
    (beaconPort 8).spExists 0 = true ∧ (beaconPort 6).spPorts 0 = 1 ∧
    ((run (.beaconSend 0) (beaconPort 8)).parentRec true).missed = 1 := by decide +kernel

theorem test_time_set :
    Admitted tap (dieA Reg.TIME_SET_LO) State.reset ∧ Admitted tap (dieA Reg.TIME_SET_LO) (timed 2 []) ∧
    Admitted tap (dieA Reg.STENCIL_EPOCH_HI) State.reset ∧ Admitted tap (dieA Reg.STENCIL_EPOCH_LO) State.reset ∧
    Admitted tap (dieA Reg.STENCIL_EPOCH_LO) (timed 0 [(dieA Reg.STENCIL_CTRL, 1)]) ∧
    (timed 0 [(dieA Reg.STENCIL_CTRL, 1)]).stencilRun = true ∧
    (run (.timeSet tap 77) State.reset).time.setLoad = some 77 ∧ (run (.timeSet tap 77) (timed 2 [])).time.setLoad = none ∧
    (run (.stencilEpochWrite tap false 0xFF) State.reset).die Reg.STENCIL_EPOCH_LO = 0xE0 := by
  unfold Admitted; decide +kernel

/-- A switch is armed for NT 0. -/
def armedSwitch : State := timed 0 [(dieA Reg.STENCIL_SWITCH_ARM, 1)]

theorem test_stencils :
    Admitted tap (dieA Reg.STENCIL_CTRL) State.reset ∧ Admitted tap (dieA Reg.STENCIL_SWITCH_ARM) State.reset ∧
    Admitted tap (dieA Reg.STENCIL_CTRL) (timed 0 [(dieA Reg.STENCIL_CTRL, 1)]) ∧
    (run (.stencilRun tap 1) State.reset).stencilRun = true ∧
    (run (.stencilRun tap 0) (timed 0 [(dieA Reg.STENCIL_CTRL, 1)])).stencilRun = false ∧
    State.reset.ntNat < (base [(dieA Reg.STENCIL_SWITCH_LO, 64)]).switchAt ∧ ¬(State.reset.ntNat < State.reset.switchAt) ∧
    bit ((run (.stencilSwitchArm tap 1) (base [(dieA Reg.STENCIL_SWITCH_LO, 64)])).die Reg.STENCIL_SWITCH_ARM) 0 = true ∧
    bit ((run (.stencilSwitchArm tap 1) State.reset).die Reg.STENCIL_SWITCH_ARM) 1 = true ∧
    bit (armedSwitch.die Reg.STENCIL_SWITCH_ARM) 0 = true ∧ armedSwitch.switchAt ≤ armedSwitch.ntNat ∧
    bit (armedSwitch.die Reg.GLAZE_SWITCH_STAT) 31 = false ∧ armedSwitch.stencilRun = false ∧
    (run .stencilBankSwitch armedSwitch).stencilBank = 1 := by unfold Admitted; decide +kernel

/-- POINT 14 of position 33 has a stencil of one entry, whose entry 255 stands open from NT 0 (DUR 10). -/
def stencilled (nt : Nat) : State :=
  let s := timed 0 [(dieA Reg.STENCIL_CTRL, 1)]
  { s with time := { s.time with nt := BitVec.ofNat 64 nt, stencils := [(stencilKey 0 33 14 0, 10)]
                                 gates := [(32 * 33 + 14, ⟨255, 10, 0⟩)] } }

theorem test_stencil_entry :
    State.reset.stencilRun = false ∧ (stencilled 0).stencilRun = true ∧ (stencilled 0).hasStencil 33 14 = true ∧
    (stencilled 0).time.gates.find? (32 * 33 + 14) = some ⟨255, 10, 0⟩ ∧
    (stencilled 0).ntNat < (⟨255, 10, 0⟩ : GateNow).closes ∧
    (⟨255, 10, 0⟩ : GateNow).closes ≤ (stencilled (⟨255, 10, 0⟩ : GateNow).closes).ntNat ∧
    ((run (.stencilEntryAdvance 33 14) (stencilled (⟨255, 10, 0⟩ : GateNow).closes)).time.gates.find? (32 * 33 + 14)).map
      (·.index) = some 0 := by decide +kernel

/-- STENCIL_SEL names entry 255 of POINT 31 at position 0 in bank 1. -/
def selected : State := base [(dieA Reg.STENCIL_SEL, 0x80001FFF)]

theorem test_stencil_data :
    selected.selectedEntry = some (stencilKey 1 0 31 255) ∧
    Admitted tap (dieA Reg.STENCIL_DATA_LO) selected ∧ AdmittedRead tap (dieA Reg.STENCIL_DATA_LO) selected ∧
    (run (.stencilDataAccess tap true 9) selected).time.stencils.get 0 (stencilKey 1 0 31 255) = 9 ∧
    (run (.stencilDataAccess tap true 9) selected).dieF Reg.STENCIL_SEL 7 0 = 0 ∧
    Admitted tap (dieA Reg.WASH_OWNER) State.reset ∧ State.reset.washRuns = false ∧ State.reset.timeState ≠ 4 ∧
    (run (.washOwnerWrite tap 0x80000021) State.reset).time.wash = some 33 := by
  unfold Admitted AdmittedRead; decide +kernel

/-! ### Contexts and engines -/

/-- Slot 0 of position 33 as `boundRegs` binds it, but not VALID yet. -/
def unbound : State := tuned (boundRegs ++ [(⟨64, 33, Reg.W_CTX 0 0⟩, 0), (dieA (Reg.CTX_JOB 5), 0)]) cores

/-- ContextsBindAndUnbind: a bind that R152 permits and one that it refuses, a slot bound already; an unbind of an idle, a
busy and a free slot. -/
theorem test_bind :
    Admitted tap (tileA 33 Reg.CTX_W0) unbound ∧ unbound.slotValid 33 0 = false ∧ unbound.mayBind 33 0 5 = true ∧
    (run (.ctxBind tap 33 0xFF800005) unbound).slotOf 33 5 = some 0 ∧
    Admitted tap (tileA 33 Reg.CTX_W0) State.reset ∧ State.reset.slotValid 33 0 = false ∧ State.reset.mayBind 33 0 5 = false ∧
    bit ((run (.ctxBind tap 33 5) State.reset).reg (tileA 33 Reg.TP_FLAG_STAT)) 0 = true ∧
    Admitted tap (tileA 33 Reg.CTX_W0) quiet ∧ quiet.slotValid 33 0 = true ∧ quiet.slotBusy 33 0 = 0 ∧
    quiet.rdOutOf 33 0 = 0 ∧ (run (.ctxUnbind tap 33 0) quiet).jobOf 5 = none ∧
    Admitted tap (tileA 33 Reg.CTX_W0) (serving 3 copyCmd) ∧ (serving 3 copyCmd).slotValid 33 0 = true ∧
    ¬((serving 3 copyCmd).slotBusy 33 0 = 0 ∧ (serving 3 copyCmd).rdOutOf 33 0 = 0) := by unfold Admitted; decide +kernel

/-- QueuesAreEnabledSubmittedAndStopped: each case of SQ_CFG and SQ_TAIL, with a full ring and one entry more. -/
theorem test_queues :
    Admitted tap (tileA 33 (Reg.SQ_CFG 0 3)) quiet ∧ bit (quiet.reg (tileA 33 (Reg.SQ_CFG 0 3))) 31 = false ∧
    bit (0x80200000 : Word) 31 = true ∧ quiet.inAlloc 33 0 (64 * fld 0x80200000 19 6) (64 * 2 ^ sqLog 0x80200000) = true ∧
    quiet.inAlloc 33 0 (64 * fld 0x802FFFC0 19 6) (64 * 2 ^ sqLog 0x802FFFC0) = false ∧
    (run (.queueEnable tap 33 0 3 0x80200000) quiet).reg (tileA 33 (Reg.SQ_CFG 0 3)) = 0x80200000 ∧
    bit ((run (.queueEnable tap 33 0 3 0x802FFFC0) quiet).reg (tileA 33 Reg.TP_FLAG_STAT)) 0 = true ∧
    Admitted tap (tileA 33 (Reg.SQ_CFG 0 0)) (queued 0 copyEntry) ∧
    bit ((queued 0 copyEntry).reg (tileA 33 (Reg.SQ_CFG 0 0))) 31 = true ∧
    Admitted tap (tileA 33 (Reg.SQ_TAIL 0 0)) (queued 0 copyEntry) ∧
    ((4 : Nat) + 65536 - (queued 0 copyEntry).sqHead 33 0 0) % 65536 ≤ 2 ^ sqLog ((queued 0 copyEntry).sqCfg 33 0 0) ∧
    2 ^ sqLog ((queued 0 copyEntry).sqCfg 33 0 0) < ((5 : Nat) + 65536 - (queued 0 copyEntry).sqHead 33 0 0) % 65536 ∧
    Admitted tap (tileA 33 (Reg.SQ_CTRL 0 0)) (serving 0 copyCmd) ∧ (serving 0 copyCmd).fenced 33 = false ∧
    (serving 0 copyCmd).cmd? 33 0 0 = some copyCmd ∧
    ((run (.abort tap 33 0 0 1) (serving 0 copyCmd)).cmd? 33 0 0).map (·.stop) = some stABORTED := by
  unfold Admitted; decide +kernel

/-- A valid entry of each mover, trigger and message opcode. -/
def plainEntry (op : Nat) : Nat :=
  fields ([(0, op), (6, 64)] ++
    (if op = opTRIGGER then [(16, endp 1 1 0), (20, 77), (22, 1)]
     else if op = opMSG_SEND ∨ op = opWELL_ADD then [(2, 4), (16, endp 1 1 4), (20, 5), (24, 256), (32, 64)]
     else if op = opWASH then [(24, 256), (32, 512), (40, 128)]
     else if op = opMCAST then [(16, endp 1 1 0), (20, 5), (24, 256), (32, 512), (40, 64), (44, 4)]
     else [(16, endp 1 1 0), (20, if op = opGATHER then 0x8005 else 5), (24, 256), (32, 512), (40, 64)] ++
       if op = opCOPY then [] else [(48, 64), (52, 64), (56, 1)]))

/-- The queue that serves an opcode, and its entry. -/
def opCase (op : Nat) : State × Nat × Cmd :=
  let q := if op < 0x20 then 0 else if op < 0x30 then 2 else 3
  let e := if 0x21 ≤ op ∧ op < 0x30 then collEntry op else plainEntry op
  (group (queued q e), q, Cmd.take (BitVec.ofNat 512 e) 0)

/-- The hypotheses of EnginesTakeTheEntryAtHead for an entry that passes its checks, as one test. -/
def takesWell (op : Nat) : Bool :=
  let (s, q, c) := opCase op
  let r := s.readEntry 33 0 (s.headEntry 33 0 q).2
  let k := r.2.2.takeCheck 33 0 q c
  s.mayTake 33 0 q && s.allocFits 33 0 && decide (s.traySize ≤ 2 ^ 20) && !r.2.1 && dOp r.1 == op && r.1 == c.desc &&
    k.1 == 0 && s.inAlloc 33 0 (16 * dStatus r.1) 8 &&
    (match k.2 with | some g => s.copiesHold 33 g.index (cNroot r.1) (dPeer r.1) | none => true)

theorem test_movers_take :
    takesWell opCOPY = true ∧ takesWell opSTRIDED = true ∧ takesWell opGATHER = true ∧ takesWell opSCATTER = true ∧
    takesWell opMCAST = true ∧ takesWell opWASH = true ∧ (opCase opWASH).1.washWaits 33 (opCase opWASH).2.2.desc = true ∧
    takesWell opTRIGGER = true ∧ takesWell opMSG_SEND = true ∧ takesWell opWELL_ADD = true := by decide +kernel

theorem test_collectives_take :
    takesWell opALLREDUCE = true ∧ takesWell opREDUCE_SCATTER = true ∧ takesWell opALLGATHER = true ∧
    takesWell opBROADCAST = true ∧ takesWell opALLTOALL = true ∧ takesWell opBARRIER = true ∧
    takesWell opRING_PASS = true := by decide +kernel

theorem test_commands_run :
    ((run (.copy 33 0 0) (opCase opCOPY).1).cmd? 33 0 0).map (·.st) = some 2 ∧
    ((run (.washWrite 33 0 0) (opCase opWASH).1).cmd? 33 0 0).map (·.st) = some 1 ∧
    ((run (.allreduce 33 0 2) (opCase opALLREDUCE).1).cmd? 33 0 2).map (·.st) = some 2 ∧
    (run (.trigger 33 0 2) (opCase opTRIGGER).1).sketch.links.length = 1 ∧
    ((run (.trigger 33 0 2) (opCase opTRIGGER).1).cmd? 33 0 2).map (·.st) = some 2 := by decide +kernel

/-- A COPY of an unaligned length. -/
def badEntry : Nat := copyEntry + 2 ^ 320

/-- An entry that fails its checks ends FAILED with BAD_CMD; a queue that may not take a command. -/
theorem test_bad_entry :
    (queued 0 badEntry).mayTake 33 0 0 = true ∧ (queued 0 badEntry).allocSound 33 0 ∧
    ((queued 0 badEntry).takeCheck 33 0 0 (Cmd.take (BitVec.ofNat 512 badEntry) 0)).1 = stBAD_CMD ∧
    ((queued 0 badEntry).readEntry 33 0 ((queued 0 badEntry).headEntry 33 0 0).2).1 = BitVec.ofNat 512 badEntry ∧
    (queued 0 badEntry).wordGood 33 32 ∧
    (run (.copy 33 0 0) (queued 0 badEntry)).statusAt 33 0 64 = statusWord stateFailed stBAD_CMD 0 ∧
    takes (.copy 33 0 0) = some (33, 0, 0, opCOPY) ∧ quiet.mayTake 33 0 0 = false := by
  unfold State.allocSound State.wordGood; decide +kernel

/-- A COPY that starts at NT 1000, and one armed for trigger 77. -/
def timedCmd : Cmd := Cmd.take (BitVec.ofNat 512 (copyEntry + fields [(1, 1), (8, 1000)])) 0
/-- Armed for trigger 77. -/
def armedCmd : Cmd := Cmd.take (BitVec.ofNat 512 (copyEntry + fields [(1, 2), (8, 77)])) 0

/-- A state at a network time. -/
def atNt (n : Nat) (s : State) : State := { s with time := { s.time with nt := BitVec.ofNat 64 n } }

theorem test_timed_start :
    (serving 0 timedCmd).cmd? 33 0 0 = some timedCmd ∧ timedCmd.st = 1 ∧ timedCmd.stop = 0 ∧
    (serving 0 timedCmd).preempting 33 0 = false ∧ (serving 0 timedCmd).stopped = false ∧
    (serving 0 timedCmd).panelRuns 33 = true ∧ (atNt 1000 (serving 0 timedCmd)).startsWell 33 0 timedCmd ∧
    dTimed timedCmd.desc = true ∧ dStart timedCmd.desc ≤ (atNt 1000 (serving 0 timedCmd)).ntNat ∧
    ((run (.timedStart 33 0 0) (atNt 1000 (serving 0 timedCmd))).cmd? 33 0 0).map (·.st) = some 2 ∧
    run (.timedStart 33 0 0) (atNt 999 (serving 0 timedCmd)) = atNt 999 (serving 0 timedCmd) ∧
    { armedCmd with fire := 5 }.fire ≠ 0 ∧ { armedCmd with fire := 5 }.fire ≤ (atNt 5 quiet).ntNat := by
  unfold State.startsWell State.allocSound; decide +kernel

/-- An ARM_TRIG with a trigger number, for context 5, at an NT, that asks for an ARM_ACK. -/
def trig (tag nt : Nat) : SFlit :=
  { flitOf 3 with priv := 0, ctx := 5, tag := BitVec.ofNat 16 tag, body := BitVec.ofNat 256 (nt + 2 ^ 64) }

/-- The context's agent waits for the ARM_ACK of trigger 77. -/
def triggering : State := serving 2 { (Cmd.take (BitVec.ofNat 512 (plainEntry opTRIGGER)) 0) with st := 2 }

/-- TimedAndArmedCommandsStart: a trigger at a fenced port, one not permitted, one that fires nothing, one for later (and
one for the present), and an ARM_ACK. -/
theorem test_triggers :
    (serving 0 armedCmd).inMesh 33 = true ∧ (trig 77 0).stype.toNat = 3 ∧
    (tuned [(tileA 33 Reg.TP_FENCE, 0x40000000)] quiet).fenced 33 = true ∧ (serving 0 armedCmd).fenced 33 = false ∧
    State.reset.stopped = false ∧ State.reset.fenced 33 = false ∧ State.reset.trigAllowed 33 (trig 77 0) = false ∧
    (serving 0 armedCmd).trigAllowed 33 (trig 77 0) = true ∧ (serving 0 armedCmd).trigSlot 33 (trig 77 0) = some 0 ∧
    (serving 0 armedCmd).armedQueues 33 0 (trig 78 0) = [] ∧ (serving 0 armedCmd).armedQueues 33 0 (trig 77 0) = [0] ∧
    (serving 0 armedCmd).ntNat < (trig 77 1).field 0 8 ∧ (trig 77 0).field 0 8 ≤ (serving 0 armedCmd).ntNat ∧
    (trig 77 1).field 8 1 % 2 = 1 ∧ (serving 0 armedCmd).startsWell 33 0 armedCmd ∧
    ((run (.armTrig 33 (trig 77 1)) (serving 0 armedCmd)).cmd? 33 0 0).map (·.fire) = some 1 ∧
    ((run (.armTrig 33 (trig 77 0)) (serving 0 armedCmd)).cmd? 33 0 0).map (·.st) = some 2 ∧
    { trig 77 0 with stype := 4 }.stype.toNat = 4 ∧ triggering.slotOf 33 5 = some 0 ∧ triggering.allocSound 33 0 ∧
    (run (.armAck 33 { trig 77 0 with stype := 4 }) triggering).cmd? 33 0 2 = none := by
  unfold State.startsWell State.allocSound; decide +kernel

/-- A COPY in service. -/
def moving : State := serving 0 { copyCmd with st := 2 }

/-- An answer waits at PORT 0 of position 33. -/
def owing : State := { quiet with mesh := { quiet.mesh with answers := quiet.mesh.answers.put (32 * 33) [pktTo 1 2 0] } }

theorem test_injection :
    owing.stopped = false ∧ owing.inMesh 33 = true ∧ ¬(answerPort 0 = 0 ∧ owing.fenced 33 = true) ∧
    takeFirst (fun p : Pkt => owing.portOpen 33 (portInput 0) (portPoint 0) p.vc.toNat) (owing.answersAt 33 0) =
      some (pktTo 1 2 0, []) ∧ (run (.packetInject 33 0 .answers) owing).answersAt 33 0 = [] ∧
    (moving.noteProgress 33 0 0).cmd? 33 0 0 = some { copyCmd with st := 2 } ∧
    (moving.noteProgress 33 0 0).injectStopped 33 0 { copyCmd with st := 2 } = false ∧
    0 < totalWords copyCmd.desc ∧ dOp copyCmd.desc = opCOPY ∧ dLane copyCmd.desc = 0 ∧ dReads copyCmd.desc = false ∧
    dVirtual copyCmd.desc = false ∧ (moving.noteProgress 33 0 0).mayInject 33 0 (dVc copyCmd.desc) = true ∧
    (moving.noteProgress 33 0 0).allocSound 33 0 ∧ (moving.noteProgress 33 0 0).statusFits 33 0 copyCmd = true ∧
    ((moving.noteProgress 33 0 0).readRun 33 0 256 32).2.1 = false ∧
    ((run (.packetInject 33 0 (.queue 0 0)) moving).cmd? 33 0 0).map (·.issued) = some 1 := by
  unfold State.allocSound; decide +kernel

/-- A COPY whose words have all been sent, one that is to stop, and one whose words are still to be sent. -/
def spent : Cmd := { copyCmd with st := 2, issued := 2 }

theorem test_command_end :
    (serving 0 spent).cmd? 33 0 0 = some spent ∧ (serving 0 spent).stopped = false ∧
    (serving 0 spent).preempting 33 0 = false ∧ (serving 0 spent).feedPkt 33 0 0 = none ∧ (serving 0 spent).allocSound 33 0 ∧
    (serving 0 spent).workDone 33 0 spent = true ∧ (serving 0 spent).statusFits 33 0 spent = true ∧
    (serving 0 spent).wordGood 33 32 ∧
    (run (.commandEnd 33 0 0) (serving 0 spent)).statusAt 33 0 64 = statusWord stateDone stDONE spent.progress ∧
    moving.workDone 33 0 copyCmd = false ∧ { copyCmd with stop := stABORTED }.stop = stABORTED ∧ stABORTED < 256 := by
  unfold State.allocSound State.wordGood; decide +kernel

/-- A COPY that waits for a translation of 0x5000: found (7), or failed. -/
def walking (kind : Nat) : Cmd := { copyCmd with st := 2, walk := some ⟨0x5000, 0, 0, 0, false, kind, 0x3000⟩ }

/-- It is paused, with its record saved. -/
def faulted : State := run (.xlateWalkDone 33 0 0) (serving 0 (walking 2))

theorem test_walk_done :
    (serving 0 (walking 7)).cmd? 33 0 0 = some (walking 7) ∧ (serving 0 (walking 7)).stopped = false ∧
    (walking 7).walk = some ⟨0x5000, 0, 0, 0, false, 7, 0x3000⟩ ∧
    ((run (.xlateWalkDone 33 0 0) (serving 0 (walking 7))).eng.tlb.get [] 33).length = 1 ∧
    (serving 0 (walking 2)).cmd? 33 0 0 = some (walking 2) ∧ (serving 0 (walking 2)).allocSound 33 0 ∧
    (serving 0 (walking 2)).statusFits 33 0 (walking 2) = true ∧
    (serving 0 (walking 2)).inAlloc 33 0 (256 * fld ((serving 0 (walking 2)).ctxWord 33 0 3) 11 0) 256 = true ∧
    (faulted.cmd? 33 0 0).map (fun c => (c.st, c.why)) = some (3, stXLATE_FAULT) := by
  unfold State.allocSound; decide +kernel

/-- Two pages of context 5 and one of context 6 are in the cache. -/
def cached : State :=
  { quiet with eng := { quiet.eng with tlb := quiet.eng.tlb.put 33 [⟨5, 0x50000, 16, 0⟩, ⟨5, 0x60000, 16, 0⟩, ⟨6, 0x50000, 16, 0⟩] } }

/-- An invalidation of the first. -/
def removing : State := run (.xlateInv tap 33 0x80000005) (tuned [(tileA 33 Reg.XLATE_INV_VA_LO, 0x5FFFF)] cached)

theorem test_invalidate :
    Admitted tap (tileA 33 Reg.XLATE_INV) (tuned [(tileA 33 Reg.XLATE_INV_VA_LO, 0x5FFFF)] cached) ∧
    removing.eng.tlb.get [] 33 = [⟨5, 0x60000, 16, 0⟩, ⟨6, 0x50000, 16, 0⟩] ∧
    (run (.xlateInv tap 33 0xC0000005) cached).eng.tlb.get [] 33 = [⟨6, 0x50000, 16, 0⟩] ∧
    removing.stopped = false ∧ removing.eng.inval.get 0 33 = 1 ∧ removing.localIdle 33 = true ∧
    bit ((run (.xlateInvDone 33) removing).reg (tileA 33 Reg.XLATE_INV_STAT)) 0 = true := by unfold Admitted; decide +kernel

/-- The command that the fault paused. -/
def faultedCmd : Cmd := { walking 2 with st := 3, why := stXLATE_FAULT, kind := 2, va := 0x5000 }

/-- Its record and its entry agree, and it runs on; where the record was lost, it is over. -/
theorem test_xlate_resume :
    Admitted tap (tileA 33 (Reg.SQ_CTRL 0 0)) faulted ∧ (faulted.cmd? 33 0 0).map (fun c => (c.desc, c.st, c.why, c.stop)) =
      some (copyCmd.desc, 3, stXLATE_FAULT, 0) ∧ (faulted.cmd? 33 0 0).map (fun c => c.coll) = some none ∧
    faulted.preempting 33 0 = false ∧ faulted.allocSound 33 0 ∧
    entryCheck copyCmd.desc = bitsOf (faulted.loadRecord 33 0 0).1 95 80 ∧
    dOp copyCmd.desc = bitsOf (faulted.loadRecord 33 0 0).1 103 96 ∧ (faulted.loadRecord 33 0 0).2.1 = false ∧
    ((run (.xlateResume tap 33 0 0 2) faulted).cmd? 33 0 0).map (·.st) = some 2 ∧
    dOp copyCmd.desc ≠ bitsOf ((faulted.setBytes 33 4096 (leBytes 64 0)).loadRecord 33 0 0).1 103 96 ∧
    (run (.xlateResume tap 33 0 0 2) (faulted.setBytes 33 4096 (leBytes 64 0))).cmd? 33 0 0 = none := by
  unfold Admitted State.allocSound; decide +kernel

/-- A pre-emption of slot 0 with a COPY in service, and of the slot with nothing in service. -/
def paused : State := run (.preempt tap 33 0x80000000) moving
/-- Nothing in service, all four saved. -/
def emptied : State := run (.preempt tap 33 0x80000000) quiet

theorem test_preempt :
    Admitted tap (tileA 33 Reg.PREEMPT_CTRL) moving ∧ bit (moving.reg (tileA 33 Reg.PREEMPT_STAT)) 31 = false ∧
    moving.allocSound 33 0 ∧ moving.inAlloc 33 0 (256 * fld (moving.ctxWord 33 0 3) 11 0) 256 = true ∧
    moving.cmd? 33 0 0 = some { copyCmd with st := 2 } ∧ moving.cmd? 33 0 1 = none ∧ moving.cmd? 33 0 2 = none ∧
    moving.cmd? 33 0 3 = none ∧ moving.statusFits 33 0 copyCmd = true ∧ moving.localIdle 33 = true ∧
    (paused.cmd? 33 0 0).map (fun c => (c.st, c.why, c.stop)) = some (3, stPAUSED, 0) ∧
    Admitted tap (tileA 33 Reg.PREEMPT_CTRL) paused ∧ bit (paused.reg (tileA 33 Reg.PREEMPT_STAT)) 31 = true ∧
    bit ((run (.preempt tap 33 0x80000001) paused).reg (tileA 33 Reg.PREEMPT_STAT)) 29 = true := by
  unfold Admitted State.allocSound; decide +kernel

/-- The save is done, and the slot goes on. -/
theorem test_preempt_resume :
    paused.stopped = false ∧ fld (paused.reg (tileA 33 Reg.PREEMPT_STAT)) 3 0 = 15 ∧
    bit ((run (.preemptSaveDone 33) paused).reg (tileA 33 Reg.PREEMPT_STAT)) 31 = false ∧
    Admitted tap (tileA 33 Reg.PREEMPT_CTRL) (run (.preemptSaveDone 33) paused) ∧
    ((run (.preemptResume tap 33 0x40000000) (run (.preemptSaveDone 33) paused)).cmd? 33 0 0).map (fun c => (c.st, c.why)) =
      some (2, 0) ∧
    (∀ q ∈ [0, 1, 2, 3], quiet.cmd? 33 0 q = none) ∧ fld (emptied.reg (tileA 33 Reg.PREEMPT_STAT)) 3 0 = 15 := by
  unfold Admitted; decide +kernel

/-- Slot 0 was unbound, and its range is scrubbed. -/
def freed : State := run (.ctxUnbind tap 33 0) (quiet.setBytes 33 0 [1, 2, 3])
/-- The scrub runs. -/
def scrubbing : State := run (.scrub tap 33 0x80000000) freed

theorem test_scrub :
    Admitted tap (tileA 33 Reg.SCRUB_CTRL) quiet ∧ quiet.slotValid 33 0 = true ∧
    bit ((run (.scrub tap 33 0x80000000) quiet).reg (tileA 33 Reg.TP_FLAG_STAT)) 2 = true ∧
    Admitted tap (tileA 33 Reg.SCRUB_CTRL) freed ∧ freed.slotValid 33 0 = false ∧ freed.scrubClear 33 0 = true ∧
    scrubbing.stopped = false ∧ scrubbing.trays.scrubbing.get 0 33 = 1 ∧ freed.trayByte 33 1 = 2 ∧
    scrubbing.trays.lastAlloc.get (0, 0) (64 * 33) = (0, 131072) ∧
    (run (.scrubDone 33) scrubbing).trayByte 33 1 = 0 := by unfold Admitted; decide +kernel
/-! ### Packets -/

/-- A lane flit's control word: context 5, LAST, one word, CNT, counter 3, offset 512. -/
def laneCtl : BitVec 256 := BitVec.ofNat 256 (5 + 2 ^ 12 + 2 ^ 15 + 3 * 2 ^ 16 + 512 * 2 ^ 22)

theorem test_deliveries :
    quiet.inMesh 33 = true ∧ quiet.stopped = false ∧ writePkt.ty.toNat = tyWRITE ∧ adPort writePkt.dest < 16 ∧
    quiet.unicastSlot 33 writePkt = some 0 ∧ quiet.ringCreditOf 33 0 writePkt = none ∧ quiet.landsWell 33 0 writePkt ∧
    (run (.write 33 writePkt) quiet).trayByte 33 544 = 2 ∧
    (run (.write 33 writePkt) quiet).reg (tileA 33 (Reg.CTR 0 3)) = 1 ∧ State.reset.unicastSlot 33 writePkt = none ∧
    (run (.write 33 writePkt) live).reg (rtrA 33 Reg.DISC_BAD_CNT) = 1 ∧
    { writePkt with ty := BitVec.ofNat 4 tyMC_WRITE }.ty.toNat = tyMC_WRITE ∧
    quiet.jobSlot 33 { writePkt with ty := BitVec.ofNat 4 tyMC_WRITE } = some 0 ∧ quiet.cmd? 33 0 2 = none ∧
    quiet.landsWell 33 0 { writePkt with ty := BitVec.ofNat 4 tyMC_WRITE } ∧
    live.jobSlot 33 { writePkt with ty := BitVec.ofNat 4 tyMC_WRITE } = none ∧ quiet.slotOf 33 (bitsOf laneCtl.toNat 11 0) = some 0 ∧
    quiet.inAlloc 33 0 (bitsOf laneCtl.toNat 41 22) 32 = true ∧ quiet.banksBusy 33 512 32 = false ∧ quiet.allocSound 33 0 ∧
    quiet.runGood 33 512 32 ∧ bitsOf laneCtl.toNat 45 42 ≠ 1 ∧
    (run (.laneFlit 33 2 laneCtl [7]) quiet).trayByte 33 512 = 7 := by
  unfold State.landsWell State.runGood State.allocSound State.wordGood; decide +kernel

/-- A READ_REQ of two words at offset 512. -/
def readPkt : Pkt := { pktOf tyREAD_REQ 0 [BitVec.ofNat 256 (1 * 2 ^ 48)] with tw := 512 }

/-- A GATHER-like COPY that reads: one read of two words is outstanding, SEQ 9. -/
def readCmd : Cmd :=
  { (Cmd.take (BitVec.ofNat 512 (copyEntry + fields [(20, 0x8000)])) 0) with st := 2, issued := 2, reads := [(9, 0, 2)] }
/-- In service at queue 0. -/
def reading : State :=
  { serving 0 readCmd with eng := { (serving 0 readCmd).eng with rdOut := (serving 0 readCmd).eng.rdOut.put (64 * 33) 1 } }
/-- Its answer. -/
def readRsp : Pkt := { pktOf tyREAD_RSP 0 [1, 2] with tw := 256 }
/-- Its failure, with DATA_LOSS; and a CMPL that counts. -/
def readCmpl : Pkt :=
  { pktOf tyCMPL 0 [] with cnt := false, tw := BitVec.ofNat 64 (stDATA_LOSS + 9 * 2 ^ 16 + tyREAD_REQ * 2 ^ 40) }
/-- A CMPL that counts at counter 32, with the status DATA_LOSS. -/
def countCmpl : Pkt := { pktOf tyCMPL 0 [] with ccnt := 32, tw := BitVec.ofNat 64 (stDATA_LOSS + 9 * 2 ^ 16) }

theorem test_reads :
    readPkt.ty.toNat = tyREAD_REQ ∧ quiet.unicastSlot 33 readPkt = some 0 ∧ readPkt.addr < 2 ^ 20 ∧ memWords readPkt = 2 ∧
    quiet.inAlloc 33 0 readPkt.addr 64 = true ∧ quiet.banksBusy 33 512 64 = false ∧ quiet.runGood 33 512 64 ∧
    ((run (.readReq 33 readPkt) quiet).answersAt 33 0).length = 1 := by unfold State.runGood State.wordGood; decide +kernel

theorem test_read_answers :
    reading.inMesh 33 = true ∧ reading.stopped = false ∧ adPort readRsp.dest < 16 ∧ readRsp.ctx ≠ 0 ∧
    reading.unicastSlot 33 readRsp = some 0 ∧ reading.allocSound 33 0 ∧ reading.statusFits 33 0 readCmd = true ∧
    readRsp.ty.toNat = tyREAD_RSP ∧ reading.landsWell 33 0 readRsp ∧
    reading.readOf 33 0 readRsp.tag.toNat readRsp.seq.toNat = some (0, readCmd, 0, 2) ∧
    ((run (.readRsp 33 readRsp) reading).cmd? 33 0 0).map (·.reads) = some [] ∧
    readCmpl.ty.toNat = tyCMPL ∧ readCmpl.cnt = false ∧ readCmpl.tword 43 40 = tyREAD_REQ ∧ readCmpl.tword 7 0 ≠ stDONE ∧
    reading.readOf 33 0 readCmpl.tag.toNat (readCmpl.tword 39 16) = some (0, readCmd, 0, 2) ∧
    ((run (.cmpl 33 readCmpl) reading).cmd? 33 0 0).map (·.fail) = some stDATA_LOSS ∧
    quiet.unicastSlot 33 countCmpl = some 0 ∧ countCmpl.cnt = true ∧ countCmpl.tword 43 40 ≠ tyREAD_REQ ∧
    bit ((run (.cmpl 33 countCmpl) quiet).reg (tileA 33 (Reg.CTR_ERR_HI 0))) 0 = true := by
  unfold State.landsWell State.runGood State.allocSound State.wordGood; decide +kernel

/-- A walk has asked for an entry at 0x48. -/
def asking : State :=
  serving 0 { copyCmd with st := 2, walk := some ⟨0x5000, 0, 0, 0x48, true, 0, 0⟩ }
/-- Its answer. -/
def walkRsp : Pkt := { pktOf tyREAD_RSP 0 [1] with ctx := 0 }

theorem test_walker :
    asking.inMesh 33 = true ∧ asking.stopped = false ∧ adPort walkRsp.dest < 16 ∧ walkRsp.ctx = 0 ∧
    walkRsp.tag.toNat % 64 = 0 ∧ walkRsp.tag.toNat / 64 = 0 ∧
    asking.cmd? 33 0 0 = some { copyCmd with st := 2, walk := some ⟨0x5000, 0, 0, 0x48, true, 0, 0⟩ } ∧
    ((run (.readRsp 33 walkRsp) asking).cmd? 33 0 0).map (fun c => (c.walk.map (·.asked))) = some (some false) ∧
    ((run (.cmpl 33 { walkRsp with ty := BitVec.ofNat 4 tyCMPL }) asking).cmd? 33 0 0).map (fun c => (c.walk.map (·.kind))) =
      some (some 5) := by decide +kernel

/-- A WRITE of two words to address 512 of the memory port at position 0, side west. -/
def memPkt (ty : Nat) : Pkt :=
  { pktOf ty 19 (if ty = tyREAD_REQ then [BitVec.ofNat 256 (1 * 2 ^ 48)] else [1, 2]) with
    dest := BitVec.ofNat 32 (endp 0 0 19), tw := 512 }
/-- A request of each kind is outstanding. -/
def memAsked (ty : Nat) : State := run (if ty = tyREAD_REQ then .readReq 0 (memPkt ty) else .write 0 (memPkt ty)) live
/-- It has timed out. -/
def memLate : State := let s := memAsked tyWRITE; { s with time := { s.time with edges := 10000 } }
/-- Its identifier is quarantined. -/
def memQuar : State := run (.memTimeout 0 3 0) memLate

theorem test_memory_ports :
    live.inMesh 0 = true ∧ live.stopped = false ∧ live.isMem 0 3 = true ∧ adPort (memPkt tyWRITE).dest = 16 + 3 ∧
    memWords (memPkt tyWRITE) = 2 ∧ memWords (memPkt tyREAD_REQ) = 2 ∧ (memPkt tyWRITE).addr % 32 = 0 ∧
    live.halfInReset 0 3 = false ∧ live.memRateOk 0 3 (memPkt tyWRITE) = true ∧
    live.memRateOk 0 3 (memPkt tyREAD_REQ) = true ∧ live.freeId 0 3 = some 0 ∧
    (memAsked tyWRITE).mem.reqs.find? (1024 * halfKey 0 3) = some ⟨memPkt tyWRITE, 0⟩ ∧
    (memAsked tyREAD_REQ).mem.reqs.find? (1024 * halfKey 0 3) = some ⟨memPkt tyREAD_REQ, 0⟩ ∧
    (memAsked tyWRITE).halfDeaf 0 3 = false ∧ (memAsked tyWRITE).mem.quar.contains (1024 * halfKey 0 3) = false ∧
    ((run (.memResponse 0 3 0 [5, 6] 0) (memAsked tyREAD_REQ)).answersAt 0 19).length = 1 ∧
    (run (.memResponse 0 3 0 [] 1) (memAsked tyWRITE)).reg (edgeA 0 3 Reg.MP_UE_CNT) = 1 ∧
    0 + memLate.memLimit 0 3 ≤ memLate.time.edges ∧ 0 < 0 + (memAsked tyWRITE).memLimit 0 3 ∧
    memQuar.mem.quar.contains (1024 * halfKey 0 3) = true ∧ memQuar.halfDeaf 0 3 = false ∧
    (run (.memResponse 0 3 0 [] 0) memQuar).reg (edgeA 0 3 Reg.MP_LATE_CNT) = 1 := by decide +kernel

/-- Context 5 is policed by policer 3, whose bucket is empty. -/
def policed : State :=
  tuned [(⟨64, 33, Reg.W_CTX 1 0⟩, 0x00030007), (policeCfgA 8 0 3, 0x00010001)] quiet

theorem test_host_inject :
    Config.spineRole quiet.config = false ∧ quiet.stopped = false ∧ writePkt.payload.length = writePkt.words ∧
    quiet.hostSite 0 = some (8, 0) ∧ quiet.hostAllowed 0 { writePkt with src := quiet.physEndpoint 8 16 } = false ∧
    quiet.hostAllowed 5 { writePkt with src := quiet.physEndpoint 8 16 } = true ∧
    quiet.portOpen 8 (9 + 0) (16 + 0) writePkt.vc.toNat = true ∧
    (quiet.police 8 0 { writePkt with src := quiet.physEndpoint 8 16 }).1 = true ∧
    ((run (.hostInject 0 .tenant 5 writePkt) quiet).vcb 8 9 0).buf.length +
      ((run (.hostInject 0 .tenant 5 writePkt) quiet).vcb 8 9 0).feed.length = writePkt.flits ∧
    policed.portOpen 8 9 16 1 = true ∧ policed.policerOf 8 0 5 = 3 ∧
    (policed.police 8 0 { writePkt with vc := 1, src := policed.physEndpoint 8 16 }).1 = false ∧
    (run (.hostInject 0 .tenant 5 { writePkt with vc := 1 }) policed).reg (edgeA 8 0 Reg.POLICE_DROP_CNT) = 1 := by
  decide +kernel

/-- Ring 2 of slot 0: 4 KiB (128 units) at offset 8 KiB, its status word at 64 KiB. -/
def ringState : State :=
  tuned [(tileA 33 (Reg.RING_CFG 2), 0x80000002), (tileA 33 (Reg.RING_STAT_OFF 2), 0x1000)] quiet
/-- A MSG of one word for ring 2. -/
def msgPkt : Pkt := { pktOf tyMSG 4 [7] with tw := 2 }
/-- It is reserved. -/
def msgHeld : State :=
  let s := tuned [(tileA 33 (Reg.RING_WPOS 2), 2)] ringState
  { s with msgs := { s.msgs with resv := s.msgs.resv.put (64 * 33 + 2) [⟨0, 2, 0, msgPkt, 0⟩] } }
/-- The ring is full, and the message waits. -/
def msgWaits : State := run (.msg 33 msgPkt) (tuned [(tileA 33 (Reg.RING_WPOS 2), 128)] ringState)
/-- It has waited long. -/
def msgStalls : State := { msgWaits with time := { msgWaits.time with edges := 10000000 } }
/-- The ring has been read. -/
def msgFits : State := tuned [(tileA 33 (Reg.RING_HEAD 2), 128)] msgWaits

theorem test_rings :
    Admitted tap (tileA 33 (Reg.RING_CFG 2)) quiet ∧ bit (quiet.reg (tileA 33 (Reg.RING_CFG 2))) 31 = false ∧
    quiet.ringFits 33 2 0x80000002 = true ∧ quiet.ringFits 33 2 0x800000FF = false ∧
    bit ((run (.ringEnable tap 33 2 0x800000FF) quiet).reg (tileA 33 Reg.TP_FLAG_STAT)) 0 = true ∧
    Admitted tap (tileA 33 (Reg.RING_CFG 2)) ringState ∧ bit (ringState.reg (tileA 33 (Reg.RING_CFG 2))) 31 = true ∧
    Admitted tap (tileA 33 (Reg.RING_CFG 2)) msgWaits ∧ msgWaits.waiting 33 = some msgPkt ∧ msgRing msgPkt = 2 ∧
    (run (.ringFlush tap 33 2 0) msgWaits).waiting 33 = none ∧ (run (.ringFlush tap 33 3 0) msgWaits).waiting 33 = some msgPkt ∧
    (run (.ringFlush tap 33 2 0) msgHeld).resvs 33 2 = [] ∧ Admitted tap (tileA 33 (Reg.RING_HEAD 2)) ringState ∧
    diff32 (ringState.ringC 33 2) (0xFFFFFF80 : Word).toNat ≤ ringState.ringUnits 33 2 ∧
    ringState.ringUnits 33 2 < diff32 (ringState.ringC 33 2) (0xFFFFFF7F : Word).toNat := by unfold Admitted; decide +kernel

theorem test_messages :
    ringState.inMesh 33 = true ∧ ringState.stopped = false ∧ msgPkt.ty.toNat = tyMSG ∧ ringState.waiting 33 = none ∧
    ringState.msgOk 33 msgPkt = true ∧ quiet.msgOk 33 msgPkt = false ∧ quiet.waiting 33 = none ∧
    placeSkip (ringState.ringUnits 33 2) (ringState.ringW 33 2) (ringState.ringH 33 2) (msgUnits msgPkt) = some 0 ∧
    (run (.msg 33 msgPkt) ringState).ringW 33 2 = 2 ∧ msgWaits.waiting 33 = some msgPkt ∧
    placeSkip (msgWaits.ringUnits 33 2) (msgWaits.ringW 33 2) (msgWaits.ringH 33 2) (msgUnits msgPkt) = none ∧
    placeSkip (msgFits.ringUnits 33 2) (msgFits.ringW 33 2) (msgFits.ringH 33 2) (msgUnits msgPkt) = some 0 ∧
    (run (.msgPlace 33) msgFits).waiting 33 = none ∧ msgStalls.msgs.stallFrom.get 0 33 ≠ 0 ∧
    msgStalls.msgs.stallFrom.get 0 33 - 1 + msgStalls.stallLimit 33 ≤ msgStalls.time.edges ∧
    (run (.ringStall 33) msgStalls).msgs.stallFrom.get 0 33 = 0 := by decide +kernel

theorem test_msg_commit :
    (msgHeld.resvs 33 2).map (fun v => (v.start, v.skip, v.units, v.pkt)) = [(0, 0, 2, msgPkt)] ∧
    (msgHeld.mesh.msgIn.get [] 33).contains msgPkt = false ∧ msgPkt.payload.length + 1 = 2 ∧
    msgHeld.ringUnits 33 2 = 128 ∧ msgHeld.ringStart 33 2 = 8192 ∧ (run (.msgCommit 33 2) msgHeld).resvs 33 2 = [] ∧
    (run (.msgCommit 33 2) msgHeld).ringC 33 2 = 2 ∧ (run (.msgCommit 33 2) msgHeld).trayByte 33 8224 = 7 := by decide +kernel

theorem test_msg_words : msgHeld.runGood 33 8192 4096 ∧ msgHeld.runGood 33 65536 8 :=
  have good (k : Nat) : msgHeld.wordGood 33 k := wordGood_of _ _ k (by decide +kernel) (by decide +kernel) (by decide +kernel)
  ⟨fun k _ => good k, fun k _ => good k⟩

/-- Well 1 of slot 0: 8 slots at offset 16 KiB in FP32 carry mode, its status word at 64 KiB. -/
def wellState : State := run (.wellEnable tap 33 1 0x80000007) (tuned [(tileA 33 (Reg.WELL_BASE 1), 0x10000004)] quiet)
/-- A WELL_ADD of one word of eight elements. -/
def wellPkt : Pkt := { pktOf tyWELL_ADD 4 [BitVec.ofNat 256 0x3F800000] with tw := 1 }

theorem test_wells :
    Admitted tap (tileA 33 (Reg.WELL_CFG 1)) quiet ∧ quiet.wellFits 33 1 0x80000007 = true ∧
    fld (0xB0000000 : Word) 29 28 = 3 ∧ bit ((run (.wellEnable tap 33 1 0xB0000000) quiet).wellCfg 33 1) 31 = false ∧
    live.wellFits 33 1 0x80000007 = false ∧
    bit ((run (.wellEnable tap 33 1 0x80000007) live).reg (tileA 33 Reg.TP_FLAG_STAT)) 0 = true ∧
    wellState.inMesh 33 = true ∧ wellState.stopped = false ∧ wellPkt.ty.toNat = tyWELL_ADD ∧ wellState.waiting 33 = none ∧
    wellState.wellOk 33 wellPkt = true ∧ wellPkt.payload.length = wellPkt.words ∧ wellState.runGood 33 16384 128 ∧
    wellState.runGood 33 65536 8 ∧ quiet.wellOk 33 wellPkt = false ∧
    (run (.wellAddPacket 33 wellPkt) wellState).trays.wellDone.get 0 (16 * 33 + 1) = 8 := by
  unfold Admitted State.runGood State.wordGood; decide +kernel
/-! ### Reducers and collectives -/

/-- A PARTIAL of 16 carry words with a TAG, a number of contributions and a signature. -/
def partOf (tag n sig : Nat) : Pkt :=
  { pktOf tyPARTIAL 3 [0, 0, 0, 0] with
    vc := 2, tag := BitVec.ofNat 16 tag, mask := BitVec.ofNat 32 n, tw := BitVec.ofNat 64 (sig + 7 * 2 ^ 48) }

/-- Reducer 33 has a tree entry at index 0. -/
def redState (e : Word) : State := tuned [(redEntA 33 0, e)] quiet

/-- A first contribution is held. -/
def redHeld : State := run (.partialPkt 33 (partOf 0 1 7)) (redState 0x80000003)

theorem test_reducer :
    quiet.inMesh 33 = true ∧ (partOf 0 1 7).ty.toNat = tyPARTIAL ∧ quiet.stopped = false ∧ redIndex (partOf 0 1 7).tag = 0 ∧
    bit ((redState 0x80000003).reg (redEntA 33 0)) 31 = true ∧ (redState 0x80000003).flt.retired.contains (5, 33) = false ∧
    bit (quiet.reg (redEntA 33 0)) 31 = false ∧ bit ((redState 0x88000003).reg (redEntA 33 0)) 27 = true ∧
    (run (.partialPkt 33 (partOf 0 1 7)) (redState 0x88000003)).reg (rtrA 33 Reg.DISC_BAD_CNT) = 1 ∧
    opFmtOk (partialOp (partOf 0 1 7)) (partialFmt (partOf 0 1 7)) = true ∧ partialFmt (partOf 0 1 7) ≤ 7 ∧
    offsetOk (partOf 0 1 7) = true ∧ offsetOk { partOf 0 1 7 with tw := 2 ^ 32 } = false := by decide +kernel

theorem test_reducer_merges :
    (redState 0x80000003).redCause 33 (partOf 0 4 7) = some 3 ∧ (redState 0x80000003).redCause 33 (partOf 0 1 7) = none ∧
    (redState 0x80000003).redRoom 33 (redMode 0x80000003) (partOf 0 1 7) = true ∧
    (∀ g ∈ partialGroups (redMode 0x80000003) (partOf 0 1 7), (redState 0x80000003).slotFor 33 0 g.1 = none) ∧
    contrib (partOf 0 1 7) < fld (0x80000003 : Word) 20 0 ∧ (partialGroups (redMode 0x80000003) (partOf 0 1 7)).length = 1 ∧
    redHeld.redSlots.map (fun kv => (kv.1, kv.2.count)) = [(32 * 33, 1)] ∧
    redHeld.redCause 33 (partOf 0 1 7) = none ∧ redHeld.redRoom 33 (redMode 0x80000003) (partOf 0 1 7) = true ∧
    (redHeld.slotFor 33 0 0).map (·.2.count) = some 1 ∧
    1 + contrib (partOf 0 1 7) < fld (0x80000003 : Word) 20 0 ∧ 1 + contrib (partOf 0 2 7) = fld (0x80000003 : Word) 20 0 ∧
    (run (.partialPkt 33 (partOf 0 2 7)) redHeld).redSlots = [] := by decide +kernel

/-- Every slot of reducer 33 is in use. -/
def redFull : State :=
  { redState 0x80000003 with redSlots := (List.range 32).map fun i =>
      (32 * 33 + i, ⟨5, 100 + i, partOf 5 1 7, [], 1, [], 0, 0⟩) }

theorem test_reducer_full :
    redFull.redCause 33 (partOf 0 1 7) = none ∧ redFull.redRoom 33 (redMode 0x80000003) (partOf 0 1 7) = false ∧
    (run (.partialPkt 33 (partOf 0 1 7)) redFull).redSlots.length = 32 := by decide +kernel

/-- A slot has waited long; the reducer of 33 and its index 0 are selected. -/
def redOld : State :=
  { (tuned [(dieA Reg.RED_SEL, 0x00210000)] redFull) with ticks := 10000000 }

theorem test_reducer_entries :
    Admitted tap (dieA Reg.RED_TREE) redOld ∧ redOld.redSelPos = 33 ∧ redOld.dieF Reg.RED_SEL 5 0 = 0 ∧
    redOld.inMesh 33 = true ∧ fld (0x80000003 : Word) 30 29 ≠ 3 ∧ fld (0x80100000 : Word) 20 0 = 1048576 ∧
    fld (0x80100001 : Word) 20 0 = 1048577 ∧ fld (0x80000000 : Word) 20 0 = 0 ∧
    (run (.redTreeEnable tap 0x00000003) redOld).reg (redEntA 33 0) = 0x80000003 ∧
    bit ((run (.redTreeEnable tap 0) redOld).reg (redEntA 33 0)) 31 = false ∧
    (redOld.redSlots.find? (32 * 33 + 31)).map (·.born) = some 0 ∧
    0 + redOld.flushLimit 33 ≤ redOld.cycle := by unfold Admitted; decide +kernel

/-! #### Arms, deadlines and staging -/

/-- A collective command of `collEntry` in service at position 33, RUNNING. -/
def collCmd (op : Nat) : Cmd :=
  { (Cmd.take (BitVec.ofNat 512 (collEntry op)) 0) with st := 2, coll := some (Coll.start 4 1 0) }

/-- In service. -/
def agentState (op : Nat) : State := group (serving 2 (collCmd op))

/-- Index 4 is selected, its registers name COLL_ID 9, record 3 and context 5, and the tiles hold no copy. -/
def armable : State :=
  let s := group (tuned [(dieA Reg.COLL_SEL, 4)] quiet)
  { s with eng := { s.eng with arms := s.eng.arms.put 4 ⟨9, 3, 5, false⟩, copies := [] } }

/-- Armed already. -/
def armed : State := tuned [(dieA Reg.COLL_SEL, 4)] (group quiet)

/-- Armed, and in use. -/
def armedBusy : State := tuned [(dieA Reg.COLL_SEL, 4)] (agentState opALLREDUCE)

theorem test_arm :
    Admitted tap (dieA Reg.COLL_ARM_CTRL) armable ∧ armable.masterRuns = true ∧ armable.collSel = 4 ∧ armable.armCode 4 = 0 ∧
    (armable.collRec (armable.arm 4).treeNo).isSome = true ∧
    ((run (.collArm tap 0) armable).eng.copies.map (·.1)) = [64 * 33 + 4, 64 * 34 + 4] ∧
    Admitted tap (dieA Reg.COLL_ARM_CTRL) quiet ∧ quiet.masterRuns = true ∧ quiet.armCode quiet.collSel = 1 ∧
    Admitted tap (dieA Reg.COLL_ARM_CTRL) armedBusy ∧ armedBusy.masterRuns = true ∧ armedBusy.indexBusy armedBusy.collSel = true ∧
    Admitted tap (dieA Reg.COLL_ARM_CTRL) armed ∧ armed.indexBusy armed.collSel = false ∧
    (run (.collDisarm tap 0) armed).eng.copies = [] := by unfold Admitted; decide +kernel

theorem test_coll_abort :
    Admitted tap (dieA Reg.COLL_ABORT_CTRL) (tuned [(dieA Reg.COLL_ABORT_ID, 9)] armedBusy) ∧
    armedBusy.cmd? 33 0 2 = some (collCmd opALLREDUCE) ∧ dOp (collCmd opALLREDUCE).desc ≠ opTRIGGER ∧
    dPeer (collCmd opALLREDUCE).desc = ((tuned [(dieA Reg.COLL_ABORT_ID, 9)] armedBusy).die Reg.COLL_ABORT_ID).toNat ∧
    (run (.collAbort tap 0x80000000) (tuned [(dieA Reg.COLL_ABORT_ID, 9)] armedBusy)).cmd? 33 0 2 = none := by
  unfold Admitted; decide +kernel

/-- A step of chunk 0 is due at NOW_DL 10. -/
def dueColl : Coll := { Coll.start 4 1 0 with due := [(0, 11)] }
/-- In service. -/
def dueState (nt : Nat) : State :=
  { group (serving 2 { collCmd opALLREDUCE with coll := some dueColl }) with
    time := { quiet.time with nt := BitVec.ofNat 64 (512 * nt) } }

theorem test_step_timeout :
    (dueState 11).stopped = false ∧ (dueState 11).cmd? 33 0 2 = some { collCmd opALLREDUCE with coll := some dueColl } ∧
    (dueState 11).allocSound 33 0 ∧ dueColl.due.any (fun x => (dueState 11).duePassed x.2) = true ∧
    (run (.stepTimeout 33 0) (dueState 11)).cmd? 33 0 2 = none ∧
    dueColl.due.any (fun x => (dueState 10).duePassed x.2) = false ∧
    dueColl.stageDue.any (fun x => (dueState 10).duePassed x.2) = false := by unfold State.allocSound; decide +kernel

/-- The signature of the ALLREDUCE. -/
def goodSig : Nat := (signatureOf (collCmd opALLREDUCE).desc).toNat

/-- The root member's agent. -/
theorem test_subroot :
    quiet.slotOf 33 (partOf 4096 1 0).ctx.toNat = some 0 ∧ live.slotOf 33 (partOf 4096 1 0).ctx.toNat = none ∧
    (agentState opALLREDUCE).inMesh 33 = true ∧ (agentState opALLREDUCE).stopped = false ∧
    (agentState opALLREDUCE).slotOf 33 (partOf 4096 1 goodSig).ctx.toNat = some 0 ∧
    ((agentState opALLREDUCE).partialAgent 33 0 (partOf 4096 1 goodSig)).map (·.cmd) = some (collCmd opALLREDUCE) ∧
    modeTakes (cMode (collCmd opALLREDUCE).desc) (partialFmt (partOf 4096 1 goodSig)) = true ∧
    partialSig (partOf 4096 1 goodSig) = goodSig ∧ partialSig (partOf 4096 1 (goodSig ^^^ 1)) ≠ goodSig ∧
    ((run (.subrootPartial 33 (partOf 4096 1 (goodSig ^^^ 1))) (agentState opALLREDUCE)).cmd? 33 0 2).map (·.stop) =
      some stSIG_MISMATCH := by decide +kernel

theorem test_subroot_stages :
    fullChunk 0 ((partOf 4096 1 goodSig).tag.toNat % 1024) = some 0 ∧ redIndex (partOf 4096 1 goodSig).tag - 4 = 0 ∧
    cNroot (collCmd opALLREDUCE).desc = 1 ∧ 0 < chunkCount (collCmd opALLREDUCE).desc ∧
    ((agentState opALLREDUCE).partialAgent 33 0 (partOf 4096 1 goodSig)).map (fun a => (a.roots 33 0, a.coll.shared, a.coll.stage)) =
      some (true, [], []) ∧ (agentState opALLREDUCE).statusFits 33 0 (collCmd opALLREDUCE) = true ∧
    ((((agentState opALLREDUCE).takeIntake 33 3 (partOf 4096 1 goodSig)).stageFlit 33 0 0 (partOf 4096 1 goodSig)).agent? 33 0).map
      (·.rcd) = ((agentState opALLREDUCE).partialAgent 33 0 (partOf 4096 1 goodSig)).map (·.rcd) ∧
    1 < stageGroups (collCmd opALLREDUCE).desc 0 := by decide +kernel

theorem test_subroot_words (w : Nat) : (agentState opALLREDUCE).wordGood 33 w :=
  wordGood_of _ _ _ (by decide +kernel) (by decide +kernel) (by decide +kernel)

/-! #### Rings, wash beats and barriers -/

/-- A RING_PASS in service; its first block has come where `run` is 1, and its client has freed one chunk. -/
def ringPass (k : Coll) : State :=
  (group (serving 2 { collCmd opRING_PASS with coll := some k })).setBytes 33 32768 [1]

/-- A RING_BLOCK of one word at the start of the double buffer. -/
def ringPkt : Pkt := { pktOf tyRING_BLOCK 0 [7] with cnt := false, cmplReq := false }

theorem test_ring_block :
    quiet.unicastSlot 33 ringPkt = some 0 ∧ quiet.ringAgent 33 0 = none ∧ ringPkt.ty.toNat = tyRING_BLOCK ∧
    (ringPass (Coll.start 4 1 0)).unicastSlot 33 ringPkt = some 0 ∧
    ((ringPass (Coll.start 4 1 0)).ringAgent 33 0).map (fun a => (a.cmd.desc, a.coll)) =
      some ((collCmd opRING_PASS).desc, Coll.start 4 1 0) ∧
    ringPkt.tword 25 0 = 0 ∧ 0 + 32 ≤ 2 * cChunk (collCmd opRING_PASS).desc ∧ ringPkt.payload.length = ringPkt.words ∧
    (ringPass (Coll.start 4 1 0)).inAlloc 33 0 (dFar (collCmd opRING_PASS).desc) 32 = true ∧
    (ringPass (Coll.start 4 1 0)).allocSound 33 0 ∧ (ringPass (Coll.start 4 1 0)).statusFits 33 0 (collCmd opRING_PASS) = true ∧
    ((((ringPass (Coll.start 4 1 0)).takeIntake 33 0 ringPkt).landWords 33 0 (dFar (collCmd opRING_PASS).desc) swMesh [7]).2.agent?
      33 0).map (·.rcd) = ((ringPass (Coll.start 4 1 0)).ringAgent 33 0).map (·.rcd) ∧
    (ringPass (Coll.start 4 1 0)).runGood 33 16384 32 ∧
    (run (.ringBlock 33 ringPkt) (ringPass (Coll.start 4 1 0))).trayByte 33 16384 = 7 := by
  unfold State.allocSound State.runGood State.wordGood; decide +kernel

/-- Two chunks were sent, and a credit for the first comes over a lane. -/
def creditCtl : BitVec 256 := BitVec.ofNat 256 (5 + 2 ^ 42 + 2 ^ 46 + 1 * 2 ^ 47)

theorem test_ring_credit :
    bitsOf creditCtl.toNat 45 42 = 1 ∧ creditCtl.toNat.testBit 46 = true ∧
    (ringPass { Coll.start 4 1 0 with sent := 2 }).slotOf 33 (bitsOf creditCtl.toNat 11 0) = some 0 ∧
    fullNumber 0 (bitsOf creditCtl.toNat 70 47) = 1 ∧
    ((run (.ringCredit 33 2 creditCtl) (ringPass { Coll.start 4 1 0 with sent := 2 })).cmd? 33 0 2).bind
      (fun c => c.coll.map (·.credit)) = some 1 ∧
    ((ringPass { Coll.start 4 1 0 with sent := 2, credit := 2 }).ringAgent 33 0).map (·.coll.credit) = some 2 := by
  decide +kernel

theorem test_ring_free :
    ((ringPass { Coll.start 4 1 0 with run := 1 }).ringAgent 33 0).map (fun a => (a.coll.freed, a.coll.run, a.cmd.st, a.cmd.stop,
      a.rcd.members.length - 2)) = some (0, 1, 2, 0, 0) ∧
    0 < (ringPass { Coll.start 4 1 0 with run := 1 }).ringAck 33 0 (collCmd opRING_PASS).desc ∧
    ((run (.ringChunkFree 33 0 0) (ringPass { Coll.start 4 1 0 with run := 1 })).cmd? 33 0 2).bind
      (fun c => c.coll.map (·.freed)) = some 1 := by decide +kernel

/-- Landing 2 takes the beats of job 7 into slot 0; a beat of landing 2 at offset 512. -/
def landing : State := tuned [(washLandA 33 2, 0x80000000)] quiet
/-- A beat. -/
def beatOf (job : Nat) : List DataWord := [1, 2, 3, 4, BitVec.ofNat 256 (job + 2 * 2 ^ 16 + 4 * 2 ^ 20)]
/-- A beat waits at the tap, for a bank that is being zeroed. -/
def tapped : State :=
  let s := tuned [(tileA 33 Reg.TRAY_BANK_STAT, 0xFFFF)] landing
  { s with eng := { s.eng with taps := s.eng.taps.put 33 [beatOf 7] } }

theorem test_wash_beats :
    landing.inMesh 33 = true ∧ landing.isSpare 33 = false ∧ (beatOf 7).length = 5 ∧ landing.fenced 33 = false ∧
    landing.eng.taps.get [] 33 = [] ∧ landing.tapSlot 33 ((beatOf 8).getD 4 0).toNat = none ∧ landing.washCut 33 = false ∧
    landing.tapSlot 33 ((beatOf 7).getD 4 0).toNat = some 0 ∧ landing.tapFree 33 (beatOf 7) = true ∧
    landing.cmd? 33 0 2 = none ∧ landing.allocSound 33 0 ∧ landing.runGood 33 512 128 ∧
    (run (.washBeat 33 (beatOf 7)) landing).trayByte 33 544 = 2 ∧
    tapped.eng.taps.get [] 33 = [beatOf 7] ∧ tapped.tapFree 33 (beatOf 7) = false ∧
    tapped.tapSlot 33 ((beatOf 7).getD 4 0).toNat = some 0 ∧ tapped.washCut 33 = false ∧
    (run (.washBeat 33 (beatOf 7)) tapped).eng.taps.get [] 33 = [beatOf 7, beatOf 7] := by
  unfold State.allocSound State.runGood State.wordGood; decide +kernel

/-- A barrier entry at position 33, index 4, that expects two arrivals and releases the tile. -/
def barState (count : Nat) (s : State) : State :=
  tuned [(barLoA 33 4, 2), (barHiA 33 4, 0x80020000), (barCountA 33 4, BitVec.ofNat 32 count)] s
/-- One arrival of signature 7 has been counted. -/
def barOne : State :=
  let s := barState 1 quiet
  { s with eng := { s.eng with barSig := s.eng.barSig.put (64 * 33 + 4) 8 } }
/-- An arrival, a combined arrival or a release with a signature; ERR in byte 8. -/
def barFlit (ty sig err nt : Nat) : SFlit :=
  { flitOf ty with tag := 4, body := BitVec.ofNat 256 ((if ty = 7 then nt + err * 2 ^ 64 else 1) + sig * 2 ^ 96) }

theorem test_barrier_counts :
    quiet.inMesh 33 = true ∧ quiet.stopped = false ∧ (barFlit 5 7 0 0).stype.toNat = 5 ∧ (barFlit 6 7 0 0).stype.toNat = 6 ∧
    (barFlit 5 7 0 0).tag.toNat % 64 = 4 ∧ bit ((barState 0 quiet).reg (barHiA 33 4)) 31 = true ∧
    bit (quiet.reg (barHiA 33 4)) 31 = false ∧ (barState 0 quiet).eng.barSig.get 0 (64 * 33 + 4) = 0 ∧
    ((barState 0 quiet).reg (barCountA 33 4)).toNat + (barFlit 5 7 0 0).field 0 4 % 2 ^ 21 < ((barState 0 quiet).reg (barLoA 33 4)).toNat ∧
    (run (.barArrive 33 (barFlit 5 7 0 0)) (barState 0 quiet)).reg (barCountA 33 4) = 1 ∧
    (run (.barCombined 33 (barFlit 6 7 0 0)) (barState 0 quiet)).eng.barSig.get 0 (64 * 33 + 4) = 8 ∧
    barOne.eng.barSig.get 0 (64 * 33 + 4) - 1 = (barFlit 5 7 0 0).field 12 4 ∧
    fld (barOne.reg (barHiA 33 4)) 9 0 = (barFlit 5 7 0 0).tag.toNat / 64 ∧
    (barOne.reg (barLoA 33 4)).toNat ≤ (barOne.reg (barCountA 33 4)).toNat + (barFlit 5 7 0 0).field 0 4 % 2 ^ 21 ∧
    (run (.barArrive 33 (barFlit 5 7 0 0)) barOne).reg (barCountA 33 4) = 0 ∧
    barOne.eng.barSig.get 0 (64 * 33 + 4) - 1 ≠ (barFlit 5 9 0 0).field 12 4 ∧
    (run (.barArrive 33 (barFlit 5 9 0 0)) barOne).eng.barSig.get 0 (64 * 33 + 4) = 2 ^ 33 := by decide +kernel

/-- A BARRIER waits for its release; its wave is at an NT. -/
def barWaits (wave : Option Nat) : State :=
  barState 0 (group (serving 2 { collCmd opBARRIER with coll := some { Coll.start 4 1 0 with sent := 1, wave := wave } }))

theorem test_barrier_release :
    (barWaits none).inMesh 33 = true ∧ (barWaits none).stopped = false ∧ (barFlit 7 0 0 500).stype.toNat = 7 ∧
    bit ((barWaits none).reg (barHiA 33 4)) 31 = true ∧ bit ((barWaits none).reg (barHiA 33 4)) 17 = true ∧
    ((barWaits none).eng.copies.find? (64 * 33 + 4)).map (·.gen) = some 0 ∧
    ((barWaits none).agent? 33 0).map (fun a => (dOp a.cmd.desc, a.coll.index, a.coll.sent, a.coll.wave, a.cmd.stop)) =
      some (opBARRIER, 4, 1, none, 0) ∧ (barFlit 7 0 0 500).field 8 1 = 0 ∧ (barFlit 7 0 stTIMEOUT 500).field 8 1 ≠ 0 ∧
    (((run (.barRelease 33 (barFlit 7 0 0 500)) (barWaits none)).cmd? 33 0 2).bind fun c => c.coll.map (·.wave.isSome)) =
      some true ∧
    ((run (.barRelease 33 (barFlit 7 0 stTIMEOUT 500)) (barWaits none)).cmd? 33 0 2).map (·.stop) = some stTIMEOUT := by
  decide +kernel

theorem test_barrier_wave :
    ((barWaits (some 0)).agent? 33 0).map (fun a => (a.coll.wave, dOp a.cmd.desc, a.cmd.st, a.cmd.stop)) =
      some (some 0, opBARRIER, 2, 0) ∧ (barWaits (some 0)).stopped = false ∧ (barWaits (some 0)).allocSound 33 0 ∧
    0 ≤ (barWaits (some 0)).ntNat ∧ (run (.barrierWave 33 0) (barWaits (some 0))).cmd? 33 0 2 = none ∧
    (barWaits (some 1)).ntNat < 1 ∧ run (.barrierWave 33 0) (barWaits (some 1)) = barWaits (some 1) := by
  unfold State.allocSound; decide +kernel
/-! ### Trays -/

/-- The clients of the tiles are released, in MODE START_UP; the bytes at 512 of position 33 are 1 to 32. -/
def open' : State := { (tuned boundRegs cores).setBytes 33 512 ((List.range 32).map fun i => BitVec.ofNat 8 (i + 1)) with release := true }
/-- The same in MODE RUN. -/
def openRun : State := tuned [(dieA Reg.BRINGUP_STAT, 0x92000000)] open'

/-- What the processor port of position 33 answered. -/
def answerOf (s : State) : Option (List Byte × Bool) := s.trays.tppRsp.head?.map fun r => (r.data, r.err)

/-- A closed port. -/
theorem test_tpp_refuses :
    quiet.tppOpen 33 = false ∧ (tppOf (.tppRead 33 .tenant 0 512 32 1)).isSome = true ∧
    run (.tppRead 33 .tenant 0 512 32 1) quiet = quiet := by decide +kernel

/-- An address of no window, a length or alignment that its window does not take, the last word of the tray and one past it,
the last word that a Tenant reaches and the next, and a command of another window's kind. -/
theorem test_tpp_reach :
    open'.tppOpen 33 = true ∧
    open'.tppShape 0x600000 4 = false ∧ open'.tppShape 512 16 = false ∧ open'.tppShape 516 32 = false ∧
    open'.tppShape (524288 - 32) 32 = true ∧ open'.tppShape 524288 32 = false ∧
    open'.tppReach 33 .tenant 0 (tppWindow (131072 - 32)) (131072 - 32) 32 = true ∧
    open'.tppReach 33 .tenant 0 (tppWindow 131072) 131072 32 = false ∧ open'.tppShape 131072 32 = true ∧
    answerOf (run (.tppRead 33 .tenant 0 131072 32 1) open') = some (zeros 32, true) ∧
    (tppOf (.tppTake 33 .supervisor 0 512 1)).map (·.2.2.2.2.2.2) = some false ∧
    answerOf (run (.tppTake 33 .supervisor 0 512 1) open') = some (zeros 32, true) := by decide +kernel

/-- Plain accesses, and a completion counter. -/
theorem test_tpp_plain :
    tppWindow 512 = .plain ∧ open'.tppGood 33 .tenant 0 512 32 ∧
    answerOf (run (.tppRead 33 .tenant 0 512 32 1) open') = some ((List.range 32).map (fun i => BitVec.ofNat 8 (i + 1)), false) ∧
    (List.replicate 32 (9 : Byte)).length = 32 ∧
    (run (.tppWrite 33 .tenant 0 512 32 1 2 (List.replicate 32 9)) open').trayBytes 33 512 3 = [1, 9, 3] ∧
    tppWindow 0x500104 = .counter 1 1 ∧ tppWindow 0x50000C = .counter 0 3 ∧ open'.tppShape 0x50000C 4 = true ∧
    open'.tppReach 33 .tenant 0 (tppWindow 0x50000C) 0x50000C 4 = true ∧
    open'.tppReach 33 .tenant 0 (tppWindow 0x500104) 0x500104 4 = false := by
  unfold State.tppGood State.runGood State.wordGood; decide +kernel

/-- The bit windows and TAKE. -/
theorem test_tpp_bits :
    tppWindow 0x100200 = .bitSet ∧ tppWindow 0x200200 = .bitClear ∧ tppWindow 0x300200 = .take ∧
    open'.tppGood 33 .tenant 0 0x100200 8 ∧ open'.tppGood 33 .tenant 0 0x200200 8 ∧ open'.tppGood 33 .tenant 0 0x300200 32 ∧
    (run (.tppBitSet 33 .tenant 0 0x100200 1 0x80) open').trayByte 33 512 = 0x81 ∧
    (run (.tppBitClear 33 .tenant 0 0x200200 1 0x0200) open').trayByte 33 513 = 0 ∧
    (run (.tppTake 33 .tenant 0 0x300200 1) open').trayByte 33 540 = 0 ∧
    (answerOf (run (.tppTake 33 .tenant 0 0x300200 1) open')).map (·.1.length) = some 32 := by
  unfold State.tppGood State.runGood State.wordGood; decide +kernel

/-- ROTATE, which MODE RUN denies. -/
theorem test_tpp_rotate :
    tppWindow 0x400203 = .rotate ∧ open'.tppGood 33 .tenant 0 0x400203 5 ∧ open'.mode = 0 ∧ ([6, 7, 8, 9, 10] : List Byte).length = 5 ∧
    answerOf (run (.tppRotate 33 .tenant 0 0x400203 5 1 false []) open') = some ([4, 5, 6, 7, 8], false) ∧
    (run (.tppRotate 33 .tenant 0 0x400203 5 1 true [6, 7, 8, 9, 10]) open').trayByte 33 519 = 10 ∧
    openRun.tppGood 33 .tenant 0 0x400203 5 ∧ openRun.mode = 1 ∧
    answerOf (run (.tppRotate 33 .tenant 0 0x400203 5 1 false []) openRun) = some (zeros 5, true) := by
  unfold State.tppGood State.runGood State.wordGood; decide +kernel

/-- Bank 0 of position 33 goes Off, and returns. -/
def bankOffed : State := run (.trayBankCtrlWrite tap 33 2) open'

theorem test_banks :
    Admitted tap (tileA 33 Reg.TRAY_BANK_CTRL) open' ∧ bankOffed.bankState 33 0 = 2 ∧ bankOffed.trayByte 33 512 = 0 ∧
    (run (.trayBankCtrlWrite tap 33 3) open').bankState 33 0 = 0 ∧ Admitted tap (tileA 33 Reg.TRAY_BANK_CTRL) bankOffed ∧
    (run (.trayBankCtrlWrite tap 33 0) bankOffed).bankBusy 33 0 = true ∧
    (run (.trayBankCtrlWrite tap 33 0) bankOffed).stopped = false ∧
    (run (.bankInitDone 33 0) (run (.trayBankCtrlWrite tap 33 0) bankOffed)).bankBusy 33 0 = false ∧
    (tuned [(tileA 33 Reg.TRAY_STARVE_LIMIT, 1)] open').stopped = false ∧ open'.inMesh 33 = true ∧
    fld ((tuned [(tileA 33 Reg.TRAY_STARVE_LIMIT, 1)] open').reg (tileA 33 Reg.TRAY_STARVE_LIMIT)) 15 0 ≠ 0 ∧
    bit ((run (.trayStarve 33 15) (tuned [(tileA 33 Reg.TRAY_STARVE_LIMIT, 1)] open')).reg (tileA 33 Reg.TRAY_STARVE_STAT)) 15 = true := by
  unfold Admitted; decide +kernel
/-! ### Spine ports -/

/-- Lanes 0 to 7 without a spare. -/
def agr7 : BitVec 256 := agrOf 3 false [0, 1, 2, 3, 4, 5, 6, 7] 15 0x32

/-- ACTIVE. -/
def serves : State := spineAt spACTIVE port8 group8
/-- ACTIVE with no spare. -/
def lean7 : State := spineAt spACTIVE { SpPort.empty with agr := agr7 } group8

/-- Signal comes; a lane locks with others still to lock, and as the last; signal is lost. -/
theorem test_lanes_train :
    live.groupRuns 0 ∧ live.spCircuit 0 = false ∧ 5 ∈ live.portLanes 0 0 ∧ live.spPorts 0 = 1 ∧
    (spineAt spWAIT_PMA SpPort.empty SpGroup.empty).spState 0 0 = spWAIT_PMA ∧
    (spineAt spWAIT_PMA SpPort.empty SpGroup.empty).laneUsable 0 5 = true ∧
    (run (.pmaLock 0 5) (spineAt spWAIT_PMA SpPort.empty SpGroup.empty)).spState 0 0 = spLOCK ∧
    (spineAt spLOCK SpPort.empty group8).spState 0 0 = spLOCK ∧ 5 ∈ (spineAt spLOCK SpPort.empty group8).trainLanes 0 0 ∧
    (run (.laneCodewordLock 0 5) (spineAt spLOCK SpPort.empty { group8 with locked := 0x1DF })).spState 0 0 = spIDENT ∧
    (run (.laneCodewordLock 0 5) (spineAt spLOCK SpPort.empty { group8 with locked := 0 })).spState 0 0 = spLOCK ∧
    SpGroup.empty.sig.testBit 5 = false ∧ serves.spState 0 0 = spACTIVE ∧ serves.portOfLane 0 5 = some 0 ∧
    (agrMask port8.agr).testBit 5 = true ∧ (run (.laneLost 0 5) serves).spState 0 0 = spLOCK := by
  unfold State.groupRuns; decide +kernel

/-- A relock is due; the engine answers, or it does not. -/
def relocking (oe : Word) (n : Nat) : State :=
  atEdge 10000 (tuned [(sp0 Reg.OE_STAT, oe), (sp0 (Reg.LANE_STAT 5), BitVec.ofNat 32 (n * 2 ^ 12))]
    (spineAt spIDENT SpPort.empty { group8 with relock := [(5, 1)] }))

theorem test_relock :
    (relocking 0x80000000 2).groupRuns 0 ∧ (relocking 0x80000000 2).spCircuit 0 = false ∧
    (relocking 0x80000000 2).portOfLane 0 5 = some 0 ∧ ((relocking 0x80000000 2).spGroup 0).relock.get 0 5 = 1 ∧
    1 + 9999 ≤ (relocking 0x80000000 2).time.edges ∧ (relocking 0x80000000 2).oeBlind 0 = false ∧
    fld ((relocking 0x80000000 2).spReg 0 (Reg.LANE_STAT 5)) 15 12 < 3 ∧
    fld ((run (.relockTimeout 0 5) (relocking 0x80000000 2)).spReg 0 (Reg.LANE_STAT 5)) 15 12 = 3 ∧
    (relocking 0 2).oeBlind 0 = true ∧ (run (.relockTimeout 0 5) (relocking 0 2)).laneUsable 0 5 = false := by
  unfold State.groupRuns; decide +kernel

/-- Locking has taken 1 ms; training has taken its limit. -/
def slow (st locked : Nat) : State := atEdge 10000000 (spineAt st SpPort.empty { group8 with locked := locked })

/-- An IDENT of version 3 from port 0, group 4 of die 7, lane 5, seen. -/
def identOf (version lane : Nat) : BitVec 256 :=
  BitVec.ofNat 256 (version * 2 ^ 55 + lane * 2 ^ 16 + 7 * 2 ^ 25 + 4 * 2 ^ 42 + 2 ^ 59)

theorem test_lock_and_ident :
    live.portRuns 0 0 ∧ (slow spLOCK 0).spCircuit 0 = false ∧ (slow spLOCK 0).spState 0 0 = spLOCK ∧
    ((slow spLOCK 0).spPort 0 0).lockFrom + 100000 ≤ (slow spLOCK 0).time.edges ∧
    (∀ l ∈ (slow spLOCK 0).trainLanes 0 0, ((slow spLOCK 0).spGroup 0).locked.testBit l = false) ∧
    fld ((run (.lockTimeout 0 0) (slow spLOCK 0)).spReg 0 (Reg.SP_PORT_STAT 0)) 15 8 = 1 ∧
    5 ∈ (slow spLOCK 32).trainLanes 0 0 ∧ ((slow spLOCK 32).spGroup 0).locked.testBit 5 = true ∧
    (run (.lockTimeout 0 0) (slow spLOCK 32)).spState 0 0 = spIDENT ∧
    (slow spLOCK 0).spTrains 0 0 = true ∧ 0 + (slow spLOCK 0).trainLimit 0 ≤ (slow spLOCK 0).time.edges ∧
    fld ((run (.trainLimit 0 0) (slow spLOCK 0)).spReg 0 (Reg.SP_PORT_STAT 0)) 15 8 = 0x0B ∧
    (slow spIDENT 32).spState 0 0 = spIDENT ∧ 5 ∈ (slow spIDENT 32).trainLanes 0 0 := by
  unfold State.portRuns; decide +kernel

/-- The expected partner is another. -/
def wrongPartner : State := tuned [(sp0 (Reg.SP_PARTNER_EXP 0), 0x00020001)] (slow spIDENT 32)

theorem test_ident :
    bitsOf (identOf 2 5).toNat 58 55 ≠ 3 ∧ bitsOf (identOf 3 5).toNat 58 55 = 3 ∧
    bit (wrongPartner.spReg 0 (Reg.SP_PARTNER_EXP 0)) 17 = true ∧
    partnerIs (wrongPartner.spReg 0 (Reg.SP_PARTNER_EXP 0)) (identOf 3 5) = false ∧
    (run (.ident 0 0 5 (identOf 3 5)) wrongPartner).spState 0 0 = spFAILED ∧
    fld ((run (.ident 0 0 5 (identOf 2 5)) wrongPartner).spReg 0 (Reg.SP_PORT_STAT 0)) 15 8 = 3 ∧
    bit ((slow spIDENT 32).spReg 0 (Reg.SP_PARTNER_EXP 0)) 17 = false ∧
    (spineAt spIDENT SpPort.empty { SpGroup.empty with locked := 32 }).laneTaken 0 5 (identOf 3 5) = false ∧
    SpGroup.empty.wlLock.testBit 5 = false ∧
    (run (.ident 0 0 5 (identOf 3 5)) (spineAt spIDENT SpPort.empty { SpGroup.empty with locked := 32 })).spState 0 0 =
      spNEGOTIATE := by decide +kernel

/-- A CAP that permits every width, and one that permits none. -/
def capOf (widths : Nat) : BitVec 256 := BitVec.ofNat 256 (widths * 2 ^ 24 + 2 * 2 ^ 16)
/-- The port negotiates with a CAP received. -/
def bargains : State := spineAt spNEGOTIATE { port8 with cap := some (capOf 15) } group8

theorem test_negotiate :
    bargains.portRuns 0 0 ∧ bargains.spState 0 0 = spNEGOTIATE ∧ bargains.agreeNow 0 0 (capOf 0) = none ∧
    (bargains.agreeNow 0 0 (capOf 15)).isSome = true ∧ (bargains.spPort 0 0).cap.isSome = true ∧
    sameAgr (bargains.spPort 0 0).agr agr8 = true ∧ sameAgr (bargains.spPort 0 0).agr agr7 = false ∧
    (run (.agree 0 0 agr8) bargains).spState 0 0 = spDESKEW ∧
    fld ((run (.agree 0 0 agr7) bargains).spReg 0 (Reg.SP_PORT_STAT 0)) 15 8 = 6 ∧
    (spineAt spDESKEW port8 group8).spState 0 0 = spDESKEW ∧
    (run (.deskew 0 0 160) (spineAt spDESKEW port8 group8)).spState 0 0 = spTIME ∧
    fld ((run (.deskew 0 0 161) (spineAt spDESKEW port8 group8)).spReg 0 (Reg.SP_PORT_STAT 0)) 15 8 = 7 ∧
    (spineAt spCONFIRM port8 group8).spState 0 0 = spCONFIRM ∧
    (run (.ready 0 0 3 4) (spineAt spCONFIRM port8 group8)).spState 0 0 = spACTIVE := by unfold State.portRuns; decide +kernel

theorem test_sp_ctrl :
    Admitted tap (sp0 Reg.SP_CTRL) live ∧ live.groupAt 0 0 = some 0 ∧ live.spSite 0 = (0, 0) ∧ live.inMesh 0 = true ∧
    live.spCircuit 0 = false ∧ bit (live.spReg 0 Reg.SP_CTRL) 31 = false ∧ bit spOn 31 = true ∧ bit spOn 30 = false ∧
    bit spOn 29 = false ∧ live.spState 0 0 = spDISABLED ∧
    (run (.spEnable tap 0 0 spOn) live).spState 0 0 = spWAIT_PMA ∧
    Admitted tap (sp0 Reg.SP_CTRL) (enabled spACTIVE spOn group8) ∧ bit ((enabled spACTIVE spOn group8).spReg 0 Reg.SP_CTRL) 31 = true ∧
    bit (setBit spOn 31 false) 31 = false ∧ bit (setBit spOn 31 false) 29 = false ∧
    (run (.spEnable tap 0 0 (setBit spOn 31 false)) (enabled spACTIVE spOn group8)).spState 0 0 = spDISABLED ∧
    (run (.spEnable tap 0 0 (setBit spOn 31 false)) (enabled spSAFETY_HOLD spOn group8)).spState 0 0 = spSAFETY_HOLD := by
  unfold Admitted; decide +kernel

/-- A shut group. -/
def shut : State := enabled spSAFETY_HOLD spOn { SpGroup.empty with shut := true }

theorem test_sp_retrain_and_release :
    bit (setBit spOn 30 true) 30 = true ∧ bit (setBit spOn 30 true) 29 = false ∧
    (run (.spRetrain tap 0 0 (setBit spOn 30 true)) (enabled spACTIVE spOn group8)).spState 0 0 = spLOCK ∧
    Admitted tap (sp0 Reg.SP_CTRL) shut ∧ (shut.spGroup 0).shut = true ∧ shut.spState 0 0 = spSAFETY_HOLD ∧
    bit (setBit spOn 29 true) 29 = true ∧ bit (setBit spOn 29 true) 30 = false ∧
    (run (.safetyRelease tap 0 0 (setBit spOn 29 true) true) shut).spState 0 0 = spWAIT_PMA ∧
    (run (.safetyRelease tap 0 0 (setBit spOn 29 true) false) shut).spState 0 0 = spSAFETY_HOLD := by
  unfold Admitted; decide +kernel

theorem test_eye_shut :
    (enabled spACTIVE (setBit spOn 28 true) group8).groupRuns 0 ∧ (enabled spACTIVE (setBit spOn 28 true) group8).spCircuit 0 = false ∧
    bit ((enabled spACTIVE (setBit spOn 28 true) group8).spReg 0 Reg.SP_CTRL) 28 = true ∧
    (run (.eyeShut 0) (enabled spACTIVE (setBit spOn 28 true) group8)).spState 0 0 = spSAFETY_HOLD ∧
    (enabled spACTIVE (setBit spOn 28 false) group8).groupRuns 0 ∧
    bit ((enabled spACTIVE (setBit spOn 28 false) group8).spReg 0 Reg.SP_CTRL) 28 = false ∧
    (run (.eyeShut 0) (enabled spACTIVE (setBit spOn 28 false) group8)).spState 0 0 = spLOCK ∧
    (enabled spDESKEW (setBit spOn 28 false) group8).spTrains 0 0 = true ∧
    (run (.eyeShut 0) (enabled spDESKEW (setBit spOn 28 false) group8)).spState 0 0 = spWAIT_PMA := by
  unfold State.groupRuns; decide +kernel

/-- Group 0 is a circuit group with two entries, whose window runs from NT 0 to NT 32000, in a training state; a partner
is expected on entry 1. -/
def circuit (exp : Word) (st nt : Nat) (v : SpPort) (w : Option CircNow) : State :=
  let s := tuned [(sp0 Reg.SP_CIRC_CFG, 0x810000C8), (sp0 (Reg.SP_CIRC_EXP 1), exp), (dieA Reg.STENCIL_CTRL, 1)] (spineAt st v SpGroup.empty)
  { s with
    time := { s.time with
      nt := BitVec.ofNat 64 nt, stencils := [(stencilKey 0 0 9 0, 10)], gates := [(9, ⟨1, BitVec.ofNat 64 (1000 + 2 ^ 21), 0⟩)] }
    spine := { s.spine with circ := match w with | some w => [(0, w)] | none => [] } }

theorem test_circuit_start :
    (circuit 0x20007 spWAIT_PMA 0 SpPort.empty none).groupRuns 0 ∧
    (circuit 0x20007 spWAIT_PMA 0 SpPort.empty none).spCircuit 0 = true ∧
    (circuit 0x20007 spWAIT_PMA 0 SpPort.empty none).spine.circ.find? 0 = none ∧
    (circuit 0x20007 spWAIT_PMA 0 SpPort.empty none).circLeft 0 = some 32000 ∧
    (circuit 0x20007 spWAIT_PMA 0 SpPort.empty none).spState 0 0 = spWAIT_PMA ∧
    bit ((circuit 0x20007 spWAIT_PMA 0 SpPort.empty none).spReg 0 (Reg.SP_CIRC_EXP 1)) 17 = true ∧
    (run (.circuitWindowStart 0) (circuit 0x20007 spWAIT_PMA 0 SpPort.empty none)).circCur 0 = 1 ∧
    bit ((circuit 7 spWAIT_PMA 0 SpPort.empty none).spReg 0 (Reg.SP_CIRC_EXP 1)) 17 = false ∧
    ((run (.circuitWindowStart 0) (circuit 7 spWAIT_PMA 0 SpPort.empty none)).spine.circ.find? 0).map (·.lost) = some true := by
  unfold State.groupRuns; decide +kernel

/-- A window that trains, and has not got far. -/
def trains (nt : Nat) : State := circuit 0x20007 spIDENT nt SpPort.empty (some ⟨0, false, false, false⟩)

theorem test_circuit_late :
    (trains 25600).groupRuns 0 ∧ (trains 25600).spCircuit 0 = true ∧
    (trains 25600).spine.circ.find? 0 = some ⟨0, false, false, false⟩ ∧
    bit ((trains 25600).spReg 0 Reg.SP_CIRC_STAT) 27 = false ∧ (trains 25600).circLate 0 ⟨0, false, false, false⟩ = true ∧
    (trains 25599).circLate 0 ⟨0, false, false, false⟩ = false ∧
    (run (.circuitTrainAbandon 0) (trains 25600)).spState 0 0 = spWAIT_PMA ∧
    (trains 25600).circLeft 0 = some 6400 ∧ 6400 ≤ (trains 25600).circCutoff 0 ∧ (trains 25599).circCutoff 0 < 6401 ∧
    (run (.circuitCutoff 0) (trains 25600)).circClosed 0 = true := by unfold State.groupRuns; decide +kernel

/-- The window has ended with a frame not acknowledged. -/
def ended : State :=
  let s := circuit 0x20007 spACTIVE 32000 { port8 with sent := [(1, [])] } (some ⟨0, false, true, false⟩)
  { s with time := { s.time with gates := [(9, ⟨2, 10, 32000⟩)] } }

theorem test_circuit_end :
    ended.groupRuns 0 ∧ ended.spine.circ.find? 0 = some ⟨0, false, true, false⟩ ∧ ended.circLeft 0 = none ∧
    (ended.spPort 0 0).sent ≠ [] ∧ ended.spState 0 0 = spACTIVE ∧
    (run (.circuitWindowEnd 0) ended).spState 0 0 = spWAIT_PMA ∧
    (run (.circuitWindowEnd 0) ended).spReg 0 Reg.SP_CIRC_CUT_CNT = 1 := by unfold State.groupRuns; decide +kernel

/-- A group of two ports, of which lane 8 belongs to none. -/
def twoPorts : State := spineAt spDISABLED SpPort.empty { SpGroup.empty with width := 2 }
/-- Lane 5 has corrected symbols in this millisecond. -/
def noisy (n : Nat) : State := spineAt spACTIVE port8 { group8 with symNow := [(5, n)] }

theorem test_lane_faults :
    serves.groupRuns 0 ∧ serves.laneUsable 0 5 = true ∧ serves.portOfLane 0 5 = some 0 ∧ serves.spState 0 0 = spACTIVE ∧
    (agrMask (serves.spPort 0 0).agr).testBit 5 = true ∧ agrSpare (serves.spPort 0 0).agr ≠ 5 ∧
    (serves.freeSpare 0 0).isSome = true ∧ (run (.laneFault 0 5) serves).spState 0 0 = spSPARING ∧
    lean7.laneUsable 0 5 = true ∧ lean7.portOfLane 0 5 = some 0 ∧ lean7.freeSpare 0 0 = none ∧
    (run (.laneFault 0 5) lean7).laneDead 0 5 = true ∧
    twoPorts.groupRuns 0 ∧ twoPorts.spCircuit 0 = false ∧ twoPorts.portOfLane 0 8 = none ∧ twoPorts.laneUsable 0 8 = true ∧
    (run (.laneFault 0 8) twoPorts).laneDead 0 8 = true := by unfold State.groupRuns; decide +kernel

/-- READ_MON's sample of a lane. -/
def sample : LaneMon := ⟨5, 6, 7, true, 3⟩
/-- EN and ACTIVE. -/
def watched : State := enabled spACTIVE spOn group8

theorem test_lane_watch :
    ((noisy 70000).spGroup 0).symNow.get 0 5 = 70000 ∧ fld ((noisy 70000).spReg 0 Reg.SP_LANE_CFG) 31 16 < 70000 ∧
    (run (.serCheck 0 5) (noisy 70000)).laneUsable 0 5 = false ∧ 0 ≤ fld ((noisy 0).spReg 0 Reg.SP_LANE_CFG) 31 16 ∧
    watched.groupRuns 0 ∧ watched.spCircuit 0 = false ∧ bit (watched.spReg 0 Reg.SP_CTRL) 31 = true ∧
    fld ((run (.readMon 0 [(5, sample)]) watched).spReg 0 (Reg.LANE_RXP 5)) 15 0 = 5 ∧
    ((run (.wlLockChange 0 5 true 9) watched).spGroup 0).wlLock.testBit 5 = true ∧ spIDENT ≤ watched.spState 0 0 ∧
    watched.spState 0 0 ≤ spSPARING ∧ watched.portOfLane 0 5 = some 0 ∧ watched.laneUsable 0 5 = true ∧
    bit ((run (.wlLockChange 0 5 false 9) watched).spReg 0 Reg.SP_FLAG_STAT) 0 = true ∧
    twoPorts.portOfLane 0 8 = none := by unfold State.groupRuns; decide +kernel

/-- A sparing of lane 5 that this end asked for at edge 0, before and after the partner's answer. -/
def spares (acked : Bool) : State := spineAt spSPARING { port8 with sparing := some ⟨5, 0, true, acked⟩ } group8

theorem test_sparing :
    serves.portRuns 0 0 ∧ serves.spCircuit 0 = false ∧ serves.freeSpare 0 0 = some 8 ∧
    (serves.spGroup 0).wlLock.testBit 8 = true ∧
    signed 16 (fld (serves.spReg 0 Reg.OE_CFG2) 31 16) ≤ signed 16 (fld (serves.spReg 0 (Reg.LANE_RXP 8)) 15 0) ∧
    serves.spState 0 0 = spACTIVE ∧ (agrMask (serves.spPort 0 0).agr).testBit 5 = true ∧
    (run (.spareReq 0 0 5) serves).spState 0 0 = spSPARING ∧
    (spares false).portRuns 0 0 ∧ (spares false).freeSpare 0 0 = some 8 ∧ (spares false).spState 0 0 = spSPARING ∧
    ((spares false).spPort 0 0).sparing = some ⟨5, 0, true, false⟩ ∧
    ((run (.spareAck 0 0 5) (spares false)).spPort 0 0).sparing = some ⟨5, 0, true, true⟩ ∧
    (atEdge 1999 (spares true)).time.edges < 0 + 2000 ∧ 0 + 2000 ≤ (atEdge 2000 (spares true)).time.edges ∧
    (run (.sparingTimeout 0 0) (atEdge 2000 (spares true))).laneDead 0 5 = true := by unfold State.portRuns; decide +kernel

theorem test_wavelengths :
    ((run (.wlAssign 0 0 5 3) serves).spGroup 0).txWl.get 0 5 = 4 ∧
    fld ((run (.rxpReport 0 0 [1, 2]) serves).spReg 0 (Reg.LANE_RXP 1)) 31 16 = 2 := by decide +kernel

/-- A request of the management interface is outstanding since edge 0. -/
def oemiAt (op tries : Nat) : State := spineAt spACTIVE port8 { group8 with oemi := [⟨op, 5, 0, 9, tries, 0⟩] }
/-- A response. -/
def oemiBody (op tseq : Nat) : Nat := op + tseq * 2 ^ 16 + 77 * 2 ^ 32
/-- With its CRC. -/
def oemiFrame (op tseq : Nat) : BitVec 128 :=
  BitVec.ofNat 128 (oemiBody op tseq + crc32c (bytesOf 12 (oemiBody op tseq)) * 2 ^ 96)

theorem test_oemi :
    (oemiAt 3 0).groupRuns 0 ∧ ((oemiAt 3 0).spGroup 0).oemi = (⟨3, 5, 0, 9, 0, 0⟩ : OemiReq) :: [] ∧
    crc32c (bytesOf 12 (0 : BitVec 128).toNat) ≠ bitsOf (0 : BitVec 128).toNat 127 96 ∧
    crc32c (bytesOf 12 (oemiFrame 3 9).toNat) = bitsOf (oemiFrame 3 9).toNat 127 96 ∧
    crc32c (bytesOf 12 (oemiFrame 3 8).toNat) = bitsOf (oemiFrame 3 8).toNat 127 96 ∧
    bitsOf (oemiFrame 3 8).toNat 23 16 ≠ 9 ∧ bitsOf (oemiFrame 3 9).toNat 23 16 = 9 ∧ bitsOf (oemiFrame 3 9).toNat 7 0 = 3 ∧
    bitsOf (oemiFrame 3 9).toNat 31 24 = 0 ∧ ((run (.oemiResponse 0 (oemiFrame 3 9)) (oemiAt 3 0)).spGroup 0).oemi = [] ∧
    fld ((run (.oemiResponse 0 (oemiFrame 3 9)) (oemiAt 3 0)).spReg 0 (Reg.LANE_BIAS 5)) 15 0 = 77 ∧
    (oemiAt 3 0).time.edges < 0 + 10000 ∧ 0 + 10000 ≤ (atEdge 10000 (oemiAt 3 2)).time.edges ∧
    bit ((run (.oemiTimeout 0) (atEdge 10000 (oemiAt 3 2))).spReg 0 Reg.OE_STAT) 28 = true ∧
    bitsOf (oemiFrame 2 9).toNat 23 16 = 9 ∧
    bit ((run (.oemiResponse 0 (oemiFrame 2 9)) (oemiAt 2 0)).spReg 0 Reg.OE_STAT) 31 = true := by
  unfold State.groupRuns; decide +kernel

/-- An IDLE frame, and one with two uncorrectable codewords. -/
def idleFrame : PhizaFrame := ⟨0, [], [(true, 0)]⟩
/-- A port with something to send: a packet waits. -/
def busyPort : SpPort := { port8 with tx := [(pktTo 0 3 0, 0)] }

theorem test_frame_send :
    serves.portRuns 0 0 ∧ serves.spState 0 0 = spACTIVE ∧ serves.spCircuit 0 = false ∧ serves.sketch.edge.find? 0 = none ∧
    port8.replay = false ∧ port8.resend = none ∧ port8.hasWork (bit (serves.spReg 0 (Reg.SP_PORT_STAT 0)) 23) = false ∧
    ((run (.frameSend 0 0) serves).spPort 0 0).line.length = 160 ∧
    (spineAt spACTIVE busyPort group8).portRuns 0 0 ∧
    busyPort.hasWork (bit ((spineAt spACTIVE busyPort group8).spReg 0 (Reg.SP_PORT_STAT 0)) 23) = true ∧
    busyPort.sent.length < busyPort.window ∧ agrWidth busyPort.agr ≤ 3 ∧
    ((run (.frameSend 0 0) (spineAt spACTIVE busyPort group8)).spPort 0 0).txSeq = 1 ∧
    busyPort.window ≤ (List.replicate 76 ((0 : Nat), ([] : List PhizaWord))).length ∧ agrLow port8.agr = false ∧
    ((run (.frameSend 0 0) (spineAt spACTIVE { port8 with replay := true, resend := some 4, sent := [(4, [])] } group8)).spPort 0 0).replay =
      false := by unfold State.portRuns; decide +kernel

theorem test_frame_receive :
    serves.portRuns 0 0 ∧ serves.spState 0 0 = spACTIVE ∧ ({ idleFrame with ue := 2 } : PhizaFrame).ue ≠ 0 ∧
    (serves.spPort 0 0).rejects < 4 ∧ ((run (.frameReceive 0 0 { idleFrame with ue := 2 }) serves).spPort 0 0).rejects = 1 ∧
    (spineAt spACTIVE { port8 with rejects := 4 } group8).spState 0 0 = spACTIVE ∧
    (run (.frameReceive 0 0 { idleFrame with ue := 2 }) (spineAt spACTIVE { port8 with rejects := 4 } group8)).spState 0 0 =
      spLOCK ∧
    idleFrame.ue = 0 ∧ idleFrame.syms = [] ∧ ctype (0 : DataWord) ≠ 7 ∧ holdFrame false idleFrame.words = false ∧
    ({ port8 with nak := true } : SpPort).nak = true ∧ (serves.spPort 0 0).nak = false ∧
    (match SpPort.takeWords 0 (serves.spPort 0 0) [] idleFrame.words with | .ok _ _ => true | _ => false) = true ∧
    ((run (.frameReceive 0 0 idleFrame) serves).spPort 0 0).ackSeq = 1 := by unfold State.portRuns; decide +kernel

/-- A packet waits at group 0 from its router, on a die with a DIE_ID. -/
def leaves (st : Nat) : State :=
  let s := spineAt st port8 group8
  { s with time := { s.time with dieId := 7 }, mesh := { s.mesh with egress := s.mesh.egress.put 16 [(3, pktTo 0 3 0)] } }

theorem test_spine_egress :
    (leaves spACTIVE).groupRuns 0 ∧ (leaves spACTIVE).time.dieId ≠ aliasId ∧
    (leaves spACTIVE).egressHead 0 5 = some ((3, pktTo 0 3 0), []) ∧ (leaves spACTIVE).egressPort 0 3 5 = some 0 ∧
    (leaves spACTIVE).spState 0 0 ≠ spFAILED ∧ (leaves spACTIVE).spState 0 0 ≠ spSAFETY_HOLD ∧
    (leaves spACTIVE).circClosed 0 = false ∧ (leaves spACTIVE).exitRateOk 0 (pktTo 0 3 0) = true ∧
    ((run (.spineEgress 0 5) (leaves spACTIVE)).spPort 0 0).tx = [(pktTo 0 3 0, 0)] ∧
    (leaves spFAILED).egressHead 0 5 = some ((3, pktTo 0 3 0), []) ∧ (leaves spFAILED).egressPort 0 3 5 = some 0 ∧
    (leaves spFAILED).spState 0 0 = spFAILED ∧
    (run (.spineEgress 0 5) (leaves spFAILED)).spReg 0 Reg.SP_DISC_CNT = 1 ∧
    (tuned [(sp0 Reg.SP_CIRC_CFG, 0x80000000)] (leaves spACTIVE)).circClosed 0 = true ∧
    (tuned [(sp0 Reg.SP_CIRC_CFG, 0x80000000)] (leaves spACTIVE)).egressPort 0 3 5 = some 0 := by
  unfold State.groupRuns; decide +kernel

/-- Packets older than their deadline are stale. -/
def ageing : State := { tuned [(sp0 Reg.SP_STALE_CFG, 1)] (leaves spACTIVE) with time := { (leaves spACTIVE).time with nt := 51200 } }

/-- A packet with its word. -/
def onePkt : Pkt := Pkt.withPayload (pktTo 0 3 0) [0]

theorem test_spine_ingress :
    ageing.groupRuns 0 ∧ onePkt.vc.toNat < 6 ∧ onePkt.payload.length = onePkt.words ∧
    ageing.time.dieId ≠ aliasId ∧ ageing.isStale 0 onePkt = true ∧
    (run (.spineIngress 0 onePkt) ageing).spReg 0 Reg.SP_STALE_CNT = 1 ∧ ageing.spReg 0 Reg.SP_STALE_CNT = 0 ∧
    (leaves spACTIVE).isStale 0 onePkt = false ∧ (leaves spACTIVE).portOpen 0 9 16 5 = true ∧
    ((leaves spACTIVE).police 0 0 onePkt).1 = true ∧
    ((run (.spineIngress 0 onePkt) (leaves spACTIVE)).vcb 0 9 5).buf.length +
      ((run (.spineIngress 0 onePkt) (leaves spACTIVE)).vcb 0 9 5).feed.length = 1 := by
  unfold State.groupRuns; decide +kernel

/-- Policer 3 of group 0 has an empty bucket, and polices context 5. -/
def strict : State :=
  { tuned (boundRegs ++ [(⟨64, 33, Reg.W_CTX 1 0⟩, 0x00030007), (policeCfgA 0 0 3, 0x00010001)]) (leaves spACTIVE) with easel := [] }

theorem test_spine_policed :
    strict.groupRuns 0 ∧ strict.isStale 0 { writePkt with vc := 1 } = false ∧ strict.portOpen 0 9 16 1 = true ∧
    (strict.police 0 0 { writePkt with vc := 1 }).1 = false ∧
    ((run (.spineIngress 0 { writePkt with vc := 1 }) strict).vcb 0 9 1).buf = [] := by unfold State.groupRuns; decide +kernel

/-- A partner access of port 0 is outstanding since edge 0. -/
def askingPeer : State := spineAt spACTIVE port8 { group8 with peer := some (0, 0) }

theorem test_peer :
    Admitted tap (sp0 Reg.SP_PEER_CTRL) serves ∧ serves.groupAt 0 0 = some 0 ∧ bit (0x80000000 : Word) 31 = true ∧
    fld (0x80000000 : Word) 29 27 = 0 ∧ bit (serves.spReg 0 Reg.SP_PEER_STAT) 31 = false ∧ serves.spHas 0 0 = true ∧
    ((run (.peerAccess tap 0 0 0x80000000) serves).spGroup 0).peer = some (0, 0) ∧
    serves.spHas 0 (fld (0x88000000 : Word) 29 27) = false ∧
    bit ((run (.peerAccess tap 0 0 0x88000000) serves).spReg 0 Reg.SP_PEER_STAT) 28 = true ∧
    askingPeer.portRuns 0 0 ∧ (askingPeer.spGroup 0).peer = some (0, 0) ∧
    (run (.peerResponse 0 0 77 0) askingPeer).spReg 0 Reg.SP_PEER_DATA = 77 ∧ (serves.spGroup 0).peer = none ∧
    askingPeer.time.edges < 0 + 10000 ∧ 0 + 10000 ≤ (atEdge 10000 askingPeer).time.edges := by
  unfold Admitted State.portRuns; decide +kernel

theorem test_peer_receive :
    bit ((run (.peerAccessTimeout 0) (atEdge 10000 askingPeer)).spReg 0 Reg.SP_PEER_STAT) 29 = true ∧
    serves.portRuns 0 0 ∧ serves.spine.peerIn = [] ∧
    serves.verdict ⟨.peer 0, .supervisor, 0, 0, 7⟩ (RegAddr.ofWord (BitVec.ofNat 32 (dieA Reg.DIE_ID).key)) true = .ok := by
  unfold State.portRuns; decide +kernel
/-! ### Bring-up and the canvas -/

/-- A state after reset in a phase, its clocks running, at an AON edge. -/
def phased (n edge : Nat) : State :=
  let s := base [(dieA Reg.BRINGUP_STAT, BitVec.ofNat 32 (n * 2 ^ 28)), (dieA Reg.CLK_STAT, 0x800007D0)]
  { s with time := { s.time with edges := edge } }

/-- Fuse words with a CONFIG, a limit of 2,000 MHz, and the rest 0. -/
def fuseWords (config : Word) : List (BitVec 128) := [BitVec.ofNat 128 config.toNat, BitVec.ofNat 128 0x5050]

/-- An illegal CONFIG; and the ends of TIME's wait. -/
theorem test_fuse_and_time :
    (phased 1 0).phase = 1 ∧ (phased 1 0).mode = 0 ∧ bit ((phased 1 0).die Reg.COOLANT_STAT) 31 = false ∧
    Config.legal (BitVec.ofNat 32 ((fuseWords 0x01410A2E).getD 0 0).toNat) = false ∧
    (run (.fuseRead (fuseWords 0x01410A2E) true) (phased 1 0)).phase = 11 ∧
    (phased 8 10000000).phase = 8 ∧ (phased 8 10000000).stopped = false ∧
    (phased 8 10000000).load.since + 100000 * { Loader.empty with timeMs := 100 }.timeMs ≤ (phased 8 10000000).time.edges ∧
    ¬((phased 8 0).timeState = 2 ∨ (phased 8 0).timeState = 5) ∧
    (tuned [(dieA Reg.TIME_STAT, 0x20000000)] (phased 8 0)).timeState = 2 ∧
    (run (.timePhase false) (tuned [(dieA Reg.TIME_STAT, 0x20000000)] (phased 8 0))).phase = 9 ∧
    (run (.timePhase true) (phased 8 10000000)).phase = 9 := by decide +kernel

/-- RECOVERY without a canvas. -/
def recovering : State := tuned [(dieA Reg.BRINGUP_STAT, 0xA6000000)] live

/-- Resets, RELOAD, and CONTINUE that finds nothing to continue. -/
theorem test_restarts :
    Admitted tap (dieA Reg.BRINGUP_CTRL) recovering ∧ recovering.mode = 3 ∧
    bit (recovering.die Reg.COOLANT_STAT) 31 = false ∧ (run (.bringupReload tap 0) recovering).phase = 1 ∧
    Admitted tap (dieA Reg.BRINGUP_CTRL) (phased 5 0) ∧ (phased 5 0).mode ≠ 3 ∧
    (run (.bringupReload tap 0) (phased 5 0)).phase = 5 ∧ (phased 5 0).glazeWait = false := by unfold Admitted; decide +kernel

theorem test_early_phases :
    (phased 0 0).phase ≤ 1 ∧ (phased 0 0).mode = 0 ∧ Config.legal (BitVec.ofNat 32 ((fuseWords Config.aConfig).getD 0 0).toNat) = true ∧
    (run (.fuseRead (fuseWords Config.aConfig) true) (phased 0 0)).phase = 2 ∧
    (run (.fuseRead (fuseWords Config.aConfig) false) (phased 1 0)).phase = 11 ∧ (phased 2 0).phase = 2 ∧
    (run (.clockStart false) (phased 2 0)).phase = 11 ∧
    (phased 3 0).phase = 3 ∧ (phased 3 0).stopped = false ∧ (phased 3 0).isLink 0 (14 * 33 + 2) = true ∧
    (run (.calibrate [(0, 14 * 33 + 2)]) (phased 3 0)).phase = 4 ∧ (phased 4 0).phase = 4 ∧ (phased 4 0).inMesh 33 = true ∧
    [0, 1, 2, 3, 4].Nodup ∧ 4 < [0, 1, 2, 3, 4].length ∧
    (∀ c ∈ [0, 1, 2, 3, 4], c < 288 ∧ (33, 15, c) ∈ [(33, 15, 0), (33, 15, 1), (33, 15, 2), (33, 15, 3), (33, 15, 4)]) ∧
    (run (.trayTest [(33, 15, 0), (33, 15, 1), (33, 15, 2), (33, 15, 3), (33, 15, 4)]) (phased 4 0)).bankRetired 33 15 = true := by
  decide +kernel

/-- The master easel core has firmware. -/
def loaded : State := { phased 6 0 with core := { State.reset.core with fw := [12] } }
/-- Group 0 is enabled, and its port ACTIVE, in SPINE. -/
def spinning (st : Nat) : State :=
  tuned [(dieA Reg.BRINGUP_STAT, 0x70000000)] (enabled st spOn group8)
/-- SPINE_WAIT has passed. -/
def waited : State := let s := atEdge 10000000 (spinning spLOCK); { s with load := { s.load with spineMs := 100 } }
/-- READY is entered with a damaged tile at 33. -/
def readying : State := tuned [(tileA 33 Reg.TRAY_BANK_STAT, 0x00010000)] (phased 9 0)

theorem test_late_phases :
    loaded.phase = 6 ∧ loaded.stopped = false ∧ loaded.masterCore = 12 ∧ ([12].contains 12 && loaded.core.fw.contains 12) = true ∧
    (run (.firmwareStart []) loaded).phase = 11 ∧
    (spinning spACTIVE).phase = 7 ∧ (spinning spACTIVE).enabledGroups = [0] ∧
    (spinning spACTIVE).enabledGroups.all (spinning spACTIVE).groupSettled = true ∧
    waited.enabledGroups.all waited.groupSettled = false ∧ waited.waited waited.load.spineMs = true ∧
    (spinning spLOCK).waited { Loader.empty with spineMs := 100 }.spineMs = false ∧ (run (.spinePhase true) waited).phase = 8 ∧
    readying.phase = 9 ∧ readying.mode = 0 ∧ readying.damaged 33 = true ∧ readying.anyDiag readying.activeGlazes = false := by decide +kernel

/-! #### The canvas -/

/-- Bytes of a record: type, layer, TARGET and payload, with its CRC and padding. -/
def recOf (ty target : Nat) (body : List Byte) : List Byte :=
  let head := leBytes 12 (ty + 255 * 2 ^ 16 + body.length * 2 ^ 32 + target * 2 ^ 64)
  head ++ leBytes 4 (crc32c (head ++ body)) ++ body ++ List.replicate ((16 - body.length % 16) % 16) 0

/-- A header for an image of 96 bytes without glazes, with a magic number. -/
def headBytes (magic : Nat) : List Byte :=
  let b := leBytes 60 (fields [(0, magic), (4, 1), (8, 0x2F170300), (12, 0x01410A2F), (16, 96)])
  b ++ leBytes 4 (crc32c b)

/-- A good header. -/
def header : List Byte := headBytes 0x564E434B

/-- The loader has read the header, whole, of an image of a length. -/
def loading (len : Nat) : State :=
  { phased 5 0 with load := { Loader.empty with reading := true, image := header, place := 64, len := len, count := 1 } }

theorem test_header :
    (phased 5 0).inCanvas = true ∧ (phased 5 0).glazeWait = false ∧ (phased 5 0).load.place = 0 ∧ (phased 5 0).load.image = [] ∧
    (phased 5 0).load.wrote = [] ∧ header.length = 64 ∧ (phased 5 0).headerErr header = 0 ∧
    (headBytes 0).length = 64 ∧ (phased 5 0).headerErr (headBytes 0) = 2 ∧
    (run (.canvasRead (headBytes 0) true) (phased 5 0)).copyNow = 1 ∧
    (run (.canvasRead [] false) (phased 5 0)).copyNow = 1 := by decide +kernel
/-- A record of each type: TARGET and payload. -/
def bodyOf (ty : Nat) : Nat × List Byte :=
  match ty with
  | 1 => (0, leBytes 32 0)
  | 2 => (0, leBytes 16 (fields [(0, 4), (1, 3), (4, 2 * 2 ^ 16), (12, 1)]))
  | 3 => (0, (List.range 16).flatMap fun _ => leBytes 4 0x300)
  | 4 => (255, [1, 2, 3, 4])
  | 5 => (0, leBytes 8 (fields [(0, (rtrA 0 0x130).key), (4, 5)]))
  | 6 => (2 ^ 16 + 3, leBytes 4 0x10022)
  | 7 => (2 ^ 16, leBytes 4 0x24)
  | 8 => (2 ^ 21 + 2 ^ 16 + 14 * 2 ^ 8, leBytes 8 10)
  | _ => (3, leBytes 100 recordNat)

/-- The record's bytes. -/
def sampleRec (ty : Nat) : List Byte := recOf ty (bodyOf ty).1 (bodyOf ty).2

/-- The loader stands before a record, with a claim for COLL_STORE. -/
def loadState : State :=
  let s := loading 4096
  { s with load := { s.load with claims := [⟨8, 3, false, 0, 0, 1, 0⟩] } }

/-- A record stands whole before the loader, and its type takes it. -/
def recordGood (ty : Nat) : Bool :=
  let s := loadState
  let b := sampleRec ty
  s.inCanvas && s.load.reading && decide (64 ≤ s.load.place) && decide (s.load.place = s.load.image.length) && !s.glazeWait &&
    decide (leAt b 0 2 = ty) && decide (leAt b 2 1 = 255) && decide (leAt b 4 4 % 4 = 0) &&
    decide (b.length = recBytes (leAt b 4 4)) && decide (s.load.place + b.length + 32 ≤ s.load.len) &&
    decide (s.load.order ≤ ty) && recordCrcOk b 0 &&
    (match { s with load := { s.load with image := s.load.image ++ b, order := ty } }.applyRecord (s.headOf b) with
      | .ok _ => true | .error _ => false)

theorem test_records :
    recordGood 1 = true ∧ recordGood 2 = true ∧ recordGood 3 = true ∧ recordGood 4 = true ∧ recordGood 5 = true ∧
    recordGood 6 = true ∧ recordGood 7 = true ∧ recordGood 8 = true ∧ recordGood 9 = true := by decide +kernel

/-- What the records' own conditions ask, and a descriptor of a wrong length. -/
theorem test_record_conditions :
    ((loadState.headOf (sampleRec 2)).len = 16 ∧ (leAt (loadState.headOf (sampleRec 2)).body 2 1).testBit 1 = false) ∧
    (loadState.headOf (sampleRec 4)).target % 256 = 255 ∧ (3 : Nat) % 256 ≠ 255 ∧ (loadState.headOf (sampleRec 5)).len = 8 ∧
    plainPairs (loadState.headOf (sampleRec 5)) ∧ (specOf (rtrA 0 0x130)).isSome = true ∧
    (match loadState.applyRecord (loadState.headOf (recOf 1 0 (leBytes 28 0))) with
      | .error e => e | .ok _ => (0, 0)) = (7, 4) ∧ loadState.load.wrote = [] := by unfold plainPairs; decide +kernel

theorem test_record_effects :
    (run (.routeRec (sampleRec 6)) loadState).load.place = 64 + 32 ∧
    fld ((run (.routeRec (sampleRec 6)) loadState).entry 1 0 3) 16 0 = 0x10022 ∧
    (run (.glazeDesc (recOf 1 0 (leBytes 28 0))) loadState).copyNow = 1 := by decide +kernel

/-- An END record for the header alone. -/
def endBytes : List Byte := recOf 0xFFFF 0 (leBytes 4 (crc32c header))
/-- Before END, the glaze set fixed. -/
def atEnd : State := let s := loading 96; { s with load := { s.load with set := some 0, count := 0 } }
/-- The host is asked for the glaze set, with END read. -/
def asksHost : State :=
  let s := tuned [(dieA Reg.BRINGUP_STAT, 0x50100000)] (loading 96)
  { s with load := { s.load with image := header ++ endBytes } }

theorem test_end :
    (atEnd.inCanvas = true ∧ atEnd.load.reading = true ∧ atEnd.load.place = atEnd.load.image.length ∧ atEnd.glazeWait = false ∧
      endBytes.length = recBytes (leAt endBytes 4 4) ∧ atEnd.load.len = atEnd.load.place + 32 ∧ recordCrcOk endBytes 0 = true) ∧
    endsImage atEnd.load.image endBytes ∧ atEnd.load.set = some 0 ∧ (run (.endRec endBytes) atEnd).phase = 6 ∧
    recordCrcOk (recOf 0xFFFF 0 (leBytes 4 0)) 0 = true ∧ leAt (recOf 0xFFFF 0 (leBytes 4 0)) 16 4 ≠ crc32c atEnd.load.image ∧
    leAt (recOf 0xFFFF 0 (leBytes 4 0)) 4 4 = 4 ∧ leAt (recOf 0xFFFF 0 (leBytes 4 0)) 8 4 = 0 ∧
    (run (.endRec (recOf 0xFFFF 0 (leBytes 4 0))) atEnd).copyNow = 1 := by unfold endsImage; decide +kernel

theorem test_continue :
    Admitted tap (dieA Reg.BRINGUP_CTRL) asksHost ∧ asksHost.glazeWait = true ∧ asksHost.inCanvas = true ∧
    asksHost.load.wrote = [] ∧ 2 ^ asksHost.load.count ≤ fld (2 : Word) 7 0 ∧ asksHost.load.place / 16 < 2 ^ 24 ∧
    (run (.bringupContinue tap 2) asksHost).copyNow = 1 ∧
    { asksHost with load := { asksHost.load with count := 0 } }.glazeWait = true ∧ fld (0 : Word) 7 0 < 2 ^ asksHost.load.count ∧
    asksHost.load.image = header ++ endBytes ∧ asksHost.load.place = header.length ∧ endsImage header endBytes ∧
    asksHost.load.len = header.length + 32 := by unfold Admitted endsImage; decide +kernel
/-! #### Glaze switches -/

/-- Glaze 0 is RUNTIME, drains VC 1, and is active; the switch is to the empty set at an NT. -/
def switchable (at' : Nat) : State :=
  let s := tuned [(dieA Reg.BRINGUP_STAT, 0x92000100), (dieA Reg.STENCIL_SWITCH_HI, BitVec.ofNat 32 (at' / 2 ^ 32)),
    (dieA Reg.STENCIL_SWITCH_LO, BitVec.ofNat 32 at')] live
  { s with load := { s.load with image := [0], len := 1, count := 1, descs := [(0, ⟨false, true, 2⟩)] } }

/-- In progress. -/
def switching (at' : Nat) : State :=
  let s := tuned [(dieA Reg.GLAZE_SWITCH_STAT, 0x80000000)] (switchable at')
  { s with load := { s.load with oldSet := 1, held := 2, switchAt := at' } }

theorem test_glaze_switch :
    Admitted tap (dieA Reg.GLAZE_SWITCH_CTRL) (switchable (2 ^ 40)) ∧
    bit ((switchable (2 ^ 40)).die Reg.GLAZE_SWITCH_STAT) 31 = false ∧
    (switchable (2 ^ 40)).switchCheck ((switchable (2 ^ 40)).dieF Reg.GLAZE_SWITCH_MASK 7 0) = 0 ∧
    (switchable (2 ^ 40)).load.image ≠ [] ∧ Admitted tap (dieA Reg.GLAZE_SWITCH_CTRL) (switchable 0) ∧
    (switchable 0).switchCheck ((switchable 0).dieF Reg.GLAZE_SWITCH_MASK 7 0) = 3 ∧
    fld ((run (.glazeSwitch tap 0x80000000 true) (switchable 0)).die Reg.GLAZE_SWITCH_STAT) 7 0 = 3 ∧
    Admitted tap (dieA Reg.GLAZE_SWITCH_CTRL) (switching (2 ^ 40)) ∧ bit ((switching (2 ^ 40)).die Reg.GLAZE_SWITCH_STAT) 31 = true ∧
    fld ((run (.glazeSwitch tap 0x80000000 true) (switching (2 ^ 40))).die Reg.GLAZE_SWITCH_STAT) 7 0 = 6 := by
  unfold Admitted; decide +kernel

/-- Its drain time has come; the drain has begun; NT has reached the switch, with a packet on VC 1 and without. -/
def draining (nt : Nat) : State := { switching (2 ^ 40) with time := { (switching (2 ^ 40)).time with nt := BitVec.ofNat 64 nt } }
/-- The switch time. -/
def dueSwitch : State :=
  let s := tuned [(dieA Reg.STENCIL_SWITCH_ARM, 1)] (draining (2 ^ 40))
  { s with load := { s.load with drained := true } }

theorem test_glaze_drain :
    Config.legal (draining 0).config = true ∧ (draining 0).switching = true ∧ (draining 0).load.drained = false ∧
    (draining 0).ntNat + 16000 * (draining 0).drainLimit < (draining 0).load.switchAt ∧
    (draining (2 ^ 40 - 1)).load.switchAt ≤ (draining (2 ^ 40 - 1)).ntNat + 16000 * (draining (2 ^ 40 - 1)).drainLimit ∧
    (draining (2 ^ 40 - 1)).load.held < 64 ∧ (draining (2 ^ 40 - 1)).ntNat < (draining (2 ^ 40 - 1)).switchAt ∧
    (run .glazeSwitchDrain (draining (2 ^ 40 - 1))).load.drained = true ∧
    (draining (2 ^ 40)).switchAt ≤ (draining (2 ^ 40)).ntNat ∧ bit ((draining (2 ^ 40)).die Reg.STENCIL_SWITCH_ARM) 0 = false ∧
    fld ((run .glazeSwitchDrain (draining (2 ^ 40))).die Reg.GLAZE_SWITCH_STAT) 7 0 = 3 ∧
    dueSwitch.load.drained = true ∧ dueSwitch.load.switchAt ≤ dueSwitch.ntNat ∧ dueSwitch.switchAt ≤ dueSwitch.ntNat ∧
    bit (dueSwitch.die Reg.STENCIL_SWITCH_ARM) 0 = true ∧ (setBits 6 dueSwitch.load.held).all (fun v => dueSwitch.vcEmpty v) = true := by
  decide +kernel

theorem test_glaze_commit :
    (run .glazeSwitchCommit dueSwitch).routeBank = 1 ∧ (run .glazeSwitchCommit dueSwitch).activeGlazes = 0 ∧
    (setBits 6 2).all (fun v => (stands 1 0 1 [⟨pktTo 0 3 0, 0, false⟩] dueSwitch).vcEmpty v) = false ∧
    fld ((run .glazeSwitchCommit (stands 1 0 1 [⟨pktTo 0 3 0, 0, false⟩] dueSwitch)).die Reg.GLAZE_SWITCH_STAT) 7 0 = 5 := by
  decide +kernel
/-! ### Power -/

/-- Panel 0 has been idle since edge 0, for 200 AON cycles, and is in a state. -/
def panelIn (st : Nat) : State :=
  let s := tuned ((dieA (Reg.PANEL_STAT 0), BitVec.ofNat 32 (st * 2 ^ 30)) ::
    (live.panelPos 0).map fun p => (tileA p Reg.TILE_BUDGET, 0x400)) live
  { s with power := { s.power with idleFrom := [(0, 1)] }, time := { s.time with edges := 200, nt := 6400 } }

/-- It enters a state, at an NT. -/
def enteringAt (st nt : Nat) : State := let s := panelIn 0; { s with power := { s.power with entering := [(0, (st, nt))] } }

/-- It wakes from Doze, at an NT; its stencil needs it now. -/
def wakingAt (nt : Option Nat) (planned : Bool) : State :=
  let s := (panelIn 1).setDie Reg.STENCIL_CTRL 1
  { s with power := { s.power with waking := match nt with | some n => [(0, (n, planned))] | none => [] }
           time := { s.time with gates := [(32 * 33 + 14, ⟨255, 0x10000A, 0⟩)] } }

theorem test_panel_sleep :
    (panelIn 0).panelExists 0 = true ∧ (panelIn 0).stopped = false ∧ (panelIn 0).panelState 0 = 0 ∧
    (panelIn 0).power.entering.find? 0 = none ∧ (panelIn 0).power.waking.find? 0 = none ∧ (panelIn 0).panelIdle 0 = true ∧
    (panelIn 0).sleepChoice 0 = some 1 ∧ (panelIn 1).panelState 0 ≠ 0 ∧ live.panelIdle 0 = false ∧
    (run (.panelSleep 0) (panelIn 0)).power.entering.find? 0 = some (1, 6432) := by decide +kernel

theorem test_panel_entry :
    (enteringAt 3 6400).power.entering.find? 0 = some (3, 6400) ∧ 6400 ≤ (enteringAt 3 6400).ntNat ∧
    (enteringAt 1 6432).ntNat < 6432 ∧ (enteringAt 1 6400).power.entering.find? 0 = some (1, 6400) ∧
    33 ∈ (enteringAt 3 6400).panelPos 0 ∧ (enteringAt 3 6400).bankState 33 2 = 0 ∧
    (run (.panelEntryDone 0) (enteringAt 1 6400)).panelState 0 = 1 ∧
    (run (.panelEntryDone 0) (enteringAt 3 6400)).bankState 33 2 = 1 := by decide +kernel

theorem test_panel_wake :
    (panelIn 1).power.waking.find? 0 = none ∧ (panelIn 0).wakingFrom 0 = 0 ∧ (panelIn 1).wakingFrom 0 = 1 ∧
    (panelIn 1).wakeDue 0 = false ∧ (wakingAt none false).wakeDue 0 = true ∧
    (wakingAt none false).power.waking.find? 0 = none ∧ (wakingAt none false).stopped = false ∧
    (wakingAt (some 6448) false).wakeDue 0 = true ∧ (wakingAt (some 6448) false).power.waking.find? 0 = some (6448, false) ∧
    (wakingAt (some 6448) false).ntNat < 6448 ∧ (wakingAt (some 6400) true).power.waking.find? 0 = some (6400, true) ∧
    6400 ≤ (wakingAt (some 6400) true).ntNat ∧ (run (.panelWake 0) (panelIn 1)).die (Reg.PANEL_WAKE_CNT 0) = 1 ∧
    (run (.panelWake 0) (panelIn 1)).power.waking.find? 0 = some (6448, false) ∧
    (run (.panelWakePlanned 0) (wakingAt none false)).power.waking.find? 0 = some (6448, true) ∧
    (run (.panelWakeDone 0) (wakingAt (some 6400) true)).panelState 0 = 0 := by decide +kernel

/-- A detector of panel 0 fired at cycle 10, with the level at 2. -/
def drooped (edges : Nat) : State :=
  { live with power := { Power.empty with droop := [(0, (2, 10))] }, time := { live.time with edges := edges } }

theorem test_droop :
    live.panelExists 12 = false ∧ live.panelExists 0 = true ∧ live.stopped = false ∧ (drooped 1).stopped = false ∧
    (drooped 1).power.droop.find? 0 = some (2, 10) ∧ (drooped 1).cycle < 10 + (drooped 1).droopHold ∧
    10 + (drooped 40).droopHold ≤ (drooped 40).cycle ∧
    fld ((run (.droop 0) live).die (Reg.PANEL_STAT 0)) 26 24 = 1 ∧
    fld ((run (.droopHoldEnd 0 true) (drooped 40)).die (Reg.PANEL_STAT 0)) 26 24 = 3 ∧
    fld ((run (.droopHoldEnd 0 false) (drooped 40)).die (Reg.PANEL_STAT 0)) 26 24 = 0 := by decide +kernel

theorem test_temperature :
    signed 8 (live.dieF Reg.THERM_CFG 31 24) = 105 ∧ 105 < signed 8 (110 : BitVec 8).toNat ∧ (0 : Nat) ∉ live.power.hot ∧
    signed 8 (90 : BitVec 8).toNat ≤ 105 - 5 ∧ 33 ∈ live.panelPos 0 ∧ live.hasBudget 33 = true ∧
    signed 8 (live.dieF Reg.THERM_CFG 23 16) < signed 8 (110 : BitVec 8).toNat ∧ live.power.warm.get 0 0 = 0 := by decide +kernel

/-- A POWER_BUDGET for position 33 with a KIND and a value. -/
def budgetFlit (kind v round : Nat) : SFlit := { flitTo 9 2 1 1 with body := BitVec.ofNat 256 (kind + v * 2 ^ 16 + round * 2 ^ 32) }

/-- Position 33 has been above its budget for ten periods. -/
def above : State := { live with power := { Power.empty with excess := [(33, 10)] } }

theorem test_budget :
    live.hasBudget 33 = true ∧ (budgetFlit 0 500 0).stype.toNat = 9 ∧ (budgetFlit 0 500 0).field 0 1 = 0 ∧
    (budgetFlit 1 500 0).field 0 1 ≠ 0 ∧ live.power.excess.get 0 33 < 10 ∧ above.hasBudget 33 = true ∧ above.stopped = false ∧
    10 ≤ above.power.excess.get 0 33 ∧ above.power.violAt.get 0 33 ≠ above.period + 1 ∧ above.power.viol.get 0 33 = 0 ∧
    fld ((run (.powerBudget 33 (budgetFlit 0 500 0)) live).reg (tileA 33 Reg.TILE_BUDGET)) 31 16 = 500 ∧
    fld ((run (.budgetViol 33) above).reg (tileA 33 Reg.TILE_BUDGET)) 15 13 = 1 := by decide +kernel

/-- Rail 0 has a limit, a window of 2 µs, and a current far above every limit in the microsecond before. -/
def railed (limit : Nat) : State :=
  let s := tuned [(dieA (Reg.RAIL_CFG 0), BitVec.ofNat 32 (limit * 2 ^ 16 + 0x28C))] live
  { s with power := { Power.empty with railI := [(0, [200000])] } }

/-- The estimate is then at the top of its range, whatever the current of this microsecond. -/
theorem test_rail_estimate (x : Nat) :
    let xs := (x :: (railed 1).power.railI.get [] 0).take ((railed 1).railWin 0)
    min 65535 (xs.foldl (· + ·) 0 / xs.length) = 65535 := by
  have h1 : (railed 1).power.railI.get [] 0 = [200000] := by decide +kernel
  have h2 : (railed 1).railWin 0 = 2 := by decide +kernel
  simp only [h1, h2, List.take, List.foldl, List.length]
  omega

theorem test_rail :
    (railed 1).stopped = false ∧ live.stopped = false ∧ live.dieF (Reg.RAIL_CFG 0) 31 16 = 0 ∧
    (railed 1).dieF (Reg.RAIL_CFG 0) 31 16 < 65535 ∧ 9 * (railed 65535).dieF (Reg.RAIL_CFG 0) 31 16 ≤ 10 * 65535 := by
  decide +kernel

/-- The steward works, with a cap and a floor of COMPUTE. -/
def capped (cap floor : Nat) : State :=
  tuned [(dieA Reg.POWER_CTRL, 0x80000024), (dieA Reg.POWER_CAP, BitVec.ofNat 32 cap),
    (dieA (Reg.DOM_LIMIT 0), BitVec.ofNat 32 (0xFFFF0000 + floor))] cores

theorem test_cap :
    bit ((capped 0 0).die Reg.POWER_CTRL) 31 = true ∧ (capped 0 0).masterRuns = true ∧ (capped 0 0).stopped = false ∧
    (capped 0 100).dieF Reg.POWER_CAP 15 0 = 0 ∧ (capped 0 100).dieF (Reg.DOM_LIMIT 0) 15 0 +
      (capped 0 100).dieF (Reg.DOM_LIMIT 1) 15 0 + (capped 0 100).dieF (Reg.DOM_LIMIT 2) 15 0 ≤ 3 * 65535 ∧
    (capped 1 65535).dieF Reg.POWER_CAP 15 0 = 1 ∧ (capped 1 65535).dieF Reg.PWR_SHIFT 15 0 = 0 ∧
    (capped 1 65535).dieF (Reg.DOM_LIMIT 0) 15 0 = 65535 := by decide +kernel

/-- With a cap of 0.1 W the floors cannot be covered, whatever is not controlled. -/
theorem test_cap_unattainable (u : Nat) :
    ((1 : Nat) : Int) + signed 16 0 - u < ((65535 + (capped 1 65535).dieF (Reg.DOM_LIMIT 1) 15 0 +
      (capped 1 65535).dieF (Reg.DOM_LIMIT 2) 15 0 : Nat) : Int) := by
  have h : signed 16 0 = 0 := by decide
  rw [h]; omega

/-- This die coordinates a group of two members; an old round stands, or a member waits for one. -/
def coordinating : State :=
  let s := tuned [(dieA Reg.PWR_GROUP_CFG, 0xC0000002)] cores
  { s with time := { s.time with edges := 20000 }, power := { s.power with members := [3, 4], rounds := [⟨7, 0, [(3, 0, 0)]⟩] } }

/-- The last shift applied was of round 5. -/
def shifted : State := let s := tuned [(dieA Reg.PWR_GROUP_CFG, 0x80000000)] cores; { s with power := { s.power with lastRound := some 5 } }

/-- A POWER_SLACK of a round. -/
def slackFlit (round : Nat) : SFlit := { flitTo 0x0A 2 0 0 with src := BitVec.ofNat 32 (9 * 2 ^ 15 + 20), body := BitVec.ofNat 256 (round * 2 ^ 48) }

theorem test_shifts :
    coordinating.coordinates = true ∧ (slackFlit 8).stype.toNat = 0x0A ∧
    (∀ r ∈ coordinating.power.rounds, r.round ≠ (slackFlit 8).field 6 4) ∧
    (9 ∈ (run (.powerSlack (slackFlit 8)) coordinating).power.members) ∧ coordinating.power.rounds = [⟨7, 0, [(3, 0, 0)]⟩] ∧
    0 + 100 * max 1 (coordinating.dieF Reg.PWR_SLACK_CFG 15 0) ≤ coordinating.time.edges ∧
    (run .slackRoundTimeout coordinating).die Reg.PWR_GROUP_RESET_CNT = 1 ∧
    bit (shifted.die Reg.PWR_GROUP_CFG) 31 = true ∧ shifted.masterRuns = true ∧ shifted.stopped = false ∧
    (budgetFlit 1 0xFFFE 6).field 0 1 = 1 ∧ 5 ≤ (budgetFlit 1 0xFFFE 6).field 4 4 ∧ (budgetFlit 1 0xFFFE 4).field 4 4 < 5 ∧
    (run (.dieShift (budgetFlit 1 0xFFFE 6)) shifted).die Reg.PWR_SHIFT = 0xFFFE ∧
    (run (.dieShift (budgetFlit 1 0xFFFE 4)) shifted).die Reg.PWR_SHIFT = 0 := by decide +kernel

/-- Slot 0 of position 33, of job 7, has used 1,000 units, beside some jobs in the table. -/
def jobSpent (jobs : Store Nat) : State :=
  let s := tuned (boundRegs ++ [(tileA 33 (Reg.ENERGY_LO 0), 1000)]) cores
  { s with power := { s.power with jobs := jobs, seen := [(64 * 33, 400)] } }

theorem test_job_energy :
    (jobSpent []).inMesh 33 = true ∧ (jobSpent []).slotValid 33 0 = true ∧ (jobSpent []).masterRuns = true ∧ (jobSpent []).stopped = false ∧
    (jobSpent [(7, 11)]).power.jobs.find? ((jobSpent [(7, 11)]).slotJob 33 0) = some 11 ∧
    (jobSpent []).power.jobs.find? ((jobSpent []).slotJob 33 0) = none ∧ (jobSpent []).power.jobs.length < 1024 ∧
    (run (.jobEnergyVisit 33 0) (jobSpent [(7, 11)])).power.jobs.find? 7 = some 611 ∧
    (run (.jobEnergyVisit 33 0) (jobSpent [])).power.jobs.find? 7 = some 601 ∧
    Admitted tap (dieA Reg.JOB_E_CTRL) State.reset ∧
    (run (.jobEClr tap 0x80000000) ((jobSpent [(7, 11)]).setDie Reg.JOB_E_SEL 7)).power.jobs.find? 7 = none := by
  unfold Admitted; decide +kernel

theorem test_job_table_full :
    let s := jobSpent ((List.range 1024).map fun i => (100 + i, 1))
    s.power.jobs.find? (s.slotJob 33 0) = none ∧ 1024 ≤ s.power.jobs.length := by decide +kernel

theorem test_coolant :
    Config.legal live.config = true ∧ bit (live.die Reg.COOLANT_STAT) 31 = false ∧
    bit ((tuned [(dieA Reg.COOLANT_STAT, 0x80000000)] live).die Reg.COOLANT_STAT) 31 = true := by decide +kernel
/-! ### Faults and health -/

/-- A record of TRAY_UE from the router of position 33, for context 5. -/
def ueRec : FaultRec := ⟨0x22, 0, 0, 0, 0, 255, true, 5, 3, 4, 33, .router⟩
/-- Its FAULT command. -/
def ueMsg : FaultMsg := ⟨0x22, 0, 0, 5, 3, 4, 33⟩
/-- A record of another source before it. -/
def ceRec : FaultRec := { ueRec with source := 0x21 }

/-- Both records are in flight; TRAY_UE has every reaction, some registers are written, and the queue holds some records. -/
def struck (l : List (RegAddr × Word)) (queue : List LogRec) : State :=
  let s := tuned ((dieA (Reg.FAULT_SRC_CFG 0x22), 0xBFC00000) :: l) live
  { s with flt := { s.flt with inFlight := [ceRec, ueRec], queue := queue } }

/-- TRAY_UE is active. -/
def activeUe : RegAddr × Word := (dieA (Reg.FAULT_SRC_STAT 0x22), 0x80000000)
/-- A record in the queue. -/
def logged : LogRec := ⟨ueRec, 2, false, false, false, false, false⟩
/-- READY in RUN. -/
def runMode : RegAddr × Word := (dieA Reg.BRINGUP_STAT, 0x92000000)

/-- On a die of 16 routers repeats are not merged. -/
def smallDie (s : State) : State := { s with config := 0x63 }

theorem test_fault :
    (struck [] []).inMesh ueMsg.pos = true ∧ (struck [] []).flt.inFlight = [ceRec] ++ ueRec :: [] ∧
    (∀ x ∈ [ceRec], FaultRec.is x ueMsg = false) ∧ FaultRec.is ueRec ueMsg = true ∧
    (defaultSev ueMsg.source.toNat).isSome = true ∧ ueMsg.source.toNat ≠ Src.RED_SIG ∧ ueMsg.source.toNat ≠ Src.RED_UE ∧
    bit ((struck [] []).die (Reg.FAULT_SRC_CFG 0x22)) 25 = true ∧
    (struck [activeUe] []).srcActive 0x22 = true ∧ (struck [activeUe] []).mergeMode = true ∧
    bit ((struck [activeUe, (dieA (Reg.FAULT_SRC_CFG 0x22), 0)] []).die (Reg.FAULT_SRC_CFG 0x22)) 22 = false ∧
    (struck [] []).srcActive 0x22 = false ∧ bit ((struck [] []).die Reg.FAULT_STAT) 27 = false ∧
    (struck [] []).flt.queue.length < 16 ∧ 16 ≤ (struck [] (List.replicate 16 logged)).flt.queue.length ∧
    bit ((struck [(dieA Reg.FAULT_STAT, 0x08000000)] []).die Reg.FAULT_STAT) 27 = true ∧
    (smallDie (struck [activeUe] [])).mergeMode = false ∧ (smallDie (struck [activeUe] [])).inMesh 33 = true ∧
    (struck [] []).chipHeld = true ∧ (struck [runMode] []).chipHeld = false ∧ (struck [runMode] []).flt.chipReset = none := by
  decide +kernel

theorem test_fault_effects :
    ((run (.fault ueMsg) (struck [] [])).flt.queue.map (·.sev)) = [2] ∧
    ((run (.fault ueMsg) (smallDie (struck [activeUe] []))).flt.queue.map (·.sev)) = [3] ∧
    ((run (.fault ueMsg) (smallDie (struck [activeUe] []))).flt.queue.map (·.escalated)) = [true] ∧
    bit ((run (.fault ueMsg) (struck [] [])).die Reg.ERR_PIN) 31 = true ∧
    (run (.fault ueMsg) (struck [runMode] [])).flt.chipReset = some 0 ∧
    fld ((run (.fault ueMsg) (struck [activeUe] [])).die (Reg.FAULT_SRC_STAT 0x22)) 15 0 = 1 := by decide +kernel

/-- The summary wires of position 33 have shown level 2 since edge 0; its client shows level 1. -/
def wired (edges : Nat) : State :=
  { live with flt := { live.flt with wires := [(33, (2, 0))], cerr := [(33, 1)] }, time := { live.time with edges := edges } }

theorem test_wires :
    ((wired 200).flt.wires.get (0, 0) 33) = (2, 0) ∧ 0 + 200 ≤ (wired 200).time.edges ∧ ¬(0 + 200 ≤ (wired 199).time.edges) ∧
    ((run (.pinSummary 33 2) (wired 200)).flt.queue.map (·.pin)) = [true] ∧
    (wired 0).inMesh 33 = true ∧ (wired 0).flt.cerr.get 0 33 = 1 ∧
    (run (.tileClientErr 33 2) (wired 0)).fenced 33 = false := by decide +kernel

theorem test_fence :
    live.inMesh 33 = true ∧ Admitted tap (tileA 33 Reg.TP_FENCE) live ∧ live.fenced 33 = false ∧
    Admitted tap (tileA 33 Reg.TP_FENCE) (tuned [(tileA 33 Reg.TP_FENCE, 0x40000001)] live) ∧
    (tuned [(tileA 33 Reg.TP_FENCE, 0x40000001)] live).fenced 33 = true ∧
    ((run (.fence tap 33 0) (serving 0 copyCmd)).cmd? 33 0 0) = none := by unfold Admitted; decide +kernel

/-- A chip reset was requested at edge 0; ERR_OUT_N is low since edge 0, with a RELEASE pending or not. -/
def pinned (edges : Nat) (rel : Bool) : State :=
  let s := tuned [(dieA Reg.ERR_PIN, 0x80000000), (dieA Reg.FAULT_STAT, 0x80000000), activeUe] live
  { s with flt := { s.flt with chipReset := some 0, pinRelease := rel }, time := { s.time with edges := edges } }

theorem test_pin :
    (pinned 1000 false).flt.chipReset = some 0 ∧ 0 + 1000 ≤ (pinned 1000 false).time.edges ∧
    (pinned 999 false).time.edges < 0 + 1000 ∧ live.flt.chipReset = none ∧
    Admitted tap (dieA Reg.ERR_PIN) live ∧ Admitted tap (dieA Reg.ERR_PIN) (pinned 20 false) ∧
    Admitted tap (dieA Reg.ERR_PIN) (pinned 19 false) ∧ bit (live.die Reg.ERR_PIN) 31 = false ∧
    bit ((pinned 20 false).die Reg.ERR_PIN) 31 = true ∧ (pinned 20 false).pinMinOver = true ∧
    (pinned 19 false).pinMinOver = false ∧ (pinned 20 true).flt.pinRelease = true ∧
    bit ((run (.errPinRelease tap 0) (pinned 20 false)).die Reg.ERR_PIN) 31 = false ∧
    (run (.errPinRelease tap 0) (pinned 19 false)).flt.pinRelease = true ∧
    bit ((run .errPinMinEnd (pinned 20 true)).die Reg.ERR_PIN) 31 = false ∧
    bit ((pinned 100000 false).die Reg.FAULT_STAT) 31 = true ∧
    (pinned 100000 false).flt.lastMinor + (pinned 100000 false).quietEdges ≤ (pinned 100000 false).time.edges ∧
    (pinned 0 false).time.edges < (pinned 0 false).flt.lastMinor + (pinned 0 false).quietEdges := by unfold Admitted; decide +kernel

/-- The master core finds records in the queue, with some registers written, context 5 being bound to job 7. -/
def logFull (l : List (RegAddr × Word)) (queue : List LogRec) : State :=
  let s := tuned (boundRegs ++ l) cores
  { s with flt := { s.flt with queue := queue } }

/-- The job-failure list is full of other jobs. -/
def fullList : List (RegAddr × Word) := (List.range 16).map fun j => (dieA (Reg.JOB_FAIL j), BitVec.ofNat 32 (2 ^ 31 + 100 + j))

theorem test_log_drain :
    live.masterRuns = false ∧ (logFull [] [logged]).masterRuns = true ∧ (logFull [] [logged]).stopped = false ∧
    (logFull [] [logged]).flt.queue = [logged] ∧ (logFull [] [logged]).flt.events = [] ∧ logged.merged = false ∧
    { logged with merged := true }.merged = true ∧
    1024 ≤ ((logFull [(dieA Reg.FAULT_LOG_HEAD, 1030)] [logged]).die Reg.FAULT_LOG_HEAD).toNat ∧
    bit ((logFull [] [logged]).die (Reg.FAULT_SRC_CFG 0x22)) 22 = true ∧ logged.what.ctx ≠ 0 ∧
    bit ((logFull [(dieA (Reg.FAULT_SRC_CFG 0x22), 0)] [logged]).die (Reg.FAULT_SRC_CFG 0x22)) 22 = false ∧
    (logFull [] [logged]).jobOf logged.what.ctx.toNat = some 7 ∧ (logFull [] [logged]).jobListed 7 = false ∧
    ((List.range 16).find? fun j => !bit ((logFull [] [logged]).die (Reg.JOB_FAIL j)) 31) = some 0 ∧
    (logFull fullList [logged]).jobListed 7 = false ∧
    ((List.range 16).find? fun j => !bit ((logFull fullList [logged]).die (Reg.JOB_FAIL j)) 31) = none ∧
    (run .faultLogDrain (logFull [] [logged])).die (Reg.JOB_FAIL 0) = 0x80220007 ∧
    (run .faultLogDrain (logFull [(dieA Reg.FAULT_LOG_HEAD, 1030)] [logged])).flt.log.find? 6 = some logged := by decide +kernel

/-- As many events as the limit of the kind, at part 3, in one millisecond. -/
def eventful (kind : Nat) : State :=
  let n := (cores.retireCfg kind).1
  { cores with flt := { cores.flt with events := List.replicate n ⟨kind, 3, 0, 0⟩ } }

theorem test_retire :
    (∀ kind < 7, (eventful kind).masterRuns = true ∧ (eventful kind).stopped = false ∧ (eventful kind).flt.queue = [] ∧
      (eventful kind).partRetired kind 3 = false ∧ ((eventful kind).retireCfg kind).1 ≤ (eventful kind).flt.events.length ∧
      ∀ e ∈ (eventful kind).flt.events, e.kind = kind ∧ e.part = 3 ∧
        (eventful kind).nowMs < e.ms + ((eventful kind).retireCfg kind).2) ∧
    (run .faultLogDrain (eventful 5)).partRetired 5 3 = true := by decide +kernel

/-- The east lane 2 of position 33 retrains. -/
def retraining : State := { live with flt := { live.flt with training := [(0, odlPart 0 33 2)] } }

theorem test_odl :
    live.odlExists 0 33 2 = true ∧ live.partRetired 0 (odlPart 0 33 2) = false ∧ live.partTraining 0 (odlPart 0 33 2) = false ∧
    live.stopped = false ∧ bit (live.die Reg.SOAK_STAT) 31 = false ∧ live.odlExists 0 33 9 = false ∧
    retraining.partTraining 0 (odlPart 0 33 2) = true ∧ retraining.stopped = false ∧
    ((run (.odlReplay 0 33 2 1 5) live).flt.inFlight.map (·.source)) = [0x39, 0x3A, 0x3A, 0x3A, 0x3A, 0x3A] ∧
    (run (.odlRetrainDone 0 33 2 false) retraining).partRetired 0 (odlPart 0 33 2) = true := by decide +kernel

/-- A die of 16 routers, READY, with a tray claim for the fault log's history at position 0. -/
def worn : State :=
  let s := smallDie (ready [⟨6, 3, false, 0, 2, 4, 0⟩])
  { s with easel := [], flt := { s.flt with retired := [(0, 30)] } }

theorem test_wear :
    live.masterRuns = false ∧ worn.masterRuns = true ∧ worn.stopped = false ∧ (1, 30) ∈ worn.wearParts ∧
    worn.wearRetired 1 30 = true ∧ 0 < worn.dieF Reg.WEAR_CFG 9 0 ∧ wearKey 1 30 ∉ worn.flt.wearTold ∧
    (worn.die Reg.OPER_HOURS).toNat % 24 = 0 ∧ (0, 0) ∈ worn.wearParts ∧ worn.wearPlace 0 0 = some (0, 8192) ∧
    8192 + 64 ≤ 2 ^ 20 ∧ (worn.flt.scores.get (1000, 0) (wearKey 0 0)).1 < 2 ^ 16 ∧
    ((worn.setDie Reg.OPER_HOURS 23).die Reg.OPER_HOURS).toNat % 24 ≠ 0 ∧ State.reset.phase = 0 ∧ worn.phase ≠ 0 ∧
    (run .operHour (worn.setDie Reg.OPER_HOURS 23)).die Reg.OPER_HOURS = 24 := by decide +kernel

theorem test_wear_run : worn.runGood 0 8192 64 := by
  intro k _; exact wordGood_of worn 0 k (by decide +kernel) (by decide +kernel) (by decide +kernel)

/-- A soak until edge 100. -/
def soaking (edges : Nat) : State :=
  let s := tuned [(dieA Reg.SOAK_STAT, 0x80000000)] live
  { s with flt := { s.flt with soakEnd := 100 }, time := { s.time with edges := edges } }

theorem test_soak :
    Admitted tap (dieA Reg.SOAK_CTRL) live ∧ (live.plainWrite (dieA Reg.SOAK_CTRL) 0x80000000).soakMay = false ∧
    bit ((run (.soakGo tap 0) live).die Reg.SOAK_STAT) 29 = true ∧ bit (live.die Reg.SOAK_STAT) 31 = false ∧
    Admitted tap (dieA Reg.SOAK_CTRL) (soaking 0) ∧ bit ((soaking 0).die Reg.SOAK_STAT) 31 = true ∧
    (soaking 0).time.edges < (soaking 0).flt.soakEnd ∧ (soaking 100).flt.soakEnd ≤ (soaking 100).time.edges ∧
    (soaking 100).stopped = false ∧ bit ((run .soakEnd (soaking 100)).die Reg.SOAK_STAT) 30 = true ∧
    bit ((run (.soakStop tap 0x40000000) (soaking 0)).die Reg.SOAK_STAT) 30 = true ∧
    Admitted tap (dieA Reg.ERR_ENTRY_SEL) live := by unfold Admitted; decide +kernel

/-- A register that covers an offset lies below it, and ends above it. -/
theorem covers_range (r : RegSpec) (off : Nat) (h : r.covers off = true) (h1 : 0 < r.s1) :
    r.base ≤ off ∧ off < r.base + (r.n2 - 1) * r.s2 + r.n1 * r.s1 := by
  unfold RegSpec.covers at h
  split at h
  · simp at h
  · simp only [Bool.and_eq_true, decide_eq_true_eq] at h
    obtain ⟨⟨ha, _⟩, hb⟩ := h
    have hi := (Nat.div_lt_iff_lt_mul h1).1 hb
    have hd := Nat.div_add_mod (off - r.base) r.s2
    have hm : r.s2 * ((off - r.base) / r.s2) ≤ (r.n2 - 1) * r.s2 := by
      rw [Nat.mul_comm]; exact Nat.mul_le_mul_right _ (by omega)
    omega

/-- No context of a die after reset is bound. -/
theorem resetOf_contexts (off : Nat) (h1 : 0x4000 ≤ off) (h2 : off < 0x8000) : resetOf (dieA off) = 0 := by
  have rows : ∀ r ∈ dieRegs, 0 < r.s1 ∧ (r.reset = 0 ∨ r.base + (r.n2 - 1) * r.s2 + r.n1 * r.s1 ≤ 0x4000 ∨ 0x8000 ≤ r.base) := by
    decide +kernel
  have h3 : ¬((3 : Nat) = 3 ∧ 0x2400 ≤ off ∧ off < 0x2800) := by omega
  have h4 : ¬((3 : Nat) = 3 ∧ 0x2100 ≤ off ∧ off < 0x2120) := by omega
  unfold resetOf resetNat
  rw [if_neg h3, if_neg h4, if_neg (by decide : ¬(3 : Nat) = 2)]
  cases hf : findSpec (regionTable 3) off with
  | none => rfl
  | some r =>
    have hf' : dieRegs.find? (fun x => x.covers off) = some r := hf
    have hm := rows r (List.mem_of_find?_eq_some hf')
    have hp : r.covers off = true := List.find?_some (p := fun x : RegSpec => x.covers off) hf'
    have hc := covers_range r off hp hm.1
    have h0 : r.reset = 0 := by omega
    simp [h0]

/-- A key above every listed one is not listed. -/
theorem find?_above {α : Type} (m : Store α) (k : Nat) (h : ∀ kv ∈ m, kv.1 < k) : m.find? k = none := by
  induction m with
  | nil => rfl
  | cons kv m ih =>
    have h1 := h kv (List.mem_cons_self ..)
    simp only [Store.find?]
    rw [if_neg (by omega)]
    exact ih fun x hx => h x (List.mem_cons_of_mem _ hx)

/-- READY in TEST mode, with a timer channel for the soak. -/
def testing : State := { ready [⟨9, 1, false, 0, 0, 1, 0⟩] with easel := [] }.setDie Reg.BRINGUP_STAT 0x94000000

theorem test_soak_go :
    Admitted tap (dieA Reg.SOAK_CTRL) testing ∧ (testing.plainWrite (dieA Reg.SOAK_CTRL) 0x80000000).soakMay = true := by
  refine ⟨by unfold Admitted; decide +kernel, ?_⟩
  have keys : ∀ kv ∈ (testing.plainWrite (dieA Reg.SOAK_CTRL) 0x80000000).regs, kv.1 < (dieA 0x4000).key := by decide +kernel
  have bound : (testing.plainWrite (dieA Reg.SOAK_CTRL) 0x80000000).anyBound = false := by
    unfold State.anyBound
    rw [List.any_eq_false]
    intro c hc
    have hr := resetOf_contexts (Reg.CTX_JOB c) (by unfold Reg.CTX_JOB; omega) (by have := List.mem_range.1 hc; unfold Reg.CTX_JOB; omega)
    have hg : (testing.plainWrite (dieA Reg.SOAK_CTRL) 0x80000000).ctxJob c = 0 := by
      unfold State.ctxJob State.die State.reg
      rw [hr, Store.get, find?_above _ _ fun kv h => Nat.lt_of_lt_of_le (keys kv h) (by simp only [RegAddr.key, Reg.CTX_JOB]; omega)]
      rfl
    rw [hg]; decide
  have h1 : (testing.plainWrite (dieA Reg.SOAK_CTRL) 0x80000000).mode = 2 := by decide +kernel
  have h2 : ((List.range 32).any fun c => (testing.plainWrite (dieA Reg.SOAK_CTRL) 0x80000000).holds 9 1 c) = true := by
    decide +kernel
  have h3 : (testing.plainWrite (dieA Reg.SOAK_CTRL) 0x80000000).dieF Reg.SOAK_CTRL 15 8 ≤ 3 := by decide +kernel
  unfold State.soakMay
  rw [h1, h2, bound, decide_eq_true h3]; rfl
/-! ### Observation -/

/-- A COPY runs at position 33; its engine has moved data in this cycle, or not. -/
def working (moved : Bool) : State :=
  let s := serving 0 { copyCmd with st := 2 }
  { s with act := { s.act with moved := if moved then [(4 * 33, 0)] else [] } }

theorem test_snap :
    (working true).inMesh 33 = true ∧ Admitted tap (tileA 33 Reg.TP_SNAP) (working true) ∧ (working true).panelRuns 33 = true ∧
    (∀ k ∈ (working true).liveEngines, (working true).inMesh (k / 4) = true) ∧
    Admitted tap (tileA 33 Reg.TP_SNAP) (working false) ∧ (working false).hasWork 33 0 = true ∧
    (∀ k ∈ (working false).liveEngines, (working false).inMesh (k / 4) = true) ∧
    (run (.tpSnap tap 33 1) (working true)).reg64 (tileA 33 (Reg.ENG_BUSY_LO 0)) = 1 ∧
    (run (.tpSnap tap 33 1) (working false)).reg64 (tileA 33 (Reg.ENG_STALL_LO 0)) = 1 := by unfold Admitted; decide +kernel

/-- Unit 1 of position 33 has a range of one word at offset 64, COMPARE set and a format; with some registers written. -/
def swatched (l : List (RegAddr × Word)) (scans : List Nat) : State :=
  let s := tuned ([(swA 33 (Reg.SW_BASE 1), 64), (swA 33 (Reg.SW_LEN 1), 32), (swA 33 (Reg.SW_CTRL 1), 0x80000)] ++ l)
    (ready [⟨3, 3, false, 33, 4, 1, 0⟩])
  { s with trays := { s.trays with swScan := scans } }

/-- Landing: active, with a result. -/
def swLanding : State := swatched [(swA 33 (Reg.SW_STAT 1), 0x80000000), (swA 33 (Reg.SW_WORDS 1), 7)] []
/-- Scanning. -/
def scanning : State := swatched [(swA 33 (Reg.SW_STAT 1), 0x80000000)] [133]

theorem test_swatch_start :
    (swatched [] []).inMesh 33 = true ∧ Admitted tap (swA 33 (Reg.SW_CTRL 1)) (swatched [] []) ∧
    ((swatched [] []).plainWrite (swA 33 (Reg.SW_CTRL 1)) 0x80080000).swMayStart 33 1 = true ∧
    ((swatched [] []).plainWrite (swA 33 (Reg.SW_CTRL 1)) 0x20080000).swMayStart 33 1 = true ∧
    ((swatched [] []).plainWrite (swA 33 (Reg.SW_CTRL 1)) 0x80F80000).swMayStart 33 1 = false ∧
    (swatched [] []).swActive 33 1 = false ∧ (run (.swatchArm tap 33 1 0x80080000) (swatched [] [])).swActive 33 1 = true ∧
    (run (.swatchScan tap 33 1 0x20080000) (swatched [] [])).trays.swScan = [133] ∧
    bit ((run (.swatchScan tap 33 1 0xA0080000) (swatched [] [])).reg (swA 33 (Reg.SW_STAT 1))) 27 = true := by
  unfold Admitted; decide +kernel

theorem test_swatch_stop :
    Admitted tap (swA 33 (Reg.SW_CTRL 1)) swLanding ∧ swLanding.swActive 33 1 = true ∧ 133 ∉ swLanding.trays.swScan ∧
    swLanding.trayClaim 3 (some 33) = some ⟨3, 3, false, 33, 4, 1, 0⟩ ∧
    (swatched [(swA 33 (Reg.SW_STAT 1), 0x80000000)] []).trayClaim 3 (some 34) = none ∧
    ({ swLanding with load := Loader.empty }).trayClaim 3 (some 33) = none ∧
    ({ swLanding with load := Loader.empty }).swActive 33 1 = true ∧
    bit ((run (.swatchStop tap 33 1 0x40080000) swLanding).reg (swA 33 (Reg.SW_STAT 1))) 30 = true ∧
    (swLanding.swRecord 33 1 false 0).take 4 = [7, 0, 0, 0] := by
  unfold Admitted; decide +kernel

theorem test_swatch_record_place : swLanding.runGood 33 (4096 * 4 + 64) 64 := by
  intro k _; exact wordGood_of swLanding 33 k (by decide +kernel) (by decide +kernel) (by decide +kernel)

theorem test_swatch_scan :
    133 ∈ scanning.trays.swScan ∧ scanning.panelRuns 33 = true ∧ scanning.stopped = false ∧ scanning.inMesh 33 = true ∧
    (scanning.reg (swA 33 (Reg.SW_LEN 1))).toNat / 32 = 1 ∧ (scanning.reg (swA 33 (Reg.SW_BASE 1))).toNat = 64 ∧ 133 ∉ swLanding.trays.swScan ∧
    (run (.swatchScanDone 33 1) scanning).swActive 33 1 = false ∧
    (run (.swatchScanDone 33 1) scanning).reg (swA 33 (Reg.SW_WORDS 1)) = 1 := by decide +kernel

theorem test_swatch_word : scanning.wordGood 33 (64 / 32) :=
  wordGood_of scanning 33 2 (by decide +kernel) (by decide +kernel) (by decide +kernel)

/-- TRACE holds the whole buffer, and perhaps the trace port and a timer channel; its mode, and one condition of a kind. -/
def traced (mode kind : Nat) (port : Bool) : State :=
  tuned [(dieA Reg.TRACE_CTRL, BitVec.ofNat 32 mode), (dieA (Reg.TRIG_CFG 1), BitVec.ofNat 32 (kind * 2 ^ 29)),
    (dieA Reg.TRACE_EVT_EN, 0x800), (dieA (Reg.TRIG_ARG 1), 0x0BFFF077)]
    (ready ([⟨2, 2, false, 0, 0, 64, 0⟩] ++ if port then [⟨2, 5, false, 0, 5, 1, 0⟩, ⟨2, 1, false, 0, 3, 1, 0⟩] else []))

/-- Capturing, that condition armed. -/
def capturing (mode kind : Nat) : State :=
  let s := traced mode kind true
  { s with trace := { s.trace with on := true, armed := 2 }, time := { s.time with edges := 100000 } }

theorem test_trace_arm :
    Admitted tap (dieA Reg.TRACE_CTRL) (traced 1 5 true) ∧ (traced 1 5 true).traceMode = fld (0x80000001 : Word) 1 0 ∧
    (traced 0 5 true).traceMode = 0 ∧ (traced 1 4 true).canArm 1 = true ∧ (traced 1 4 false).canArm 1 = false ∧
    (traced 1 4 false).trigKind 1 = 4 ∧ Admitted tap (dieA Reg.TRACE_CTRL) (traced 1 4 false) ∧
    (run (.traceArm tap 0x80000001) (traced 1 5 true)).trace.armed = 2 ∧
    (run (.traceArm tap 0x80000001) (traced 1 4 false)).trace.on = true ∧
    bit ((run (.traceArm tap 0x80000001) (traced 1 4 false)).die Reg.TRACE_STAT) 29 = true := by unfold Admitted; decide +kernel

theorem test_trace_trig :
    Admitted tap (dieA Reg.TRACE_CTRL) (capturing 1 5) ∧ (capturing 1 5).trace.on = true ∧ (capturing 1 5).trigKind 1 = 5 ∧
    (capturing 1 5).trace.armed.testBit 1 = true ∧ (∀ j < 1, (capturing 1 5).trigKind j ≠ 5) ∧
    fld (0x40000001 : Word) 1 0 = (capturing 1 5).traceMode ∧ (∀ k < 4, (capturing 1 4).trigKind k ≠ 5) ∧
    bit ((run (.traceTrig tap 0x40000001) (capturing 1 5)).die Reg.TRACE_STAT) 31 = true := by unfold Admitted; decide +kernel

theorem test_trace_mode :
    (traced 1 5 false).holds 2 5 5 = false ∧ (traced 1 5 true).holds 2 5 5 = true ∧ fld (2 : Word) 1 0 ≠ (traced 1 5 true).traceMode ∧
    Admitted tap (dieA Reg.TRACE_CTRL) (traced 1 5 false) ∧ fld (3 : Word) 1 0 ≠ (traced 1 5 true).traceMode ∧
    bit ((run (.traceMode tap 2) (traced 1 5 false)).die Reg.TRACE_STAT) 29 = true ∧
    (run (.traceMode tap 2) (traced 1 5 true)).traceMode = 2 ∧ (run (.traceMode tap 2) (capturing 1 5)).trace.on = true := by
  unfold Admitted; decide +kernel

theorem test_trace_mark :
    Admitted tap (dieA Reg.TRACE_MARK) (traced 1 1 true) ∧ (traced 1 1 true).trace.on = false ∧
    Admitted tap (dieA Reg.TRACE_MARK) (capturing 1 1) ∧ (capturing 1 1).trace.on = true ∧
    bit ((capturing 1 1).die Reg.TRACE_EVT_EN) 0x0B = true ∧ (capturing 1 1).trigKind 1 = 1 ∧
    (capturing 1 1).trace.armed.testBit 1 = true ∧ fld ((capturing 1 1).trigArg 1) 31 24 = 0x0B ∧
    ((0x77 : Word).toNat &&& fld ((capturing 1 1).trigArg 1) 23 12) % 4096 = fld ((capturing 1 1).trigArg 1) 11 0 ∧
    { (capturing 1 1) with trace := { (capturing 1 1).trace with armed := 0 } }.trace.armed = 0 ∧
    (capturing 1 1).stopped = false ∧ ((capturing 1 1).trace.fifos.get [] 8).length < 4 ∧
    bit ((run (.traceMark tap 0x77) (capturing 1 1)).die Reg.TRACE_STAT) 31 = true ∧
    ((run (.traceMark tap 0x76) (capturing 1 1)).trace.fifos.get [] 8).length = 1 := by unfold Admitted; decide +kernel

/-- In STREAM without a granule of the main area. -/
def bare : State := { capturing 2 4 with load := Loader.empty }

theorem test_trace_trigger :
    (capturing 2 4).trigKind 1 = 4 ∧ (capturing 2 4).trigNt 1 ≤ (capturing 2 4).ntNat ∧ (capturing 2 4).stopped = false ∧
    (capturing 2 4).trace.on = true ∧ (capturing 2 4).trace.armed.testBit 1 = true ∧
    (capturing 2 4).ntNat < ((capturing 2 4).setDie (Reg.TRIG_NT_LO 1) 64).trigNt 1 ∧
    bit ((run (.traceTrigger 1) (capturing 2 4)).die Reg.TRACE_STAT) 31 = true ∧
    (capturing 2 4).traceMode = 2 ∧ (capturing 2 4).trace.syncAt + (capturing 2 4).syncEdges ≤ (capturing 2 4).time.edges ∧
    (capturing 2 4).trace.lost.find? 3 = none ∧
    (capturing 2 4).trace.stream.length + 2 ≤ 512 * (capturing 2 4).mainGranules.length ∧
    bare.trace.on = true ∧ bare.traceMode = 2 ∧ bare.stopped = false ∧ bare.trace.syncAt + bare.syncEdges ≤ bare.time.edges ∧
    bare.trace.lost.find? 3 = none ∧ 512 * bare.mainGranules.length < bare.trace.stream.length + 2 ∧
    (run .traceSync (capturing 2 4)).trace.stream.length = 2 ∧ (run .traceSync bare).die Reg.TRACE_LOST_CNT = 1 := by
  decide +kernel

theorem test_trace_read :
    AdmittedRead tap (dieA (Reg.TRACE_RD_DATA 3)) live ∧
    fld ((run (.traceRdData tap) (tuned [(dieA Reg.TRACE_RD_SEL, 0x3FFF)] live)).die Reg.TRACE_RD_SEL) 13 0 = 0 := by
  unfold AdmittedRead; decide +kernel

end Sys2Proof.Tests
end

/-! PROOFS. Register writes: every write command is one guarded write, what a refused one leaves, and what an admitted
write of a register without an action does to each bit (R9, R11, R16, R333, R458, R460). -/
namespace Sys2Proof.Machine
section
variable (s : State)

/-! ### What a response and a refusal leave alone -/

/-- A response changes the requests of the host ports and the last responses alone (R458). -/
theorem State.respond_eq (acc : Access) (a : RegAddr) (w : Bool) (data : Word) (st : Nat) :
    s.respond acc a w data st = { s with
      hostReqs := (s.respond acc a w data st).hostReqs, lastRsp := (s.respond acc a w data st).lastRsp } := by
  obtain ⟨hs, l, e⟩ := s.respond_frame acc a w data st
  rw [e]

@[simp] theorem State.respond_trays (acc : Access) (a : RegAddr) (w : Bool) (data : Word) (st : Nat) :
    (s.respond acc a w data st).trays = s.trays := by rw [s.respond_eq]

@[simp] theorem State.respond_spine (acc : Access) (a : RegAddr) (w : Bool) (data : Word) (st : Nat) :
    (s.respond acc a w data st).spine = s.spine := by rw [s.respond_eq]

@[simp] theorem State.respond_eng (acc : Access) (a : RegAddr) (w : Bool) (data : Word) (st : Nat) :
    (s.respond acc a w data st).eng = s.eng := by rw [s.respond_eq]

@[simp] theorem State.respond_mesh (acc : Access) (a : RegAddr) (w : Bool) (data : Word) (st : Nat) :
    (s.respond acc a w data st).mesh = s.mesh := by rw [s.respond_eq]

@[simp] theorem State.respond_flt (acc : Access) (a : RegAddr) (w : Bool) (data : Word) (st : Nat) :
    (s.respond acc a w data st).flt = s.flt := by rw [s.respond_eq]

/-- At a host port the response waits as one more request (R30, R458). -/
theorem State.respond_hostReqs (acc : Access) (a : RegAddr) (w : Bool) (data : Word) (st k : Nat)
    (hk : acc.path = .host k) :
    (s.respond acc a w data st).hostReqs = s.hostReqs ++ [⟨k, acc.tag, BitVec.ofNat 32 a.key, w, data, st⟩] := by
  simp only [State.respond, hk]

/-- A refusal changes the fault network and draws a free value, and no more (R9, R16, R333). -/
theorem State.refuse_eq (acc : Access) (a : RegAddr) (v : Verdict) :
    s.refuse acc a v = { s with flt := (s.refuse acc a v).flt, fresh := (s.refuse acc a v).fresh } := by
  cases v <;> rfl

/-- A raised fault is one more record in flight, with its source and first item (R396). -/
theorem State.raise_inFlight (src pos : Nat) (b : BlockKind) (unit ctx x y : Nat) :
    ∃ r, (s.raise src pos b unit ctx x y).flt.inFlight = s.flt.inFlight ++ [r] ∧
      r.source = BitVec.ofNat 8 src ∧ r.arg0 = BitVec.ofNat 64 x :=
  ⟨s.faultRec src pos b unit ctx x y 0, rfl, rfl, rfl⟩

theorem State.raise_raised (src pos : Nat) (b : BlockKind) (unit ctx x y : Nat) :
    Raised src s (s.raise src pos b unit ctx x y) := by
  obtain ⟨r, hr, hsrc, -⟩ := s.raise_inFlight src pos b unit ctx x y
  exact ⟨r, hr, hsrc⟩

/-- The state in which a refused write ends: its record, then its response. -/
def State.refused (s : State) (acc : Access) (a : RegAddr) (v : Verdict) : State :=
  (s.refuse acc a v).respond acc a true 0 v.status

/-- A refused write leaves every register and every tray. -/
theorem State.refused_sameRegsAndTrays (acc : Access) (a : RegAddr) (v : Verdict) :
    SameRegsAndTrays s (s.refused acc a v) := by
  refine ⟨fun b => ?_, ?_⟩
  · rw [State.refused, State.respond_reg]
    exact State.reg_congr (s.refuse_regs acc a v) b
  · rw [State.refused, State.respond_trays, s.refuse_trays]

/-- A refused write leaves the spine ports, the engines and the routers. -/
theorem State.refused_blocks (acc : Access) (a : RegAddr) (v : Verdict) :
    (s.refused acc a v).spine = s.spine ∧ (s.refused acc a v).eng = s.eng ∧ (s.refused acc a v).mesh = s.mesh := by
  simp only [State.refused, State.respond_spine, State.respond_eng, State.respond_mesh]
  rw [s.refuse_eq]
  exact ⟨rfl, rfl, rfl⟩

/-- At a host port a refused write waits with data 0 and the status of its verdict (R458). -/
theorem State.refused_hostReqs (acc : Access) (a : RegAddr) (v : Verdict) (k : Nat) (hk : acc.path = .host k) :
    (s.refused acc a v).hostReqs =
      s.hostReqs ++ [⟨k, acc.tag, BitVec.ofNat 32 a.key, true, 0, v.status⟩] := by
  rw [State.refused, State.respond_hostReqs _ _ _ _ _ _ k hk, s.refuse_eq]

/-- A write to a block without a running clock reports nothing (R458). -/
theorem State.refused_stopped_flt (acc : Access) (a : RegAddr) : (s.refused acc a .stopped).flt = s.flt :=
  State.respond_flt _ _ _ _ _ _

/-- An unmapped write reports ACCESS_UNMAPPED with the address (R9). -/
theorem State.refused_unmapped_inFlight (acc : Access) (a : RegAddr) :
    ∃ r, (s.refused acc a .unmapped).flt.inFlight = s.flt.inFlight ++ [r] ∧
      r.source = BitVec.ofNat 8 Src.ACCESS_UNMAPPED ∧ r.arg0 = BitVec.ofNat 64 a.key := by
  rw [State.refused, State.respond_flt]
  exact s.raise_inFlight ..

/-- A write out of a Tenant's reach reports ACCESS_PRIV (R16). -/
theorem State.refused_priv_raised (acc : Access) (a : RegAddr) : Raised Src.ACCESS_PRIV s (s.refused acc a .priv) := by
  rw [Raised, State.refused, State.respond_flt]
  exact s.raise_raised ..

/-- A write that START_UP holds reports BRINGUP_WRITE (R333). -/
theorem State.refused_startup_raised (acc : Access) (a : RegAddr) :
    Raised Src.BRINGUP_WRITE s (s.refused acc a .startup) := by
  rw [Raised, State.refused, State.respond_flt]
  exact s.raise_raised ..

/-! ### Every write command is a guarded write -/

/-- A command that addresses a register for writing is the guarded write of that register with some effect (R460). -/
theorem exec_eq_guardedWrite {i : Instr} {acc : Access} {a : RegAddr} (hw : writeOf i = some (acc, a)) :
    ∃ f, exec i s = .next (guardedWrite acc a f s) := by
  cases i with
  | stencilDataAccess _ write data =>
    cases write with
    | true => cases hw; exact ⟨fun t => t.stencilDataWrite acc.path data, rfl⟩
    | false => cases hw
  | swatchArm _ _ u | swatchStop _ _ u | swatchScan _ _ u =>
    by_cases hu : u < 4
    · simp only [writeOf, hu, if_true, Option.some.injEq, Prod.mk.injEq] at hw
      obtain ⟨rfl, rfl⟩ := hw
      exact ⟨_, congrArg _ (State.when_of _ _ _ (decide_eq_true hu))⟩
    · simp [writeOf, hu] at hw
  | regWr | arbCommit | dieIdWrite | routeEntryWrite | spraySetWrite | drainHold | routeSwap | timeCfgWrite | timeSet
  | stencilRun | stencilEpochWrite | stencilSwitchArm | washOwnerWrite | ctxBind | ctxUnbind | queueEnable
  | queueSubmit | queueRestart | xlateResume | abort | xlateInv | preempt | preemptResume | scrub | redTreeEnable
  | redTreeDisable | collArm | collDisarm | collAbort | trayBankCtrlWrite | ringEnable | ringFlush | ringHeadWrite
  | wellEnable | spEnable | spRetrain | safetyRelease | peerAccess | bringupReload | bringupContinue | glazeSwitch
  | jobEClr | errPinRelease | fence | soakGo | soakStop | errEntrySelWrite | tpSnap | traceArm | traceTrig
  | traceMode | traceMark => cases hw; exact ⟨_, rfl⟩
  | _ => cases hw

/-! ### Writes by access types -/

/-- What a write by access types leaves in each bit: an RW bit is replaced, a W1C bit is cleared by a 1, every other
bit stays (R11, R12). -/
theorem bit_maskedValue (r : RegSpec) (old data : Word) (i : Nat) (hi : i < 32) :
    bit (maskedValue r old data) i =
      if r.rw.testBit i then (if r.w1c.testBit i then bit data i || (bit old i && !bit data i) else bit data i)
      else if r.w1c.testBit i then bit old i && !bit data i
      else bit old i := by
  simp only [bit_eq_getLsbD, maskedValue, BitVec.getLsbD_or, BitVec.getLsbD_and, BitVec.getLsbD_not,
    BitVec.getLsbD_ofNat, hi, decide_true, Bool.true_and]
  cases r.rw.testBit i <;> cases r.w1c.testBit i <;> simp

/-- A write of a router register that is no route entry, no spray set and has no action goes by access types alone. -/
theorem State.routerWrite_plain (a : RegAddr) (data : Word) (hr : routeReg a.off = none) (hc : a.off ≠ Reg.ARB_COMMIT)
    (ho : a.off ≠ Reg.ONOFF_CFG) : s.routerWrite a data = s.plainWrite a data := by
  simp only [State.routerWrite, hr, hc, ho, if_false]

/-- A write of a tile port's register at offsets 0x2000 to 0x61FF goes by access types alone. -/
theorem State.tileWrite_plain (p : Path) (a : RegAddr) (data : Word) (hlo : 0x2000 ≤ a.off) (hhi : a.off < 0x6200) :
    s.tileWrite p a data = s.plainWrite a data := by
  have h1 : ¬a.off < 0x0800 := by omega
  have h2 : ¬a.off < 0x1800 := by omega
  have h3 : ¬a.off < 0x2000 := by omega
  simp only [State.tileWrite, h1, h2, h3, hhi, if_false, if_true]

/-- A register that is not die-level is written by its region's rule. -/
theorem State.writeAny_of_region_ne (p : Path) (a : RegAddr) (data : Word) (h : a.region ≠ 3) :
    s.writeAny p a data = s.regEffect p a data := by
  have hne (off : Nat) : a ≠ dieA off := fun e => h (congrArg RegAddr.region e)
  simp only [State.writeAny, hne, if_false]

/-- The registers without an action among those of the routers and the tile ports. -/
def plainReg (a : RegAddr) : Prop :=
  (a.region = 0 ∧ routeReg a.off = none ∧ a.off ≠ Reg.ARB_COMMIT ∧ a.off ≠ Reg.ONOFF_CFG) ∨
    (a.region = 1 ∧ 0x2000 ≤ a.off ∧ a.off < 0x6200)

/-- On every path a register without an action is written by its access types alone (R11). -/
theorem State.writeAny_plainReg (p : Path) (a : RegAddr) (data : Word) (h : plainReg a) :
    s.writeAny p a data = s.plainWrite a data := by
  rcases h with ⟨hreg, hr, hc, ho⟩ | ⟨hreg, hlo, hhi⟩
  · rw [s.writeAny_of_region_ne p a data (by omega), State.regEffect, hreg]
    exact s.routerWrite_plain a data hr hc ho
  · rw [s.writeAny_of_region_ne p a data (by omega), State.regEffect, hreg]
    exact s.tileWrite_plain p a data hlo hhi

/-- A write by access types and its response change the register written and no other. -/
theorem State.plainWrite_respond_onlyRegs (acc : Access) (a : RegAddr) (data : Word) (st : Nat) :
    OnlyRegs [a] s ((s.plainWrite a data).respond acc a true 0 st) := by
  refine ⟨?_, fun b hb => ?_⟩
  · rw [State.respond_eq, s.plainWrite_frame]
  · rw [State.respond_reg]
    exact s.plainWrite_reg_other a b data (hb a (List.mem_singleton_self a))

end

/-! ### The obligations -/

/-- Settles O6: every write command is a guarded write, and a guarded write that a check stops ends in `refused`. -/
theorem refusedWritesHaveNoEffect : Obligations.RefusedWritesHaveNoEffect := by
  intro i acc a s hw
  obtain ⟨f, hf⟩ := exec_eq_guardedWrite s hw
  rw [hf]
  refine ⟨fun hi => by rw [guardedWrite_waits s acc a f hi], fun hi hv => ?_⟩
  rw [guardedWrite_refused s acc a f hi hv]
  generalize s.verdict acc a true = v
  obtain ⟨hspine, heng, hmesh⟩ := s.refused_blocks acc a v
  refine ⟨s.refused acc a v, rfl, s.refused_sameRegsAndTrays acc a v, hspine, heng, hmesh, ?stopped, ?unmapped, ?priv,
    ?startup, s.refused_hostReqs acc a v⟩
  case stopped => rintro rfl; exact s.refused_stopped_flt acc a
  case unmapped => rintro rfl; exact s.refused_unmapped_inFlight acc a
  case priv => rintro rfl; exact s.refused_priv_raised acc a
  case startup => rintro rfl; exact s.refused_startup_raised acc a

/-- Settles O10: the write is admitted, its register has no action, and each bit follows its access type. -/
theorem plainRegisterWriteByAccessType : Obligations.PlainRegisterWriteByAccessType := by
  intro acc addr data s r a hplain ⟨hissue, hok⟩ hspec
  have hexec : exec (.regWr acc addr data) s = .next ((s.plainWrite a data).respond acc a true 0 0) := by
    rw [← s.writeAny_plainReg acc.path a data hplain]
    exact congrArg _ (guardedWrite_ok s acc a _ hissue hok)
  refine ⟨_, hexec, s.plainWrite_respond_onlyRegs acc a data 0, fun i hi => ?_⟩
  rw [State.respond_reg, s.plainWrite_reg_same a data r hspec]
  exact bit_maskedValue r (s.reg a) data i hi

end Sys2Proof.Machine

/-! PROOFS. The fabric: a sketch flit at a router joins its output's queue or is discarded (R27, R31, R61, R416), and the
watchdog of an easel core expires (R39, R403). -/
namespace Sys2Proof.Machine
section
variable (s : State)

/-! ### Unlisting by a test -/

/-- Unlisting by a test leaves no value under a key that fails it. -/
theorem Store.find?_keep_failing {α : Type} (m : Store α) (p : Nat → Bool) (k : Nat) (h : p k = false) :
    (m.keep p).find? k = none := by
  induction m with
  | nil => rfl
  | cons kv m ih =>
    obtain ⟨k', v⟩ := kv
    by_cases hp : p k' = true
    · have hne : k' ≠ k := by rintro rfl; simp [h] at hp
      simpa [Store.keep, hp, Store.find?, hne] using ih
    · simpa [Store.keep, hp] using ih

/-- A key that fails the test reads as an unlisted key. -/
theorem Store.get_keep_failing {α : Type} (m : Store α) (d : α) (p : Nat → Bool) (k : Nat) (h : p k = false) :
    (m.keep p).get d k = d := by rw [Store.get, m.find?_keep_failing p k h, Option.getD_none]

/-! ### The scrub of an easel core -/

/-- A scrub changes the memories of the cores, and with the master core's the fault log and the events (R39, R404). -/
theorem State.easelScrub_frame (core : Nat) :
    s.easelScrub core = { s with
      core := (s.easelScrub core).core
      flt := { s.flt with log := (s.easelScrub core).flt.log, events := (s.easelScrub core).flt.events } } := by
  simp only [State.easelScrub, State.when]
  split <;> rfl

/-- A scrub unlists every word of the core's data memory. -/
theorem State.easelScrub_mem (core : Nat) :
    (s.easelScrub core).core.mem = s.core.mem.keep fun k => !(k / 2 ^ 19 == 2 * core + 1) := by
  simp only [State.easelScrub, State.when]
  split <;> rfl

/-- After a scrub the core's data memory reads 0 (R39). -/
theorem State.easelScrub_data (core off : Nat) (h : off < 2 ^ 19) :
    (s.easelScrub core).core.mem.get 0 (2 ^ 20 * core + 2 ^ 19 + off) = 0 := by
  have hk : (2 ^ 20 * core + 2 ^ 19 + off) / 2 ^ 19 = 2 * core + 1 := by omega
  rw [s.easelScrub_mem]
  exact Store.get_keep_failing _ _ _ _ (by rw [hk, beq_self_eq_true, Bool.not_true])

/-! ### The expiry of a watchdog -/

/-- The latch of a core's watchdog takes the present AON edge (R39). -/
def State.wdtLatch (s : State) (core : Nat) : State :=
  { s with flt := { s.flt with wdtLast := s.flt.wdtLast.put core s.time.edges } }

/-- A second expiry within QUIET_US of the first halts the core (R39). -/
theorem State.easelExpire_again (core e : Nat) (he : s.flt.wdtLast.find? core = some e)
    (hq : s.time.edges ≤ e + s.quietEdges) :
    s.easelExpire core = { s.wdtLatch core with easel := s.easel.set 0 core 1 } := by
  simp only [State.easelExpire, he, hq, decide_true, if_true, State.wdtLatch]

/-- An expiry without another one within QUIET_US before it restarts the core with its data memory scrubbed (R39). -/
theorem State.easelExpire_alone (core : Nat)
    (h : ∀ e, s.flt.wdtLast.find? core = some e → e + s.quietEdges < s.time.edges) :
    s.easelExpire core = (s.wdtLatch core).easelScrub core := by
  cases he : s.flt.wdtLast.find? core with
  | none => simp only [State.easelExpire, he, Bool.false_eq_true, if_false, State.wdtLatch]
  | some e =>
    have hq : ¬s.time.edges ≤ e + s.quietEdges := Nat.not_le.2 (h e he)
    simp only [State.easelExpire, he, hq, decide_false, Bool.false_eq_true, if_false, State.wdtLatch]

/-- An expiry changes the core's run state and memory, its latch, and with a scrub of the master core the fault log and
the events. -/
theorem State.easelExpire_frame (core : Nat) :
    s.easelExpire core = { s with
      easel := (s.easelExpire core).easel
      core := (s.easelExpire core).core
      flt := { s.flt with
        wdtLast := s.flt.wdtLast.put core s.time.edges
        log := (s.easelExpire core).flt.log
        events := (s.easelExpire core).flt.events } } := by
  by_cases h : ∃ e, s.flt.wdtLast.find? core = some e ∧ s.time.edges ≤ e + s.quietEdges
  · obtain ⟨e, he, hq⟩ := h
    rw [s.easelExpire_again core e he hq]
    rfl
  · have halone : ∀ e, s.flt.wdtLast.find? core = some e → e + s.quietEdges < s.time.edges :=
      fun e he => Nat.not_le.1 fun hq => h ⟨e, he, hq⟩
    rw [s.easelExpire_alone core halone, State.easelScrub_frame]
    rfl

/-- The state in which the record of a core's watchdog has left (R39). -/
def State.wdtRaise (s : State) (core : Nat) : State := s.raise Src.EASEL_WDT 0 (.easel core) 0 0 core 0

/-- The watchdog of a running core reports, then expires. -/
theorem exec_easelWdt (core : Nat) (hc : core ≤ s.masterCore) (hr : s.coreRuns core = true) (hs : s.stopped = false) :
    exec (.easelWdt core) s = .next ((s.wdtRaise core).easelExpire core) :=
  congrArg done (State.when_of _ _ _ (by simp [hc, hr, hs]))

/-! ### A sketch flit at a router -/

/-- At a running sketch router the flit leaves its link and takes its output. -/
theorem exec_sketchFlitArrive (pos : Pos) (first : Bool) (f : SFlit) (hm : s.inMesh pos = true)
    (hr : s.sketchRuns = true) :
    exec (.sketchFlitArrive pos first f) s = .next ((s.takeMoving pos f).sketchArrive pos first f) :=
  congrArg done (State.when_of _ _ _ (by simp [hm, hr]))

@[simp] theorem State.takeMoving_flitGoal (pos : Nat) (f g : SFlit) :
    (s.takeMoving pos f).flitGoal g = s.flitGoal g := rfl

@[simp] theorem State.takeMoving_sketchCut (pos : Nat) (f : SFlit) (p out : Nat) :
    (s.takeMoving pos f).sketchCut p out = s.sketchCut p out := rfl

@[simp] theorem State.takeMoving_waiting (pos : Nat) (f : SFlit) :
    (s.takeMoving pos f).sketch.waiting = s.sketch.waiting := rfl

/-- A flit joins the end of a queue of an output. -/
def State.sketchJoin (s : State) (k : Nat) (f : SFlit) : State :=
  { s with sketch := { s.sketch with waiting := s.sketch.waiting.set [] k (s.sketch.waiting.get [] k ++ [f]) } }

@[simp] theorem State.sketchJoin_same (k : Nat) (f : SFlit) :
    (s.sketchJoin k f).sketch.waiting.get [] k = s.sketch.waiting.get [] k ++ [f] := Store.get_set_same ..

theorem State.sketchJoin_other (k j : Nat) (f : SFlit) (h : j ≠ k) :
    (s.sketchJoin k f).sketch.waiting.get [] j = s.sketch.waiting.get [] j := Store.get_set_other _ _ _ _ _ _ h

/-- A flit that the router takes, bound over a link that is not retired, joins its output's queue (R27, R31). -/
theorem State.sketchArrive_joins (pos : Nat) (first : Bool) (f : SFlit) (goal : Nat) (g : Option Nat)
    (hf : first = false ∨ flitGood f = true) (hg : s.flitGoal f = some (goal, g))
    (hc : s.sketchCut pos (sketchOut pos goal) = false) :
    s.sketchArrive pos first f = s.sketchJoin (sketchKey pos (sketchOut pos goal) f.kvc.toNat) f := by
  have htaken : (first && !flitGood f) = false := by rcases hf with h | h <;> simp [h]
  simp only [State.sketchArrive, htaken, hg, hc, Bool.false_eq_true, if_false, State.sketchJoin]

/-- A flit is discarded that its first router does not take, that has no goal, or whose link is retired (R31, R61,
R416). -/
theorem State.sketchArrive_discards (pos : Nat) (first : Bool) (f : SFlit)
    (h : (first = true ∧ flitGood f = false) ∨ s.flitGoal f = none ∨
      ∃ goal g, s.flitGoal f = some (goal, g) ∧ s.sketchCut pos (sketchOut pos goal) = true) :
    s.sketchArrive pos first f = s.discardFlit pos f := by
  rcases h with ⟨hf, hbad⟩ | hnone | ⟨goal, g, hg, hc⟩
  · simp [State.sketchArrive, hf, hbad]
  · simp [State.sketchArrive, hnone]
  · simp [State.sketchArrive, hg, hc]

end

/-! ### The obligations -/

/-- Settles O14: the record leaves, and by the core's last expiry the core halts or is scrubbed. -/
theorem easelWatchdogExpires : Obligations.EaselWatchdogExpires := by
  intro s core hcore hruns hstopped
  have hframe := (s.wdtRaise core).easelExpire_frame core
  refine ⟨_, exec_easelWdt s core hcore hruns hstopped, ⟨fun a => ?regs, ?trays⟩, ?time, ?record, ?latch, ?again, ?alone⟩
  case regs => rw [hframe]; rfl
  case trays => rw [hframe]; rfl
  case time => rw [hframe]; rfl
  case record => rw [hframe]; exact s.raise_inFlight Src.EASEL_WDT 0 (.easel core) 0 0 core 0
  case latch => rw [hframe]; exact Store.find?_put_same ..
  case again =>
    intro e he hq
    rw [(s.wdtRaise core).easelExpire_again core e he hq]
    exact ⟨by simp [State.coreRuns], rfl⟩
  case alone =>
    intro h
    rw [(s.wdtRaise core).easelExpire_alone core h]
    refine ⟨?_, fun off hoff => State.easelScrub_data _ core off hoff⟩
    rw [State.easelScrub_frame]
    exact hruns

/-- Settles O12: the flit joins its output's queue or is discarded, after it has left its link. -/
theorem sketchFlitJoinsItsOutput : Obligations.SketchFlitJoinsItsOutput := by
  intro s pos first f hmesh hruns
  have hexec := exec_sketchFlitArrive s pos first f hmesh hruns
  refine ⟨fun goal g hf hg hc => ?joins, fun h => ?discards⟩
  case joins =>
    rw [(s.takeMoving pos f).sketchArrive_joins pos first f goal g hf hg hc] at hexec
    exact ⟨_, hexec, rfl, State.sketchJoin_same .., fun k hk => State.sketchJoin_other _ _ _ _ hk⟩
  case discards =>
    rw [(s.takeMoving pos f).sketchArrive_discards pos first f h] at hexec
    exact ⟨_, hexec, State.raise_raised .., rfl, fun _ => rfl, rfl⟩

end Sys2Proof.Machine

/-! PROOFS. Routing and arbitration: an output chooses the most urgent of its candidates (R98 to R101), a starved
candidate is flagged and reported once (R103), and a drain holds its VCs, times out and lets a swap pass (R93 to R97). -/
namespace Sys2Proof.Machine
section
variable (s : State)

/-! ### The rank of a pair -/

/-- Pair `a` is at least as urgent as pair `b`, and of equal urgency has at least its PRIO (R98, R99). -/
def State.RanksUpTo (s : State) (pos : Nat) (a b : Nat × Nat) : Prop :=
  s.urgency pos a.2 (s.frontPkt pos a.1 a.2) ≤ s.urgency pos b.2 (s.frontPkt pos b.1 b.2) ∧
    (s.urgency pos a.2 (s.frontPkt pos a.1 a.2) = s.urgency pos b.2 (s.frontPkt pos b.1 b.2) →
      s.vcPrio pos b.2 ≤ s.vcPrio pos a.2)

theorem State.RanksUpTo.refl (pos : Nat) (a : Nat × Nat) : s.RanksUpTo pos a a :=
  ⟨Int.le_refl _, fun _ => Nat.le_refl _⟩

variable {s} in
theorem State.RanksUpTo.trans {pos : Nat} {a b c : Nat × Nat} (hab : s.RanksUpTo pos a b)
    (hbc : s.RanksUpTo pos b c) : s.RanksUpTo pos a c := by
  obtain ⟨hu, hp⟩ := hab
  obtain ⟨hu', hp'⟩ := hbc
  refine ⟨Int.le_trans hu hu', fun e => ?_⟩
  have heq := Int.le_antisymm hu (Int.le_trans hu' (Int.le_of_eq e.symm))
  exact Nat.le_trans (hp' (heq.symm.trans e)) (hp heq)

/-- A comparison of two pairs decides their rank: the one it puts first is no worse (R99, rules 2 and 3). -/
theorem State.ranksUpTo_of_ranksBefore (pos : Nat) (o : OutPort) (a b : Nat × Nat) :
    if s.ranksBefore pos o a b then s.RanksUpTo pos a b else s.RanksUpTo pos b a := by
  unfold State.ranksBefore State.RanksUpTo
  dsimp only
  generalize s.urgency pos a.2 _ = ua, s.urgency pos b.2 _ = ub, s.vcPrio pos a.2 = pa, s.vcPrio pos b.2 = pb
  by_cases hu : ua = ub
  · rw [if_neg (not_not_intro hu)]
    by_cases hp : pa = pb
    · have hle : pb ≤ pa ∧ pa ≤ pb := by omega
      rw [if_neg (not_not_intro hp)]
      split
      · exact ⟨Int.le_of_eq hu, fun _ => hle.1⟩
      · exact ⟨Int.le_of_eq hu.symm, fun _ => hle.2⟩
    · rw [if_pos hp]
      by_cases hlt : pb < pa
      · rw [if_pos (decide_eq_true hlt)]
        exact ⟨Int.le_of_eq hu, fun _ => Nat.le_of_lt hlt⟩
      · rw [if_neg (by rw [decide_eq_true_iff]; exact hlt)]
        exact ⟨Int.le_of_eq hu.symm, fun _ => Nat.le_of_not_lt hlt⟩
  · rw [if_pos hu]
    by_cases hlt : ua < ub
    · rw [if_pos (decide_eq_true hlt)]
      exact ⟨Int.le_of_lt hlt, fun e => absurd e hu⟩
    · rw [if_neg (by rw [decide_eq_true_iff]; exact hlt)]
      exact ⟨Int.not_lt.1 hlt, fun e => absurd e.symm hu⟩

/-- Only an empty list has no first-ranked pair. -/
theorem State.bestOf_eq_none (pos : Nat) (o : OutPort) (l : List (Nat × Nat)) : s.bestOf pos o l = none ↔ l = [] := by
  cases l with
  | nil => exact ⟨fun _ => rfl, fun _ => rfl⟩
  | cons a rest =>
    refine ⟨fun h => ?_, fun h => absurd h (List.cons_ne_nil a rest)⟩
    unfold State.bestOf at h
    split at h <;> cases h

/-- The first-ranked of a list is one of its pairs, and no worse than any of them. -/
theorem State.bestOf_ranksUpTo (pos : Nat) (o : OutPort) (l : List (Nat × Nat)) (w : Nat × Nat)
    (h : s.bestOf pos o l = some w) : w ∈ l ∧ ∀ c ∈ l, s.RanksUpTo pos w c := by
  induction l generalizing w with
  | nil => cases h
  | cons a rest ih =>
    cases hb : s.bestOf pos o rest with
    | none =>
      have hrest : rest = [] := (s.bestOf_eq_none pos o rest).1 hb
      subst hrest
      simp only [State.bestOf, Option.some.injEq] at h
      subst h
      exact ⟨List.mem_singleton_self a, fun c hc => by rw [List.mem_singleton.1 hc]; exact .refl ..⟩
    | some b =>
      obtain ⟨hmem, hmin⟩ := ih b hb
      have hcmp := s.ranksUpTo_of_ranksBefore pos o b a
      simp only [State.bestOf, hb, Option.some.injEq] at h
      subst h
      by_cases hr : s.ranksBefore pos o b a = true
      · rw [if_pos hr] at hcmp ⊢
        exact ⟨List.mem_cons_of_mem _ hmem, List.forall_mem_cons.2 ⟨hcmp, hmin⟩⟩
      · rw [if_neg hr] at hcmp ⊢
        exact ⟨List.mem_cons_self, List.forall_mem_cons.2 ⟨.refl .., fun c hc => hcmp.trans (hmin c hc)⟩⟩

/-- Without an owner the choice is the first-ranked candidate (R99). -/
theorem State.choose_of_noOwner (pos output : Nat) (h : (s.outp pos output).owner = none) :
    s.choose pos output = s.bestOf pos (s.outp pos output) (s.candidates pos output) := by
  simp only [State.choose, h]

/-- An owner that still is a candidate, on a VC that is no victim, is chosen again (R99). -/
theorem State.choose_of_keptOwner (pos output : Nat) (w : Nat × Nat) (h : (s.outp pos output).owner = some w)
    (hc : w ∈ s.candidates pos output) (hv : (fld (s.arbReg pos Reg.ARB_MARGIN) 21 16).testBit w.2 = false) :
    s.choose pos output = some w := by
  simp only [State.choose, h, List.contains_iff_mem.2 hc, hv, Bool.false_and, Bool.false_eq_true, if_true, if_false]

/-! ### What a decision leaves alone -/

/-- Every output, every buffered flit and every tray stays. -/
def KeepsFlits (s t : State) : Prop :=
  t.mesh.outs = s.mesh.outs ∧ (∀ pos input vc, (t.vcb pos input vc).buf = (s.vcb pos input vc).buf) ∧ t.trays = s.trays

variable {s} in
theorem KeepsFlits.trans {t u : State} (h : KeepsFlits s t) (k : KeepsFlits t u) : KeepsFlits s u := by
  obtain ⟨houts, hbuf, htrays⟩ := h
  obtain ⟨houts', hbuf', htrays'⟩ := k
  exact ⟨houts'.trans houts, fun p i v => (hbuf' p i v).trans (hbuf p i v), htrays'.trans htrays⟩

theorem KeepsFlits.refl : KeepsFlits s s := ⟨rfl, fun _ _ _ => rfl, rfl⟩

theorem KeepsFlits.foldl {α : Type} (f : State → α → State) (hf : ∀ t x, KeepsFlits t (f t x)) (l : List α) :
    KeepsFlits s (l.foldl f s) :=
  List.foldlRecOn l f (.refl s) fun t ht x _ => ht.trans (hf t x)

theorem KeepsFlits.ite (c : Prop) [Decidable c] {t u : State} (h : KeepsFlits s t) (k : KeepsFlits s u) :
    KeepsFlits s (if c then t else u) := by split <;> assumption

theorem KeepsFlits.of_mesh_trays {t : State} (hm : t.mesh = s.mesh) (ht : t.trays = s.trays) : KeepsFlits s t :=
  ⟨by rw [hm], fun _ _ _ => by rw [State.vcb, hm, State.vcb], ht⟩

/-- A buffer replaced by one with the same flits. -/
theorem State.setVcb_keepsFlits (pos input vc : Nat) (b : VcBuf) (h : b.buf = (s.vcb pos input vc).buf) :
    KeepsFlits s (s.setVcb pos input vc b) := by
  refine ⟨rfl, fun p i v => ?_, rfl⟩
  by_cases hk : vcKey p i v = vcKey pos input vc
  · simp only [State.vcb, State.setVcb, hk, Store.get_set_same]
    exact h
  · simp only [State.vcb, State.setVcb, Store.get_set_other _ _ _ _ _ _ hk]

@[simp] theorem State.monEvent_mesh (kind pos point : Nat) : (s.monEvent kind pos point).mesh = s.mesh := by
  rw [State.monEvent, State.raise_mesh, State.count_mesh, State.setDie_mesh]
  split
  · rw [State.draw_mesh, State.setDie_mesh, State.setDie_mesh, State.setDie_mesh]
  · rfl

@[simp] theorem State.monEvent_trays (kind pos point : Nat) : (s.monEvent kind pos point).trays = s.trays := by
  rw [State.monEvent, State.raise_trays, State.count_trays, State.setDie_trays]
  split
  · rw [State.draw_trays, State.setDie_trays, State.setDie_trays, State.setDie_trays]
  · rfl

theorem State.monEvent_keepsFlits (kind pos point : Nat) : KeepsFlits s (s.monEvent kind pos point) :=
  .of_mesh_trays s (s.monEvent_mesh ..) (s.monEvent_trays ..)

/-- A mark changes the route of a pair, and counts (R141). -/
theorem State.monMark_keepsFlits (kind pos output input vc : Nat) :
    KeepsFlits s (s.monMark kind pos output input vc) := by
  unfold State.monMark
  dsimp only
  split
  · exact .refl s
  · refine .ite s _ (.refl s) ?_
    exact KeepsFlits.trans (s.setVcb_keepsFlits pos input vc _ (by rfl)) (State.monEvent_keepsFlits ..)

theorem State.monitorPair_keepsFlits (pos output : Nat) (winner : Option (Nat × Nat)) (s0 : State) (p : Nat × Nat) :
    KeepsFlits s (s.monitorPair pos output winner s0 p) := by
  unfold State.monitorPair
  exact .ite s _ (.refl s) (.ite s _ (s.monMark_keepsFlits ..) (.ite s _ (s.monMark_keepsFlits ..) (.refl s)))

theorem State.bumpLoser_keepsFlits (pos : Nat) (p : Nat × Nat) : KeepsFlits s (s.bumpLoser pos p) :=
  s.setVcb_keepsFlits pos p.1 p.2 _ rfl

@[simp] theorem State.setOutp_outp_same (pos output : Nat) (o : OutPort) :
    (s.setOutp pos output o).outp pos output = o := Store.get_set_same ..

theorem State.setOutp_outp_other (pos output out' : Nat) (o : OutPort) (h : out' ≠ output) :
    (s.setOutp pos output o).outp pos out' = s.outp pos out' :=
  Store.get_set_other _ _ _ _ _ _ fun e => h (Nat.add_left_cancel e)

/-! ### A decision -/

/-- Where no leg of a router is open, ARBITRATE fixes no lane (R75). -/
theorem State.foldl_fixLanes_eq_self (pos output : Nat) (h : ∀ p ∈ allPairs, ∀ l ∈ s.branches pos p, l.free = false) :
    allPairs.foldl (fun t p =>
      if (t.branches pos p).any (fun l => l.free && (l.out == output || l.out + 4 == output)) then t.fixLanes pos p.1 p.2
      else t) s = s := by
  refine List.foldlRecOn (motive := fun t => t = s) allPairs _ rfl fun t ht p hp => ?_
  subst ht
  refine if_neg ?_
  rw [List.any_eq_true]
  rintro ⟨l, hl, hopen⟩
  rw [h p hp l hl, Bool.false_and] at hopen
  exact Bool.false_ne_true hopen

/-- A grant to a pair with one branch makes it the owner; what follows counts losers and monitor events (R99, R103,
R141). -/
theorem State.arbitrate_grants (pos output : Nat) (w : Nat × Nat) (hw : s.choose pos output = some w)
    (hb : (s.branches pos w).length ≤ 1) (hl : ∀ p ∈ allPairs, ∀ l ∈ s.branches pos p, l.free = false) :
    KeepsFlits (s.setOutp pos output { s.outp pos output with owner := some w }) (s.arbitrate pos output) := by
  have hjoint : ¬1 < (s.branches pos w).length := Nat.not_lt.2 hb
  simp only [State.arbitrate, s.foldl_fixLanes_eq_self pos output hl, hw, hjoint, decide_false, Bool.false_and,
    Bool.false_eq_true, if_false]
  refine (KeepsFlits.foldl _ _ (fun t p => ?_) _).trans
    (.foldl _ _ (fun t p => t.monitorPair_keepsFlits ..) _)
  split
  · exact .refl t
  · exact t.bumpLoser_keepsFlits pos p

theorem exec_arbitrate (pos output : Nat) (hs : s.stopped = false) :
    exec (.arbitrate pos output) s = .next (s.arbitrate pos output) :=
  congrArg done (State.when_of _ _ _ (by rw [hs, Bool.not_false]))

/-! ### A starved candidate -/

/-- What ROUTER_STARVE records of a starved candidate: STARVE_FIRST where no flag was set, the two flags, and that its
wait has been reported (R103). -/
def State.starveMark (s : State) (pos input vc output : Nat) : State :=
  let b := s.vcb pos input vc
  let stat := s.reg (rtrA pos Reg.STARVE_STAT)
  let first : Word :=
    BitVec.ofNat 32 (min (b.wait / 64) 65535 * 2 ^ 16 + (output % 16) * 2 ^ 12 + (vc % 8) * 2 ^ 4 + input % 16)
  let t := if stat = 0 then s.setReg (rtrA pos Reg.STARVE_FIRST) first else s
  (t.setReg (rtrA pos Reg.STARVE_STAT) (setBit (setBit stat (16 + vc) true) input true)).setVcb pos input vc
    { b with told := true }

/-- A starved candidate is recorded, and reported once for its wait (R103). -/
theorem State.starve_marks (pos input vc output : Nat) (hlim : s.starveLimit pos ≠ 0)
    (hwait : s.starveLimit pos < (s.vcb pos input vc).wait) (hc : s.candidate pos output input vc = true)
    (hch : s.choose pos output ≠ some (input, vc)) :
    s.starve pos input vc output =
      if (s.vcb pos input vc).told then s.starveMark pos input vc output
      else (s.starveMark pos input vc output).raise Src.ROUTER_STARVE pos .router input 0 (input * 8 + vc) output := by
  unfold State.starve
  exact if_pos ⟨hlim, hwait, hc, hch⟩

@[simp] theorem State.setVcb_vcb_same (pos input vc : Nat) (b : VcBuf) :
    (s.setVcb pos input vc b).vcb pos input vc = b := Store.get_set_same ..

@[simp] theorem State.setVcb_reg (pos input vc : Nat) (b : VcBuf) (a : RegAddr) :
    (s.setVcb pos input vc b).reg a = s.reg a := rfl

/-- The flags of input and VC are set, and every other flag stays (R103). -/
theorem State.starveMark_stat (pos input vc output : Nat) :
    (s.starveMark pos input vc output).reg (rtrA pos Reg.STARVE_STAT) =
      setBit (setBit (s.reg (rtrA pos Reg.STARVE_STAT)) (16 + vc) true) input true := by
  rw [State.starveMark, State.setVcb_reg, State.setReg_reg_same]

/-- Registers of one router have different addresses where their offsets differ. -/
theorem rtrA_key_ne (pos : Nat) {o o' : Nat} (h : o ≠ o') : (rtrA pos o).key ≠ (rtrA pos o').key :=
  fun e => h (Nat.add_left_cancel e)

/-- STARVE_FIRST takes input and VC of the first record (R103). -/
theorem State.starveMark_first (pos input vc output : Nat) (h : s.reg (rtrA pos Reg.STARVE_STAT) = 0) (hi : input < 14)
    (hv : vc < 6) :
    fld ((s.starveMark pos input vc output).reg (rtrA pos Reg.STARVE_FIRST)) 3 0 = input ∧
      fld ((s.starveMark pos input vc output).reg (rtrA pos Reg.STARVE_FIRST)) 6 4 = vc := by
  rw [State.starveMark, State.setVcb_reg, State.setReg_reg_other _ _ _ _ (rtrA_key_ne pos (by decide)), if_pos h,
    State.setReg_reg_same]
  generalize (s.vcb pos input vc).wait / 64 = w
  simp only [fld, bitsOf, BitVec.toNat_ofNat, Nat.shiftRight_eq_div_pow]
  omega

/-- Once a flag is set, STARVE_FIRST stays (R103). -/
theorem State.starveMark_first_stays (pos input vc output : Nat) (h : s.reg (rtrA pos Reg.STARVE_STAT) ≠ 0) :
    (s.starveMark pos input vc output).reg (rtrA pos Reg.STARVE_FIRST) = s.reg (rtrA pos Reg.STARVE_FIRST) := by
  rw [State.starveMark, State.setVcb_reg, State.setReg_reg_other _ _ _ _ (rtrA_key_ne pos (by decide)), if_neg h]

theorem State.starveMark_regsSame (pos input vc output : Nat) :
    RegsSame [rtrA pos Reg.STARVE_STAT, rtrA pos Reg.STARVE_FIRST] s (s.starveMark pos input vc output) := by
  intro a ha
  obtain ⟨hstat, hfirst⟩ : a.key ≠ (rtrA pos Reg.STARVE_STAT).key ∧ a.key ≠ (rtrA pos Reg.STARVE_FIRST).key :=
    ⟨ha _ List.mem_cons_self, ha _ (List.mem_cons_of_mem _ List.mem_cons_self)⟩
  rw [State.starveMark, State.setVcb_reg, State.setReg_reg_other _ _ _ _ hstat]
  split
  · exact s.setReg_reg_other _ _ _ hfirst
  · rfl

/-- A mark leaves the fault network and the trays, and the wait counts as reported. -/
theorem State.starveMark_frame (pos input vc output : Nat) :
    (s.starveMark pos input vc output).flt = s.flt ∧ (s.starveMark pos input vc output).trays = s.trays ∧
      ((s.starveMark pos input vc output).vcb pos input vc).told = true := by
  unfold State.starveMark
  dsimp only
  rw [State.setVcb_vcb_same]
  split <;> exact ⟨rfl, rfl, rfl⟩

/-- A starved candidate is marked; the report is all that may follow, and follows once for a wait (R103). -/
theorem State.starve_starved (pos input vc output : Nat) (hlim : s.starveLimit pos ≠ 0)
    (hwait : s.starveLimit pos < (s.vcb pos input vc).wait) (hc : s.candidate pos output input vc = true)
    (hch : s.choose pos output ≠ some (input, vc)) :
    (s.starve pos input vc output).regs = (s.starveMark pos input vc output).regs ∧
      (s.starve pos input vc output).mesh = (s.starveMark pos input vc output).mesh ∧
      (s.starve pos input vc output).trays = (s.starveMark pos input vc output).trays ∧
      ((s.vcb pos input vc).told = false → Raised Src.ROUTER_STARVE s (s.starve pos input vc output)) ∧
      ((s.vcb pos input vc).told = true → (s.starve pos input vc output).flt = s.flt) := by
  obtain ⟨hflt, -, -⟩ := s.starveMark_frame pos input vc output
  rw [s.starve_marks pos input vc output hlim hwait hc hch]
  by_cases htold : (s.vcb pos input vc).told = true
  · rw [if_pos htold]
    exact ⟨rfl, rfl, rfl, fun h => absurd htold (by rw [h]; decide), fun _ => hflt⟩
  · rw [if_neg htold]
    refine ⟨State.raise_regs .., State.raise_mesh .., State.raise_trays .., fun _ => ?_, fun h => absurd h htold⟩
    rw [Raised, ← hflt]
    exact State.raise_raised ..

theorem exec_routerStarve (pos input vc output : Nat) (hs : s.stopped = false) :
    exec (.routerStarve pos input vc output) s = .next (s.starve pos input vc output) :=
  congrArg done (State.when_of _ _ _ (by rw [hs, Bool.not_false]))

/-! ### A drain -/

/-- The specification of DRAIN_CTRL: HOLD, bits [5:0], is read and written (R93). -/
theorem drainCtrl_spec : ∃ r, specOf (dieA Reg.DRAIN_CTRL) = some r ∧ r.rw = 2 ^ 6 - 1 ∧ r.w1c = 0 :=
  ⟨_, rfl, rfl, rfl⟩

/-- A field that a register's specification gives as RW alone reads as written (R11). -/
theorem fld_maskedValue (r : RegSpec) (old data : Word) (hi lo : Nat) (h : hi < 32)
    (hrw : ∀ i, lo ≤ i → i ≤ hi → r.rw.testBit i = true ∧ r.w1c.testBit i = false) :
    fld (maskedValue r old data) hi lo = fld data hi lo := by
  apply Nat.eq_of_testBit_eq
  intro i
  rw [fld, fld, testBit_bitsOf, testBit_bitsOf]
  by_cases hw : i < hi + 1 - lo
  · obtain ⟨h1, h0⟩ := hrw (lo + i) (by omega) (by omega)
    have hb := bit_maskedValue r old data (lo + i) (by omega)
    rw [h1, h0, if_pos rfl, if_neg Bool.false_ne_true] at hb
    rw [← bit, ← bit, hb]
  · rw [decide_eq_false hw, Bool.false_and, Bool.false_and]

/-- The HOLD field of DRAIN_CTRL takes the bits written (R93). -/
theorem State.plainWrite_hold (data : Word) : (s.plainWrite (dieA Reg.DRAIN_CTRL) data).hold = fld data 5 0 := by
  obtain ⟨r, hr, hrw, hw1c⟩ := drainCtrl_spec
  rw [State.hold, State.dieF, State.die, s.plainWrite_reg_same _ data r hr]
  refine fld_maskedValue r _ data 5 0 (by decide) fun i _ hi => ?_
  rw [hrw, hw1c, Nat.testBit_two_pow_sub_one, Nat.zero_testBit]
  exact ⟨decide_eq_true (by omega), rfl⟩

/-- The time of one VC's hold at a write of HOLD: it starts, goes on or is cleared (R94, R97). -/
def holdSinceStep (old new now : Nat) (m : Store Nat) (v : Nat) : Store Nat :=
  if new.testBit v && !old.testBit v then m.set 0 v (now + 1) else if new.testBit v then m else m.set 0 v 0

theorem holdSinceStep_other (old new now : Nat) (m : Store Nat) {v j : Nat} (h : j ≠ v) :
    (holdSinceStep old new now m v).get 0 j = m.get 0 j := by
  unfold holdSinceStep
  split
  · exact Store.get_set_other _ _ _ _ _ _ h
  · split
    · rfl
    · exact Store.get_set_other _ _ _ _ _ _ h

theorem holdSinceStep_starts (old new now : Nat) (m : Store Nat) (v : Nat) (hn : new.testBit v = true)
    (ho : old.testBit v = false) : (holdSinceStep old new now m v).get 0 v = now + 1 := by
  rw [holdSinceStep, hn, ho, if_pos (by decide), Store.get_set_same]

theorem holdSinceStep_goesOn (old new now : Nat) (m : Store Nat) (v : Nat) (hn : new.testBit v = true)
    (ho : old.testBit v = true) : holdSinceStep old new now m v = m := by
  rw [holdSinceStep, hn, ho, if_neg (by decide), if_pos rfl]

/-- A newly held VC of a list of VCs has its time started. -/
theorem foldl_holdSinceStep_starts (old new now : Nat) (l : List Nat) (m : Store Nat) (v : Nat) (hv : v ∈ l)
    (hn : new.testBit v = true) (ho : old.testBit v = false) :
    (l.foldl (holdSinceStep old new now) m).get 0 v = now + 1 := by
  obtain ⟨l₁, l₂, rfl⟩ := List.append_of_mem hv
  rw [List.foldl_append, List.foldl_cons]
  refine List.foldlRecOn (motive := fun m : Store Nat => m.get 0 v = now + 1) l₂ _
    (holdSinceStep_starts old new now _ v hn ho) fun m hm j _ => ?_
  by_cases hj : v = j
  · subst hj
    exact holdSinceStep_starts old new now m v hn ho
  · rw [holdSinceStep_other old new now m hj, hm]

/-- A VC that stays held keeps its time. -/
theorem foldl_holdSinceStep_goesOn (old new now : Nat) (l : List Nat) (m : Store Nat) (v : Nat)
    (hn : new.testBit v = true) (ho : old.testBit v = true) :
    (l.foldl (holdSinceStep old new now) m).get 0 v = m.get 0 v := by
  refine List.foldlRecOn (motive := fun m' : Store Nat => m'.get 0 v = m.get 0 v) l _ rfl fun m' hm j _ => ?_
  by_cases hj : v = j
  · subst hj
    rw [holdSinceStep_goesOn old new now m' v hn ho, hm]
  · rw [holdSinceStep_other old new now m' hj, hm]

/-- A write of HOLD stores it, and gives each VC its time (R94, R97). -/
theorem State.drainHold_eq (data : Word) :
    s.drainHold data = { s with
      regs := (s.plainWrite (dieA Reg.DRAIN_CTRL) data).regs
      mesh := { s.mesh with
        holdSince := (List.range 6).foldl (holdSinceStep s.hold (fld data 5 0) s.time.edges) s.mesh.holdSince
        timedOut := s.mesh.timedOut &&& (s.hold &&& fld data 5 0) } } := by
  rw [← s.plainWrite_hold data, State.drainHold, s.plainWrite_frame]
  rfl

/-- A write of DRAIN_CTRL stores HOLD (R94). -/
theorem State.drainHold_hold (data : Word) : (s.drainHold data).hold = fld data 5 0 := by
  rw [← s.plainWrite_hold data, s.drainHold_eq]
  rfl

@[simp] theorem State.respond_hold (acc : Access) (a : RegAddr) (w : Bool) (data : Word) (st : Nat) :
    (s.respond acc a w data st).hold = s.hold := by
  rw [State.hold, State.dieF, State.respond_die, State.hold, State.dieF]

/-- A VC that timed out is remembered, DRAIN_STAT.TIMEOUT is set and DRAIN_TIMEOUT is reported (R97). -/
def State.drainExpired (s : State) (vc : Nat) : State :=
  ({ s with mesh := { s.mesh with timedOut := s.mesh.timedOut + 2 ^ vc } }.setDieF Reg.DRAIN_STAT 8 8 1).raiseDie
    Src.DRAIN_TIMEOUT vc 0

theorem State.drainTimeout_expires (vc : Nat) (hh : s.hold.testBit vc = true) (he : s.vcEmpty vc = false)
    (h0 : s.mesh.holdSince.get 0 vc ≠ 0)
    (hl : s.mesh.holdSince.get 0 vc - 1 + 100 * s.drainLimit ≤ s.time.edges)
    (ht : s.mesh.timedOut.testBit vc = false) : s.drainTimeout vc = s.drainExpired vc :=
  if_pos ⟨hh, by rw [he, Bool.not_false], h0, hl, by rw [ht, Bool.not_false]⟩

/-- A hold that has timed out does so no second time (R97). -/
theorem State.drainTimeout_again (vc : Nat) (ht : s.mesh.timedOut.testBit vc = true) : s.drainTimeout vc = s := by
  refine if_neg fun h => ?_
  obtain ⟨-, -, -, -, hnot⟩ := h
  rw [ht] at hnot
  exact Bool.false_ne_true hnot

theorem State.drainExpired_timedOut (vc : Nat) (ht : s.mesh.timedOut.testBit vc = false) :
    (s.drainExpired vc).mesh.timedOut.testBit vc = true := by
  change (s.mesh.timedOut + 2 ^ vc).testBit vc = true
  rw [Nat.add_comm, Nat.testBit_two_pow_add_eq, ht, Bool.not_false]

theorem State.drainExpired_regs (vc : Nat) :
    (s.drainExpired vc).regs = (s.setDieF Reg.DRAIN_STAT 8 8 1).regs := rfl

theorem State.drainExpired_raised (vc : Nat) : Raised Src.DRAIN_TIMEOUT s (s.drainExpired vc) := State.raise_raised ..

theorem State.drainExpired_trays (vc : Nat) : (s.drainExpired vc).trays = s.trays := rfl

/-- A field replaced in a die-level register leaves every other register. -/
theorem State.setDieF_regsSame (off hi lo v : Nat) : RegsSame [dieA off] s (s.setDieF off hi lo v) :=
  fun _ ha => s.setReg_reg_other _ _ _ (ha _ (List.mem_singleton_self _))

/-- A flag set in a die-level register reads 1. -/
theorem State.bit_setDieF_flag (off i : Nat) (hi : i < 32) : bit ((s.setDieF off i i 1).die off) i = true := by
  rw [State.setDieF_die_same, bit_setFld _ _ _ _ _ (Nat.le_refl i) hi, if_pos ⟨Nat.le_refl i, Nat.le_refl i⟩, Nat.sub_self]
  rfl

theorem State.when_fixed (c : Bool) (f : State → State) (h : f s = s) : s.when c f = s := by
  cases c with
  | false => rfl
  | true => exact h

theorem exec_drainTimeout (vc : Nat) (hs : s.stopped = false) :
    exec (.drainTimeout vc) s = .next (s.drainTimeout vc) :=
  congrArg done (State.when_of _ _ _ (by rw [hs, Bool.not_false]))

theorem exec_drainTimeout_again (vc : Nat) (ht : s.mesh.timedOut.testBit vc = true) :
    exec (.drainTimeout vc) s = .next s :=
  congrArg done (s.when_fixed _ _ (s.drainTimeout_again vc ht))

/-! ### A swap -/

/-- A swap is accepted where every held VC is empty (R96). -/
theorem State.routeSwap_accepted (data : Word) (hd : bit data 0 = true) (he : s.heldEmpty = true) :
    s.routeSwap data = { s with mesh := { s.mesh with swapPending := true } } := by
  rw [State.routeSwap, if_pos hd, if_pos he]

/-- A swap is refused while a held VC is not empty, and SWAP_REFUSED is set (R96). -/
theorem State.routeSwap_refused (data : Word) (hd : bit data 0 = true) (he : ¬s.heldEmpty = true) :
    s.routeSwap data = s.setDieF Reg.DRAIN_STAT 16 16 1 := by
  rw [State.routeSwap, if_pos hd, if_neg he]

/-- The boundary of an accepted swap before it is traced: the other bank is active, no swap is pending (R96). -/
def State.bankSwitched (s : State) : State :=
  { s.setDieF Reg.ROUTE_BANK 0 0 (1 - s.routeBank) with mesh := { s.mesh with swapPending := false } }

theorem State.bankSwitched_routeBank : s.bankSwitched.routeBank = 1 - s.routeBank := by
  change fld ((s.setDieF Reg.ROUTE_BANK 0 0 (1 - s.routeBank)).die Reg.ROUTE_BANK) 0 0 = 1 - s.routeBank
  rw [State.setDieF_die_same, fld_setFld _ _ _ _ (Nat.le_refl 0) (by decide)]
  omega

/-- An accepted swap switches the bank, and the switch is traced (R96). -/
theorem State.routeBankSwitch_traceOnly (h : s.mesh.swapPending = true) : TraceOnly s.bankSwitched s.routeBankSwitch := by
  rw [State.routeBankSwitch, if_pos h]
  exact State.traceEvent_only ..

theorem State.routeBankSwitch_idle (h : s.mesh.swapPending = false) : s.routeBankSwitch = s :=
  if_neg (by rw [h]; exact Bool.false_ne_true)

end

/-! ### The obligations -/

/-- Settles O18: the best of the candidates is no worse than any of them, and the grant touches its own output alone. -/
theorem arbiterGrantsTheMostUrgent : Obligations.ArbiterGrantsTheMostUrgent := by
  intro s pos output w
  refine ⟨fun hown hw => ?choice, fun hown hc hv => s.choose_of_keptOwner pos output w hown hc hv,
    fun hs hw hb hl => ?grant⟩
  case choice =>
    rw [s.choose_of_noOwner pos output hown] at hw
    exact s.bestOf_ranksUpTo pos _ _ w hw
  case grant =>
    obtain ⟨houts, hbuf, htrays⟩ := s.arbitrate_grants pos output w hw hb hl
    have houtp (o : Nat) : (s.arbitrate pos output).outp pos o =
        (s.setOutp pos output { s.outp pos output with owner := some w }).outp pos o := by
      simp only [State.outp, houts]
    refine ⟨_, exec_arbitrate s pos output hs, ?_, fun o ho => ?_, hbuf pos, htrays⟩
    · rw [houtp, State.setOutp_outp_same]
    · rw [houtp, s.setOutp_outp_other pos output o _ ho]

/-- Settles O20: a starved candidate is marked, and a wait not yet reported raises the one record. -/
theorem starvedCandidateIsFlagged : Obligations.StarvedCandidateIsFlagged := by
  intro s pos input vc output hs hinput hvc
  rw [exec_routerStarve s pos input vc output hs]
  refine ⟨fun hlim => ?disabled, fun hlim hwait hc hch => ?starved⟩
  case disabled => rw [State.starve, if_neg fun h => h.1 hlim]
  case starved =>
    obtain ⟨hregs, hmesh, htrays, hreport, hquiet⟩ := s.starve_starved pos input vc output hlim hwait hc hch
    obtain ⟨-, htrays', htold⟩ := s.starveMark_frame pos input vc output
    have hreg := State.reg_congr hregs
    refine ⟨_, rfl, ?_, ?_, fun h => ?_, fun h => ?_, hreport, hquiet, ?_, fun a ha => ?_, htrays.trans htrays'⟩
    · rw [hreg, s.starveMark_stat, bit_setBit _ _ _ (by omega)]
    · rw [hreg, s.starveMark_stat, bit_setBit_other _ _ _ _ (by omega) (by omega), bit_setBit _ _ _ (by omega)]
    · rw [hreg, s.starveMark_first_stays pos input vc output h]
    · rw [hreg]
      exact s.starveMark_first pos input vc output h hinput hvc
    · rw [State.vcb, hmesh]
      exact htold
    · rw [hreg]
      exact s.starveMark_regsSame pos input vc output a ha

/-- Settles O22: HOLD and its times, a timeout once, and a swap that the held VCs decide. -/
theorem drainHoldTimeoutAndSwap : Obligations.DrainHoldTimeoutAndSwap := by
  refine ⟨fun acc data s ⟨hissue, hok⟩ => ?hold, fun vc s hs hh he h0 hl ht => ?timeout,
    fun acc data s ⟨hissue, hok⟩ hd => ?swap, fun s => ⟨fun h => congrArg done (s.routeBankSwitch_idle h), fun h => ?switch⟩⟩
  case hold =>
    have hhold : ((s.drainHold data).respond acc (dieA Reg.DRAIN_CTRL) true 0 0).hold = fld data 5 0 := by
      rw [State.respond_hold, s.drainHold_hold]
    refine ⟨_, congrArg done (guardedWrite_ok s acc _ _ hissue hok), hhold, fun a ha => ?_, ?_, fun v hv => ?_⟩
    · rw [State.respond_reg, s.drainHold_eq]
      exact s.plainWrite_reg_other _ a data (ha _ (List.mem_singleton_self _))
    · rw [State.respond_eq, s.drainHold_eq]
    · rw [hhold, State.respond_mesh, s.drainHold_eq]
      exact ⟨foldl_holdSinceStep_starts s.hold _ _ _ _ v (List.mem_range.2 hv),
        foldl_holdSinceStep_goesOn s.hold _ _ _ _ v⟩
  case timeout =>
    have hregs := s.drainExpired_regs vc
    refine ⟨s.drainExpired vc, ?_, ?_, s.drainExpired_raised vc, fun a ha => ?_, s.drainExpired_trays vc,
      exec_drainTimeout_again _ vc (s.drainExpired_timedOut vc ht)⟩
    · rw [exec_drainTimeout s vc hs, s.drainTimeout_expires vc hh he h0 hl ht]
    · rw [State.die_congr hregs]
      exact s.bit_setDieF_flag _ 8 (by decide)
    · rw [State.reg_congr hregs]
      exact s.setDieF_regsSame _ _ _ _ a ha
  case swap =>
    refine ⟨_, congrArg done (guardedWrite_ok s acc _ _ hissue hok), ?_⟩
    by_cases he : s.heldEmpty = true
    · rw [if_pos he, s.routeSwap_accepted data hd he, State.respond_mesh]
      exact ⟨rfl, fun a _ => by rw [State.respond_reg]; rfl⟩
    · rw [if_neg he, s.routeSwap_refused data hd he, State.respond_mesh, State.respond_die]
      refine ⟨s.bit_setDieF_flag _ 16 (by decide), State.setDieF_mesh .., fun a ha => ?_⟩
      rw [State.respond_reg]
      exact s.setDieF_regsSame _ _ _ _ a ha
  case switch =>
    obtain ⟨hframe, hregs⟩ := s.routeBankSwitch_traceOnly h
    refine ⟨s.routeBankSwitch, rfl, ?_, ?_, ?_, fun a ha => ?_⟩
    · have hbank := (s.routeBankSwitch_traceOnly h).die Reg.ROUTE_BANK (by decide) (by decide)
      rw [← s.bankSwitched_routeBank, State.routeBank, State.dieF, hbank]
      rfl
    · rw [hframe]
      rfl
    · rw [hframe]
      rfl
    · rw [hregs a fun b hb => ha b (List.mem_cons_of_mem _ hb)]
      exact s.setDieF_regsSame _ _ _ _ a fun b hb => ha b (by rw [List.mem_singleton.1 hb]; exact List.mem_cons_self)

end Sys2Proof.Machine

/-! PROOFS. The stencils: a sequencer takes its next entry at the boundary (R128 to R130), STENCIL_DATA reaches the
selected entry (R10, R142), and WASH_OWNER names the wash writer (R134). -/
namespace Sys2Proof.Machine
section
variable (s : State)

/-! ### Fields of die-level registers -/

theorem State.dieF_congr {s t : State} (h : t.regs = s.regs) (off hi lo : Nat) :
    t.dieF off hi lo = s.dieF off hi lo := by
  rw [State.dieF, State.die_congr h, State.dieF]

/-- A plain write of a die-level register leaves every other one. -/
theorem State.plainWrite_die_other (off o : Nat) (data : Word) (h : o ≠ off) :
    (s.plainWrite (dieA off) data).die o = s.die o :=
  s.plainWrite_reg_other _ _ _ fun e => h (Nat.add_left_cancel (n := 3 * 2 ^ 26 + 0 * 2 ^ 16) e)

@[simp] theorem State.plainWrite_time (a : RegAddr) (data : Word) : (s.plainWrite a data).time = s.time := by
  rw [s.plainWrite_frame]

@[simp] theorem State.plainWrite_trays (a : RegAddr) (data : Word) : (s.plainWrite a data).trays = s.trays := by
  rw [s.plainWrite_frame]

@[simp] theorem State.respond_time (acc : Access) (a : RegAddr) (w : Bool) (data : Word) (st : Nat) :
    (s.respond acc a w data st).time = s.time := by rw [s.respond_eq]

/-- A response leaves what the paths have latched. -/
@[simp] theorem State.respond_latched (acc : Access) (a : RegAddr) (w : Bool) (data : Word) (st : Nat) (p : Path)
    (hi : RegAddr) (live : Word) : (s.respond acc a w data st).latched p hi live = s.latched p hi live := by
  rw [s.respond_eq]
  rfl

/-- At the TAP the response is its last one (R458). -/
theorem State.respond_lastRsp_tap (acc : Access) (a : RegAddr) (w : Bool) (data : Word) (st : Nat)
    (hp : acc.path = .tap) : (s.respond acc a w data st).lastRsp.get (0, 0) 2 = (data, st) := by
  simp only [State.respond, hp]
  exact Store.get_set_same ..

/-- A high half reads as latched (R10). -/
@[simp] theorem State.latchHigh_latched (p : Path) (hi : RegAddr) (v live : Word) :
    (s.latchHigh p hi v).latched p hi live = v := by
  rw [State.latched, State.latchHigh, Store.get_set_same, Option.getD_some]

/-! ### The record of the wash writer -/

/-- Bringing the wash writer up to date names the writer, and changes no more than the record of who it is and was
(R133). -/
theorem State.washSync_frame (close : Nat) :
    s.washSync close = { s with time := { s.time with
      wash := s.washNamed
      washBy := s.washRuns
      washPrev := (s.washSync close).time.washPrev
      washPrevBy := (s.washSync close).time.washPrevBy
      washClose := (s.washSync close).time.washClose } } := by
  by_cases h : s.washNamed = s.time.wash
  · simp only [State.washSync, h, if_true]
  · cases hw : s.time.wash <;> simp only [State.washSync, hw, hw ▸ h, if_false]

@[simp] theorem State.washSync_regs (close : Nat) : (s.washSync close).regs = s.regs := by rw [s.washSync_frame]

@[simp] theorem State.washSync_trays (close : Nat) : (s.washSync close).trays = s.trays := by rw [s.washSync_frame]

@[simp] theorem State.washSync_gates (close : Nat) : (s.washSync close).time.gates = s.time.gates := by
  rw [s.washSync_frame]

@[simp] theorem State.washSync_stencils (close : Nat) : (s.washSync close).time.stencils = s.time.stencils := by
  rw [s.washSync_frame]

@[simp] theorem State.washSync_wash (close : Nat) : (s.washSync close).time.wash = s.washNamed := by
  rw [s.washSync_frame]

/-! ### The next entry of a sequencer -/

/-- The index after the entry in use: 0 after LAST and after entry 255 (R128, R130). -/
def GateNow.nextIndex (g : GateNow) : Nat := if entLast g.entry || g.index == 255 then 0 else g.index + 1

/-- The entry that follows the one in use opens where that one closes (R130). -/
def State.nextGate (s : State) (pos point : Nat) (g : GateNow) : GateNow :=
  ⟨g.nextIndex, s.stencilEntry s.stencilBank pos point g.nextIndex, g.closes⟩

/-- BAD_ENTRY is set where an entry other than entry 0 has DUR 0 (R129). -/
def State.flagBadEntry (s : State) (next : GateNow) : State :=
  s.when (next.index != 0 && entDur next.entry == 0) fun t => t.setDieF Reg.STENCIL_CTRL 7 7 1

theorem State.flagBadEntry_justRegs (next : GateNow) : JustRegs [dieA Reg.STENCIL_CTRL] s (s.flagBadEntry next) := by
  unfold State.flagBadEntry
  cases next.index != 0 && entDur next.entry == 0 with
  | false => exact ⟨rfl, fun _ _ => rfl⟩
  | true => exact ⟨rfl, s.setDieF_regsSame _ _ _ _⟩

/-- The sequencer of a point holds another entry. -/
def State.putGate (s : State) (pos point : Nat) (g : GateNow) : State :=
  { s with time := { s.time with gates := s.time.gates.put (32 * pos + point) g } }

theorem State.stencilAdvance_stopped (pos point : Nat) (h : s.stencilRun = false) : s.stencilAdvance pos point = s := by
  rw [State.stencilAdvance, h, Bool.not_false, if_pos rfl]

variable {s} in
/-- With an entry in use the sequencer waits for its close, and takes the next one there (R129, R130). -/
theorem State.stencilAdvance_running {pos point : Nat} {g : GateNow} (hrun : s.stencilRun = true)
    (hs : s.hasStencil pos point = true) (hg : s.time.gates.find? (32 * pos + point) = some g) :
    s.stencilAdvance pos point =
      if s.ntNat < g.closes then s
      else ((s.flagBadEntry (s.nextGate pos point g)).putGate pos point (s.nextGate pos point g)).washSync g.closes := by
  simp only [State.stencilAdvance, hrun, hs, hg, Bool.not_true, Bool.false_eq_true, if_false]
  rfl

/-- Taking the next entry changes the gate of its point, the record of the wash writer and STENCIL_CTRL. -/
theorem State.takeNextGate_frame (pos point close : Nat) (next : GateNow) :
    let t := ((s.flagBadEntry next).putGate pos point next).washSync close
    t.time.gates = s.time.gates.put (32 * pos + point) next ∧ RegsSame [dieA Reg.STENCIL_CTRL] s t ∧
      t.trays = s.trays := by
  obtain ⟨hframe, hregs⟩ := s.flagBadEntry_justRegs next
  refine ⟨?_, fun a ha => ?_, ?_⟩
  · rw [State.washSync_gates, hframe]
    rfl
  · rw [State.reg_congr (State.washSync_regs ..)]
    exact hregs a ha
  · rw [State.washSync_trays, hframe]
    rfl

/-! ### The selected entry -/

/-- INDEX steps modulo 256 (R142). -/
theorem State.nextIndex_index : s.nextIndex.dieF Reg.STENCIL_SEL 7 0 = (s.dieF Reg.STENCIL_SEL 7 0 + 1) % 256 := by
  rw [State.dieF, State.nextIndex, State.setDieF_die_same]
  exact fld_setFld _ 7 0 _ (by decide) (by decide)

theorem State.nextIndex_regsSame : RegsSame [dieA Reg.STENCIL_SEL] s s.nextIndex := s.setDieF_regsSame _ _ _ _

@[simp] theorem State.nextIndex_time : s.nextIndex.time = s.time := rfl

@[simp] theorem State.nextIndex_latched (p : Path) (hi : RegAddr) (live : Word) :
    s.nextIndex.latched p hi live = s.latched p hi live := rfl

/-- The step of INDEX depends on the registers alone. -/
theorem State.nextIndex_regs_congr {s t : State} (h : t.regs = s.regs) : t.nextIndex.regs = s.nextIndex.regs := by
  simp only [State.nextIndex, State.setDieF, State.setDie, State.setReg, State.dieF_congr h, State.die_congr h, h]

/-- A write of STENCIL_DATA_LO steps INDEX, and changes no other register. -/
theorem State.stencilDataWrite_regs (p : Path) (data : Word) : (s.stencilDataWrite p data).regs = s.nextIndex.regs := by
  rw [State.stencilDataWrite, State.washSync_regs]
  apply State.nextIndex_regs_congr
  split <;> rfl

/-- A write of STENCIL_DATA_LO replaces the selected entry (R10, R132, R142). -/
theorem State.stencilDataWrite_stencils (p : Path) (data : Word) (k : Nat) (h : s.selectedEntry = some k) :
    (s.stencilDataWrite p data).time.stencils =
      s.time.stencils.set 0 k (BitVec.ofNat 64 (join64 data (s.staged p (dieA Reg.STENCIL_DATA_HI)))) := by
  simp only [State.stencilDataWrite, h, State.washSync_stencils, State.nextIndex_time]

/-- A read of STENCIL_DATA_LO answers the low half of the selected entry, and latches the high half (R10, R142). -/
theorem State.stencilDataRead_eq (p : Path) (k : Nat) (h : s.selectedEntry = some k) :
    s.stencilDataRead p = (lo32 (s.time.stencils.get 0 k).toNat,
      (s.latchHigh p (dieA Reg.STENCIL_DATA_HI) (hi32 (s.time.stencils.get 0 k).toNat)).nextIndex) := by
  rw [State.stencilDataRead, State.entrySelected, h]

/-! ### WASH_OWNER -/

/-- The position that a value of WASH_OWNER names: ROW and COL where EN is set (R134). -/
def washPos (w : Word) : Option Nat := if bit w 31 then some (mkPos (fld w 9 5) (fld w 4 0)) else none

/-- The specification of WASH_OWNER: bit 31 and bits [9:0] are read and written. -/
theorem washOwner_spec : ∃ r, specOf (dieA Reg.WASH_OWNER) = some r ∧ r.rw = 0x800003FF ∧ r.w1c = 0 :=
  ⟨_, rfl, rfl, rfl⟩

/-- WASH_OWNER names the position that was written (R134). -/
theorem State.plainWrite_washOwner (data : Word) :
    (s.plainWrite (dieA Reg.WASH_OWNER) data).washOwner = washPos data := by
  obtain ⟨r, hr, hrw, hw1c⟩ := washOwner_spec
  have hrwBits : ∀ i ≤ 9, r.rw.testBit i = true ∧ r.w1c.testBit i = false := by rw [hrw, hw1c]; decide
  have hvalid : bit (maskedValue r (s.reg (dieA Reg.WASH_OWNER)) data) 31 = bit data 31 := by
    rw [bit_maskedValue _ _ _ _ (by decide), hrw, hw1c]
    rfl
  have hrow := fld_maskedValue r (s.reg (dieA Reg.WASH_OWNER)) data 9 5 (by decide) fun i _ hi => hrwBits i hi
  have hcol := fld_maskedValue r (s.reg (dieA Reg.WASH_OWNER)) data 4 0 (by decide) fun i _ hi => hrwBits i (by omega)
  simp only [State.washOwner, washPos, State.die, s.plainWrite_reg_same _ data r hr, hvalid, hrow, hcol]

/-- A write of WASH_OWNER leaves whether the wash point runs a stencil. -/
theorem State.plainWrite_washOwner_washRuns (data : Word) :
    (s.plainWrite (dieA Reg.WASH_OWNER) data).washRuns = s.washRuns := by
  simp only [State.washRuns, State.stencilRun, State.hasStencil, State.stencilEntry, State.stencilBank, State.dieF,
    State.plainWrite_time, s.plainWrite_die_other Reg.WASH_OWNER Reg.STENCIL_CTRL data (by decide),
    s.plainWrite_die_other Reg.WASH_OWNER Reg.STENCIL_BANK data (by decide)]

/-- A write of WASH_OWNER leaves the state of time. -/
theorem State.plainWrite_washOwner_timeState (data : Word) :
    (s.plainWrite (dieA Reg.WASH_OWNER) data).timeState = s.timeState := by
  rw [State.timeState, State.dieF, s.plainWrite_die_other Reg.WASH_OWNER Reg.TIME_STAT data (by decide)]
  rfl

/-- Without a wash stencil WASH_OWNER names the writer, unless time has expired (R134). -/
theorem State.washNamed_of_idle (hr : s.washRuns = false) (hs : s.timeState ≠ 4) : s.washNamed = s.washOwner := by
  rw [State.washNamed, hr, if_neg Bool.false_ne_true, if_neg hs]

/-- A write of WASH_OWNER takes effect at once while no wash stencil runs (R134). -/
theorem State.washOwnerWrite_wash (data : Word) (hr : s.washRuns = false) (hs : s.timeState ≠ 4) :
    (s.washOwnerWrite data).time.wash = washPos data := by
  rw [State.washOwnerWrite, State.washSync_wash, State.washNamed_of_idle, s.plainWrite_washOwner]
  · rwa [s.plainWrite_washOwner_washRuns]
  · rwa [s.plainWrite_washOwner_timeState]

/-- A write of WASH_OWNER changes no other register, and no tray. -/
theorem State.washOwnerWrite_frame (data : Word) :
    RegsSame [dieA Reg.WASH_OWNER] s (s.washOwnerWrite data) ∧ (s.washOwnerWrite data).trays = s.trays := by
  refine ⟨fun a ha => ?_, ?_⟩
  · rw [State.washOwnerWrite, State.reg_congr (State.washSync_regs ..)]
    exact s.plainWrite_reg_other _ a data (ha _ (List.mem_singleton_self _))
  · rw [State.washOwnerWrite, State.washSync_trays, State.plainWrite_trays]

end

/-! ### The obligations -/

/-- Settles O29: the boundary decides the gate, STENCIL_DATA reaches the selected entry, WASH_OWNER names the writer. -/
theorem stencilEntriesAdvanceAndAreWritten : Obligations.StencilEntriesAdvanceAndAreWritten := by
  refine ⟨fun s pos point => ⟨fun hstop => ?stopped, fun g hrun hs hg => ⟨fun hnt => ?early, fun hnt => ?boundary⟩⟩,
    fun acc data s k hk => ⟨fun ⟨hissue, hok⟩ => ?write, fun ⟨hissue, hok⟩ => ?read⟩,
    fun acc data s ⟨hissue, hok⟩ hr ht => ?owner⟩
  case stopped => exact congrArg done (s.stencilAdvance_stopped pos point hstop)
  case early => exact congrArg done ((State.stencilAdvance_running hrun hs hg).trans (if_pos hnt))
  case boundary =>
    obtain ⟨hgates, hregs, htrays⟩ := s.takeNextGate_frame pos point g.closes (s.nextGate pos point g)
    refine ⟨_, g.nextIndex,
      congrArg done ((State.stencilAdvance_running hrun hs hg).trans (if_neg (Nat.not_lt.2 hnt))), rfl, ?_,
      fun j hj => ?_, hregs, htrays⟩
    · rw [hgates, Store.find?_put_same]
      rfl
    · rw [hgates, Store.find?_put_other _ _ _ _ hj]
  case write =>
    have hexec := congrArg done (guardedWrite_ok s acc _ (fun t => t.stencilDataWrite acc.path data) hissue hok)
    refine ⟨_, hexec, ?_, fun j hj => ?_, ?_, fun a ha => ?_⟩
    · rw [State.respond_time, s.stencilDataWrite_stencils acc.path data k hk, Store.get_set_same]
    · rw [State.respond_time, s.stencilDataWrite_stencils acc.path data k hk, Store.get_set_other _ _ _ _ _ _ hj]
    · rw [State.dieF_congr ((State.respond_regs ..).trans (s.stencilDataWrite_regs acc.path data)), s.nextIndex_index]
    · rw [State.respond_reg, State.reg_congr (s.stencilDataWrite_regs acc.path data)]
      exact s.nextIndex_regsSame a ha
  case read =>
    have hexec := congrArg done (guardedRead_ok s acc _ (fun t => t.stencilDataRead acc.path) hissue hok)
    simp only [s.stencilDataRead_eq acc.path k hk] at hexec
    refine ⟨_, hexec, ?_, ?_, ?_, fun hp => State.respond_lastRsp_tap _ _ _ _ _ _ hp⟩
    · rw [State.respond_time, State.nextIndex_time, State.latchHigh_time]
    · rw [State.dieF_congr (State.respond_regs ..), State.nextIndex_index, State.dieF_congr (State.latchHigh_regs ..)]
    · rw [State.respond_latched, State.nextIndex_latched, State.latchHigh_latched]
  case owner =>
    obtain ⟨hregs, htrays⟩ := s.washOwnerWrite_frame data
    refine ⟨_, congrArg done (guardedWrite_ok s acc _ _ hissue hok), ?_, fun a ha => ?_, ?_⟩
    · rw [State.respond_time, s.washOwnerWrite_wash data hr ht]
      rfl
    · rw [State.respond_reg]
      exact hregs a ha
    · rw [State.respond_trays, htrays]

end Sys2Proof.Machine
